-- ==== Sys2Proof/Word.lean ====
section
/-! DEFINITION. The word types of the block and their plainest arithmetic. -/

namespace Sys2Proof

/-- A byte (R10: multi-byte values are little-endian). -/
abbrev Byte := BitVec 8

/-- A 32-bit register of a Whisk lane, or an accumulator's bits (R81, R161). -/
abbrev Word := BitVec 32

/-- A byte string: payloads, digests, keys and structures in memory (R10). -/
abbrev Bytes := List Byte

end Sys2Proof
end

