-- ==== Sys2Proof/Syntax.lean ====
section
/-! DEFINITION. The commands of the Obward: one constructor for each row of spec/opcode_table.json, with its operands. -/

namespace Sys2Proof

/-- Who makes a dictionary access (R498); TENANT carries its tenant number, NEIGHBOUR the frame's SrcChip. -/
inductive Principal where
  | vendor
  | owner
  | operator
  | tenant (n : Nat)
  | pilot
  | cores
  | installer
  | neighbour (chip : Nat)
deriving DecidableEq, Repr

/-- The access context that holds per-session objects (R522). -/
inductive AccessCtx where
  | session (id : Nat)
  | hart (h : Nat)
  | neighbour (chip : Nat)
  | firmware
deriving DecidableEq, Repr

/-- One dictionary access: its principal, its context, and whether the NV write that it makes fails (R502). -/
structure Access where
  who : Principal
  ctx : AccessCtx
  nvFails : Bool
deriving DecidableEq, Repr

/-- The forms of a gPTP Sync (R24): a one-step Sync, a two-step Sync, and the Follow_Up that completes it. -/
inductive SyncForm where
  | oneStep
  | twoStep
  | followUp
deriving DecidableEq, Repr

/-- What an error-correcting code finds in a word, burst or block: how many bit errors it corrected, or none it could. -/
inductive Finding where
  | clean
  | corrected (bits : Nat)
  | uncorrectable
deriving DecidableEq, Repr

/-- What an Ingot block read finds (R250, R251): the in-die code, then one retry, then the block's own CRC. -/
inductive IngotFinding where
  | corrected (bits : Nat)
  | retried (bits : Nat)
  | uncorrectable
  | crcMismatch
deriving DecidableEq, Repr

/-- A unit whose self-test fails (R418, R531). -/
inductive TestUnit where
  | griddle (g : Nat)
  | whisk (g : Nat)
  | tileStore (g : Nat)
  | sieve (n : Nat)
  | expediterPair
  | islandPair
deriving DecidableEq, Repr

/-- The unit kinds of the fault log (R413). -/
inductive UnitKind where
  | none
  | griddle
  | whisk
  | sieve
  | tileStore
  | pantrySlice
  | dramChannel
  | nvDie
  | linkPort
  | expediter
  | island
  | clockOrSupply
  | stack
deriving DecidableEq, Repr

/-- The Pantry hints (R324). -/
inductive Hint where
  | normal
  | stream
  | keep
  | last
deriving DecidableEq, Repr

/-- The tag every memory access carries (R493). -/
inductive MemTag where
  | device
  | tenant (n : Nat)
deriving DecidableEq, Repr

/-- What a Pantry access does: a read of so many bytes, or a write of bytes. -/
inductive MemOp where
  | read (len : Nat)
  | write (data : Bytes)
deriving DecidableEq, Repr

/-- The JTAG instructions (R553). -/
inductive JtagInstr where
  | bypass
  | idcode
  | samplePreload
  | extest
  | clamp
  | highz
  | debug (code : Nat)
deriving DecidableEq, Repr

/-- Scope of a reduction (R185). -/
inductive Scope where
  | block
  | row
deriving DecidableEq, Repr

/-- Rounding modes of LTOI (R176). -/
inductive Rounding where
  | trunc
  | nearest
  | dither
deriving DecidableEq, Repr

/-- The shift amount of SHL, SHR and SHRU: register b, or Imm[5:0] when Imm[9] is 1 (R169). -/
inductive ShiftBy where
  | reg (b : Fin 16)
  | imm (n : Fin 64)
deriving DecidableEq, Repr

/-- The values IDX can load (R169, Imm 0 to 4). -/
inductive IdxSource where
  | lane
  | column
  | rowPosition
  | blockIndex
  | xe
deriving DecidableEq, Repr

/-- Where a Whisk instruction works and under which predicate (R161, R167, R168): Whisk n, one of its 16 frames,
PredSel and PredInv. -/
structure WhiskAt where
  whisk : Nat
  frame : Nat
  predSel : Fin 4
  predInv : Bool
deriving DecidableEq, Repr

/-- What makes a REDUCE a contribution of a request to a collective (R400, R429): the request, the destination chip, group and
instance, the signal word if it signals, and whether it is the last of its member. -/
structure Contribution where
  request : Nat
  chip : Nat
  group : Nat
  inst : Nat
  signalAt : Option Nat
  last : Bool
deriving DecidableEq, Repr

/-- The fields of a Byari frame that its sender and its hops set (R392), with its payload bursts as bytes. -/
structure LinkFrame where
  opcode : Nat
  vc : Nat
  lastFrame : Bool
  signal : Bool
  linkSeq : Nat
  linkAck : Nat
  destChip : Nat
  srcChip : Nat
  flowSeq : Nat
  creditBursts : Nat
  creditVc : Nat
  hops : Nat
  space : Nat
  tenant : Nat
  address : Nat
  operand : Nat
  operand2 : Nat
  tag : Nat
  payload : Bytes
deriving DecidableEq, Repr

/-- A Puerelm message after ACCEPT (R510): its header's SessionId, Sequence and RequestId, its body and its HMAC,
the management port it arrived on, and its instant as an offset in the tick. -/
structure ClientMsg where
  session : Nat
  sequence : Nat
  requestId : Nat
  body : Bytes
  mac : Bytes
  mgPort : Nat
  time : Nat
  nvFails : Bool
deriving DecidableEq, Repr

/-- A fault the environment's hardware raises against a step (R411, R414): its code, the unit charged and the
request and step that execute. -/
structure StepFaultEvent where
  code : Nat
  unitKind : UnitKind
  unitIndex : Nat
  request : Nat
  step : Nat
  detail : Nat
  time : Nat
deriving DecidableEq, Repr

/-- The source address, UDP payload and port of an ingest datagram (R402, R403). -/
structure Datagram where
  port : Nat
  source : Bytes
  udpPort : Nat
  payload : Bytes
deriving DecidableEq, Repr

/-- Why a lane is taken as bad (R390): loss of signal or lock, so many uncorrectable codewords within 1 ms, failed training. -/
inductive LaneCause where
  | loss
  | codewords (n : Nat)
  | training
deriving DecidableEq, Repr

/-- What a gPTP message of a Sync tells (R24, R25): its form, its master's rank and the offset it measures. -/
structure SyncMsg where
  form : SyncForm
  master : Nat
  offsetNs : Int
deriving DecidableEq, Repr

/-- A burst that a producer brings, and its instant. -/
structure TimedBurst where
  data : Bytes
  t : Nat
deriving DecidableEq, Repr

/-- An index (a segment, a block) and the instant at which it is worked on. -/
structure TimedIndex where
  index : Nat
  t : Nat
deriving DecidableEq, Repr

/-- The content of a sector fetched for a repair, and how many of its writes fail to read back (R261, R273). -/
structure RepairData where
  content : Bytes
  fails : Nat
deriving DecidableEq, Repr

/-- The slices that a move switches (R316): one moved ahead of its turn, if any, and the lines that cannot be read. -/
structure SliceRun where
  ahead : Option Nat
  unreadable : List Nat
deriving DecidableEq, Repr

/-- What a REDUCE carries: a burst, and the contribution it is where it goes out to a collective (R330, R400). -/
structure ReduceData where
  burst : Bytes
  part : Option Contribution
deriving DecidableEq, Repr

/-- A lane taken as bad, and why (R390). -/
structure BadLane where
  lane : Nat
  cause : LaneCause
deriving DecidableEq, Repr

/-- The body of a mailbox request, and whether the NV write it makes fails (R502, R515). -/
structure MailboxBody where
  body : Bytes
  nvFails : Bool
deriving DecidableEq, Repr

/-- The commands. An operand `t` or `at` is the instant of the event, as an offset in ns from the boundary that
started the tick in progress; `g` is a logical Griddle (R82) unless its comment says physical. -/
inductive Instr where
  -- start-up and power
  | porstNRise
  | railPowerGood (rail : Nat)
  | dram (failedChannels : List Nat)
  | ingot (badDies : List Nat)
  | selfTest (failures : List TestUnit)
  | links (badLanes : List Nat)
  | porstNFall
  | alwaysOnRailLoss (rail : Nat)
  -- the tick
  | tickBoundary
  | specResume (context : Nat)
  | gateOffExpired (stepRef : Nat)
  | budgetWindow
  | thermalPersist (stack : Nat)
  | idleEnter
  | admitMark
  | ringSuspend (tenant ring : Nat)
  -- requests, as an entry taken from a ring (R345): tenant, ring, submission index, descriptor
  | run (tenant ring index : Nat) (desc : Bytes)
  | contextCreate (tenant ring index : Nat) (desc : Bytes)
  | contextDelete (tenant ring index : Nat) (desc : Bytes)
  | compact (tenant ring index : Nat) (desc : Bytes)
  | freeze (tenant ring index : Nat) (desc : Bytes)
  | lateMark
  | checkMark
  | mirrorAck (tick : Nat)
  | buddyLost
  | snapshotAcknowledged (chip : Nat)
  -- tick sources
  | syncTickEdge (pin : Nat) (t : Nat)
  | syncMissed
  | ptpSync (port : Nat) (sync : SyncMsg) (ptpTime : Nat) (t : Nat)
  | sourceLocked (source : Nat) (t : Nat)
  | sourceLoss (t : Nat)
  | holdoverExpired (t : Nat)
  -- issue and the data path
  | unitIssue (g : Nat)
  | hopperBind (g : Nat)
  | hopperUnbind (g : Nat)
  | hopperProducerWrite (g hopper : Nat) (burst : TimedBurst)
  | hopperConsumerRead (g hopper : Nat) (found : Finding) (t : Nat)
  | passDrain (g : Nat) (t : Nat)
  | finalDrain (g : Nat)
  | pause (g : Nat) (t : Nat)
  | resume (g : Nat) (request step unit : Nat) (t : Nat)
  | liveReadyYield (g : Nat) (t : Nat)
  | matchBuildComplete (g t : Nat)
  | gateKnown (request step unit : Nat) (active : List Nat)
  | makeUpArrival (request step unit : Nat) (block : Nat)
  | tokenSelect (request step : Nat)
  | stepFault (ev : StepFaultEvent)
  | replayExhausted (request : Nat) (t : Nat)
  | unitFaultLimit (kind : UnitKind) (index : Nat) (t : Nat)
  -- the Whisk's instructions (R169)
  | nop (w : WhiskAt)
  | mov (w : WhiskAt) (d a : Fin 16)
  | con (w : WhiskAt) (d k : Fin 16)
  | idx (w : WhiskAt) (d : Fin 16) (src : IdxSource)
  | sel (w : WhiskAt) (d a b : Fin 16) (m : Fin 4)
  | iadd (w : WhiskAt) (d a b : Fin 16)
  | isub (w : WhiskAt) (d a b : Fin 16)
  | ineg (w : WhiskAt) (d a : Fin 16)
  | iabs (w : WhiskAt) (d a : Fin 16)
  | imin (w : WhiskAt) (d a b : Fin 16)
  | imax (w : WhiskAt) (d a b : Fin 16)
  | shl (w : WhiskAt) (d a : Fin 16) (n : ShiftBy)
  | shr (w : WhiskAt) (d a : Fin 16) (n : ShiftBy)
  | shru (w : WhiskAt) (d a : Fin 16) (n : ShiftBy)
  | and (w : WhiskAt) (d a b : Fin 16)
  | or (w : WhiskAt) (d a b : Fin 16)
  | xor (w : WhiskAt) (d a b : Fin 16)
  | iclt (w : WhiskAt) (m : Fin 4) (a b : Fin 16)
  | iceq (w : WhiskAt) (m : Fin 4) (a b : Fin 16)
  | inz (w : WhiskAt) (m : Fin 4) (a : Fin 16)
  | ladd (w : WhiskAt) (d a b : Fin 16)
  | lsub (w : WhiskAt) (d a b : Fin 16)
  | lmul (w : WhiskAt) (d a b : Fin 16)
  | ldiv (w : WhiskAt) (d a b : Fin 16)
  | lneg (w : WhiskAt) (d a : Fin 16)
  | labs (w : WhiskAt) (d a : Fin 16)
  | lmax (w : WhiskAt) (d a b : Fin 16)
  | lmin (w : WhiskAt) (d a b : Fin 16)
  | lscl (w : WhiskAt) (d a : Fin 16) (imm : BitVec 10)
  | lexp (w : WhiskAt) (d a : Fin 16)
  | lclt (w : WhiskAt) (m : Fin 4) (a b : Fin 16)
  | lceq (w : WhiskAt) (m : Fin 4) (a b : Fin 16)
  | lcinf (w : WhiskAt) (m : Fin 4) (a : Fin 16) (negative : Bool)
  | itol (w : WhiskAt) (d a : Fin 16) (imm : BitVec 10)
  | ltoi (w : WhiskAt) (d a b : Fin 16) (exponent : BitVec 8) (mode : Rounding)
  | tab (w : WhiskAt) (d a : Fin 16) (table : Fin 4)
  | draw (w : WhiskAt) (d : Fin 16) (drawIndex : BitVec 10)
  | mand (w : WhiskAt) (m a b : Fin 4)
  | mor (w : WhiskAt) (m a b : Fin 4)
  | mxor (w : WhiskAt) (m a b : Fin 4)
  | mnot (w : WhiskAt) (m a : Fin 4)
  | sumI (w : WhiskAt) (slot : Fin 4) (a : Fin 16) (scope : Scope)
  | sumL (w : WhiskAt) (slot : Fin 4) (a : Fin 16) (scope : Scope)
  | maxI (w : WhiskAt) (slot : Fin 4) (a : Fin 16) (scope : Scope)
  | maxL (w : WhiskAt) (slot : Fin 4) (a : Fin 16) (scope : Scope)
  | minI (w : WhiskAt) (slot : Fin 4) (a : Fin 16) (scope : Scope)
  | minL (w : WhiskAt) (slot : Fin 4) (a : Fin 16) (scope : Scope)
  | argmaxI (w : WhiskAt) (slot : Fin 4) (a : Fin 16) (scope : Scope)
  | argmaxL (w : WhiskAt) (slot : Fin 4) (a : Fin 16) (scope : Scope)
  | count (w : WhiskAt) (slot : Fin 4) (a : Fin 16) (scope : Scope)
  | meanL (w : WhiskAt) (slot : Fin 4) (a : Fin 16) (scope : Scope)
  | bcast (w : WhiskAt) (d : Fin 16) (slot : Fin 4) (counts : Bool)
  | split (w : WhiskAt)
  | softmax (w : WhiskAt) (d a : Fin 16) (scope : Scope)
  -- upkeep of the engines and the stores
  | tileScrub (store : Nat) (found : Finding) (t : Nat)
  | griddleSwap (g : Nat) (cause : Nat) (t : Nat)
  | sieveSwap (sieve : Nat) (cause : Nat) (t : Nat)
  | selfTestSlice (failure : Option TestUnit) (t : Nat)
  | sieveTableBuild (sieve slot : Nat) (segment : TimedIndex)
  | sieveDecode (sieve slot : Nat) (block : TimedIndex)
  | ingotRead (ibn : Nat) (found : IngotFinding) (reader : Option (Nat × Nat)) (t : Nat)
  | patrol (found : List (Nat × IngotFinding)) (t : Nat)
  | refresh (sector : Nat) (fails : Nat)
  | repairDataArrival (sector : Nat) (data : RepairData)
  | ingotLost (sector : Nat) (t : Nat)
  | dramReadEcc (address : Nat) (found : Finding) (reader : Option (Nat × Nat)) (t : Nat)
  | dramParityRetry (channel : Nat) (failures : Nat) (read : Option (Nat × Option (Nat × Nat))) (t : Nat)
  | dramScrub (address : Nat) (found : Finding) (t : Nat)
  | channelFlag (channel : Nat) (t : Nat)
  | channelMapOut (channel : Nat)
  | sliceMove (channel : Nat) (slices : SliceRun)
  | lostLineRestore (address : Nat)
  | dramDead (address : Nat) (reader : Nat × Nat)
  | pantryAccess (tag : MemTag) (hint : Hint) (address : Nat) (op : MemOp) (reader : Option (Nat × Nat))
  | last (address : Nat) (reader : Option (Nat × Nat))
  | pantryStorageError (slice set way : Nat) (found : Finding) (t : Nat)
  | addI32 (keep : Bool) (address : Nat) (value : BitVec 32)
  | max (keep : Bool) (address : Nat) (value : BitVec 32)
  | min (keep : Bool) (address : Nat) (value : BitVec 32)
  | swap (keep : Bool) (address : Nat) (value : BitVec 32)
  | cas (keep : Bool) (address : Nat) (compare value : BitVec 64)
  | reduce (keep : Bool) (address : Nat) (data : ReduceData)
  | addL16 (keep : Bool) (address : Nat) (value : BitVec 16)
  -- sensors, supplies and clocks
  | sensorSample (sensor : Nat) (raw : Option Int) (t : Nat)
  | setPointLower (domain : Nat)
  | powerSample (railMv railQuarterA : List Nat)
  | droop (rail depthMv durationNs : Nat)
  | supplyFault (rail : Nat) (t : Nat)
  | clockFault (t : Nat)
  | smbalert (rail : Nat) (statusWord : BitVec 16) (fault : Bool) (t : Nat)
  | expediterCheck (t : Nat)
  | islandCheck (t : Nat)
  | boundaryReportMissed (t : Nat)
  -- silence, hand-over and takeover
  | failSilent
  | handOver (cause : Nat) (t : Nat)
  | handoverLast
  | takeoverStart (ward : Nat)
  | wardMiss
  | wardLost (t : Nat)
  | spareNoAnswer
  | mirrorCopied
  | identityAssumed
  | takeoverComplete
  -- links
  | laneBad (port : Nat) (bad : BadLane) (t : Nat)
  | retrainComplete (port : Nat)
  | ack (port linkAck creditVc creditBursts : Nat)
  | nak (port linkAck : Nat)
  | hopTimeout (port : Nat)
  | ackTimer (port : Nat)
  | flowAck (srcChip vc seq : Nat)
  | flowNak (srcChip vc seq : Nat)
  | flowTimeout (destChip vc : Nat)
  | flowSync (srcChip vc seq : Nat)
  | frameReceive (port : Nat) (raw : Bytes) (t : Nat)
  | late (f : LinkFrame)
  | wake (f : LinkFrame) (port : Nat)
  | put (f : LinkFrame)
  | slotPut (f : LinkFrame)
  | get (f : LinkFrame)
  | getData (f : LinkFrame)
  | reduceFrame (f : LinkFrame)
  | atomic (f : LinkFrame)
  | atomicResp (f : LinkFrame)
  | mirrorKv (f : LinkFrame)
  | mirrorRecord (f : LinkFrame)
  | notice (f : LinkFrame)
  | dict (f : LinkFrame)
  | dictResp (f : LinkFrame)
  | collectiveTimeout (group inst : Nat) (t : Nat)
  | ingestDatagram (d : Datagram)
  -- Puerelm and the dictionary
  | hello (clientKey clientNonce ephemeral : Bytes) (requestId mgPort t : Nat)
  | proof (session requestId : Nat) (signature : Bytes) (mgPort t : Nat)
  | proofTimeout (session : Nat)
  | read (m : ClientMsg)
  | write (m : ClientMsg)
  | describe (m : ClientMsg)
  | keepalive (m : ClientMsg)
  | close (m : ClientMsg)
  | sessionIdle (session : Nat)
  | transferTimeout (session : Nat)
  | coreMailboxRequest (hart : Nat) (messageType : Nat) (request : MailboxBody)
  | dictWrite (a : Access) (index sub : Nat) (value : Bytes)
  | tickPeriodWrite (a : Access) (sub : Nat) (value : Nat)
  | tickRegridNo (a : Access) (value : Nat)
  | syncPinFunction (a : Access) (pin : Nat) (value : Nat)
  | castOpen (a : Access) (manifest : Bytes)
  | castStagingHead (a : Access) (value : Nat)
  | stagingEntryConsumed (fails : Nat)
  | castDataComplete
  | castVerifyComplete (readBackOk : Bool)
  | castAbort (a : Access) (slot : Nat)
  | castAdopt (a : Access) (adoption : Bytes)
  | castDelete (a : Access) (slot : Nat)
  | castPointer (a : Access) (pointer slot : Nat)
  | variantLoad (a : Access) (value : Bytes)
  | mouldPassComplete
  | secondPassComplete (decodesOk : Bool)
  | variantAbort (a : Access) (value : Nat)
  | variantDelete (a : Access) (slot : Nat)
  | variantPointer (a : Access) (pointer slot : Nat)
  | channelMapOutWrite (a : Access) (channel : Nat)
  | tenantReset (a : Access) (tenant : Nat) (value : Nat)
  | ringResume (a : Access) (tenant : Nat) (mask : Nat)
  | handOverWrite (a : Access) (value : Nat)
  | chipStateRequest (a : Access) (value : Nat)
  | spareStateReached
  | wakeReady (failedChannels : List Nat)
  | chipReset (a : Access) (value : Nat)
  | portReset (a : Access) (mask : Nat)
  | engineReset (a : Access) (unit : Nat) (passes : Bool)
  | serveEnable (a : Access) (value : Nat)
  | ownerInstall (a : Access) (value : Bytes)
  | keyAuthorise (a : Access) (record : Bytes)
  | keyRevoke (a : Access) (digest : Bytes)
  | firmwareStage (a : Access) (image : Bytes)
  | rollbackCommit (a : Access) (kind : Nat)
  | attestNonce (a : Access) (nonce : Bytes)
  | shareGrant (a : Access) (grant : Bytes)
  | shareRevoke (a : Access) (grant : Bytes)
  | tenantMemPages (a : Access) (tenant : Nat) (pages : Nat)
  | statsSnapshotRequest (a : Access) (value : Nat)
  | dictRestoreDefaults (a : Access) (value : Nat)
  | powerGoodMissed (rail : Nat)
  -- management traffic, identity and test access
  | peerDelay (port : Nat) (request : Bool) (meanDelayNs : Nat)
  | neighbourDiscovery (port : Nat) (target : Bytes)
  | chipIdWrite (a : Access) (value : Nat)
  | jtagInstruction (j : JtagInstr)
  | variantRebuildComplete (slot : Nat)
  | nvWriteComplete (index sub : Nat) (ok : Bool)
deriving DecidableEq, Repr

end Sys2Proof
end

