-- ==== Sys2Proof/Decode.lean ====
section
/-! DEFINITION. The command a word of the table's bits spells: the table gives none of its rows any bits. -/

namespace Sys2Proof

/-- The command that a word of `nbits` bits spells: none, since no row of the table of operations has an encoding. -/
def decodeTableWord (_nbits _w : Nat) : Option Instr := none

end Sys2Proof
end

