-- ==== Sys2Proof/Config.lean ====
section
/-! DEFINITION. What one part has and another has not, and the values the spec leaves open: constants without a body,
so that nothing can be proved of them (notes/assumptions say which is which). -/

namespace Sys2Proof.Config

open Sys2Proof

/-- A free value: the n-th value that the spec leaves open. -/
opaque freeValue : Nat → Nat

/-- A free byte string: the n-th value of so many bytes that the device draws. -/
opaque freeBytes : Nat → Nat → Bytes

/-- The secret scalar of the n-th ephemeral key (R485). -/
opaque freeScalar : Nat → Nat

/-- The identity key's signature over a digest (R479, R485, R490): 64 bytes. -/
opaque deviceSignature : Bytes → Bytes

/-- The vendor's public key, 65 bytes uncompressed (R476). -/
opaque vendorKey : Bytes

/-- The device identity public key, 65 bytes uncompressed (R479). -/
opaque deviceKey : Bytes

/-- The device certificate (R479). -/
opaque deviceCert : Bytes

/-- SerialNumber, 16 bytes (R519). -/
opaque serialNumber : Bytes

/-- DieStepping (R519). -/
opaque dieStepping : Nat

/-- The vendor's JEP106 identification code (R553). -/
opaque jep106 : Nat

/-- CoreWindowBase (R515, R519). -/
opaque coreWindowBase : Nat

/-- The voltage table that the vendor delivers in Safety Island NV (R441), 1,216 bytes. -/
opaque voltageTable : Bytes

/-- The temperature sensors of a domain's zone (R443). -/
opaque domainSensors : Nat → List Nat

/-- The delivered copy of each firmware kind: header and body (R476, R477). -/
opaque image : Nat → Bytes

/-- The draw that rounds one element of h ⊙ u of a gated step (R77, R153): the spec names no draw index for it. The arguments
are the key, the position and the neuron. -/
opaque gatedDraw : Nat → Nat → Nat → Nat

/-- The check bits of the SEC-DED (72,64) code over a 64-bit word (R226): the spec does not give the code. -/
opaque secDed : Nat → BitVec 8

/-- The in-die code of an NV die over a block and its CRC (R250): the spec does not give the code. -/
opaque inDieCode : List (BitVec 8) → Nat → Nat

/-- The Spec byte of a completion record whose request held several rounds, each with its width and its accepted tokens (R354): the
spec names one round. -/
opaque specOf : List (Nat × Nat) → Nat

/-- The integer that a fused ADD takes from an L16 operand's code at an exponent: the spec forms it for A8 and A4. -/
opaque fusedL16 : Nat → Int → Int

end Sys2Proof.Config
end

