-- ==== Sys2Proof/Machine/Util.lean ====
section
/-! DEFINITION. Byte strings, integers of a width, and the sparse maps in which the state holds what it holds much of. -/

namespace Sys2Proof.Machine

open Sys2Proof

/-! ### Byte strings (R10: multi-byte values are little-endian) -/

/-- The natural number a little-endian byte string spells. -/
def leNat : Bytes → Nat
  | [] => 0
  | b :: bs => b.toNat + 256 * leNat bs

/-- The number a big-endian byte string spells (the form of keys, digests and signatures). -/
def beNat (b : Bytes) : Nat := leNat b.reverse

/-- The low `n` bytes of `v`, little-endian. -/
def natLe : Nat → Nat → Bytes
  | 0, _ => []
  | n + 1, v => BitVec.ofNat 8 v :: natLe n (v / 256)

/-- The low `n` bytes of `v`, big-endian. -/
def natBe (n v : Nat) : Bytes := (natLe n v).reverse

/-- Byte `i` of a byte string as a number; 0 past its end. -/
def byteAt (b : Bytes) (i : Nat) : Nat := (b.getD i 0).toNat

/-- The `n` bytes from byte `off`. -/
def sub (b : Bytes) (off n : Nat) : Bytes := (b.drop off).take n

/-- The little-endian field of `n` bytes at byte `off`. -/
def fld (b : Bytes) (off n : Nat) : Nat := leNat (sub b off n)

/-- Bits `[lo + n - 1 : lo]` of a number. -/
def bits (v lo n : Nat) : Nat := v / 2 ^ lo % 2 ^ n

/-- `n` zero bytes. -/
def zeros (n : Nat) : Bytes := List.replicate n 0

/-- A byte string cut or zero-padded to `n` bytes. -/
def padTo (n : Nat) (b : Bytes) : Bytes := b.take n ++ zeros (n - b.length)

/-- Whether every byte is zero. -/
def allZero (b : Bytes) : Bool := b.all (· == 0)

/-! ### Integers of a width -/

/-- The integer that the low `w` bits of `v` spell in two's complement. -/
def toSigned (w v : Nat) : Int :=
  let u := v % 2 ^ w
  if u < 2 ^ (w - 1) then (u : Int) else (u : Int) - (2 : Int) ^ w

/-- The low `w` bits of an integer's two's complement form. -/
def ofSigned (w : Nat) (i : Int) : Nat := (i % (2 : Int) ^ w).toNat

/-- The integer nearest to `i` within `[lo, hi]`. -/
def clamp (lo hi i : Int) : Int := if i < lo then lo else if hi < i then hi else i

/-- The signed range of `w` bits, by clamping. -/
def clampBits (w : Nat) (i : Int) : Int := clamp (-(2 : Int) ^ (w - 1)) ((2 : Int) ^ (w - 1) - 1) i

/-- Floor division of an integer by a power of two. -/
def shrFloor (i : Int) (n : Nat) : Int := i.fdiv ((2 : Int) ^ n)

/-- Division rounded up. -/
def ceilDiv (a b : Nat) : Nat := (a + b - 1) / b

/-- The sum of a list of naturals. -/
def sumN (l : List Nat) : Nat := l.foldl (· + ·) 0

/-- The smallest of a list of integers, 0 for none. -/
def minI' (l : List Int) : Int := match l with
  | [] => 0
  | a :: r => r.foldl min a

/-- The largest of a list of integers, 0 for none. -/
def maxI' (l : List Int) : Int := match l with
  | [] => 0
  | a :: r => r.foldl max a

/-- Entry `i` of a list, or a default. -/
def nth {α : Type} (d : α) (l : List α) (i : Nat) : α := l.getD i d

/-- A list with entry `i` replaced, unchanged where there is none. -/
def setNth {α : Type} (l : List α) (i : Nat) (v : α) : List α := l.set i v

/-- A list with entry `i` changed by `f`. -/
def updNth {α : Type} (l : List α) (i : Nat) (f : α → α) : List α := l.modify i f

/-- The first index whose entry meets a test. -/
def findIx {α : Type} (p : α → Bool) (l : List α) : Option Nat := l.findIdx? p

/-- The numbers below `n` that meet a test, rising. -/
def natsWhere (n : Nat) (p : Nat → Bool) : List Nat := (List.range n).filter p

/-! ### Sparse maps: strictly rising keys, one canonical form -/

/-- A map from naturals as a list of key and value with strictly rising keys. -/
abbrev SMap (α : Type) := List (Nat × α)

/-- The value at a key, if listed. -/
def sfind {α : Type} : SMap α → Nat → Option α
  | [], _ => none
  | (k, v) :: m, j => if k = j then some v else sfind m j

/-- List a value at a key, keeping the keys rising. -/
def sput {α : Type} : SMap α → Nat → α → SMap α
  | [], j, x => [(j, x)]
  | (k, v) :: m, j, x =>
    if j < k then (j, x) :: (k, v) :: m
    else if j = k then (j, x) :: m
    else (k, v) :: sput m j x

/-- Unlist a key. -/
def sdel {α : Type} (m : SMap α) (j : Nat) : SMap α := m.filter (fun e => e.1 != j)

/-- The value at a key; an unlisted key holds `d`. -/
def sget {α : Type} (d : α) (m : SMap α) (j : Nat) : α := (sfind m j).getD d

/-- Hold a value at a key; the default is never listed. -/
def sset {α : Type} [DecidableEq α] (d : α) (m : SMap α) (j : Nat) (x : α) : SMap α :=
  if x = d then sdel m j else sput m j x

/-- Change the value at a key. -/
def supd {α : Type} [DecidableEq α] (d : α) (m : SMap α) (j : Nat) (f : α → α) : SMap α :=
  sset d m j (f (sget d m j))

/-- Change the value at a key where it is listed. -/
def smod {α : Type} (m : SMap α) (j : Nat) (f : α → α) : SMap α :=
  m.map (fun e => if e.1 = j then (e.1, f e.2) else e)

/-- Change every listed value. -/
def smapAll {α : Type} (m : SMap α) (f : Nat → α → α) : SMap α := m.map (fun e => (e.1, f e.1 e.2))

/-- Whether a key is listed. -/
def shas {α : Type} (m : SMap α) (j : Nat) : Bool := (sfind m j).isSome

/-- The lowest key not listed, from `n` up, looking at `fuel` keys. -/
def sfree {α : Type} (m : SMap α) : Nat → Nat → Nat
  | 0, n => n
  | fuel + 1, n => if shas m n then sfree m fuel (n + 1) else n

/-- The keys are strictly rising. -/
abbrev skeysWf {α : Type} (m : SMap α) : Prop := (m.map (·.1)).Pairwise (· < ·)

/-- The canonical form with a default: rising keys, and no entry equal to what an unlisted key holds. -/
abbrev swf {α : Type} (d : α) (m : SMap α) : Prop := skeysWf m ∧ ∀ e ∈ m, e.2 ≠ d

end Sys2Proof.Machine
end

