-- ==== Sys2Proof/Machine/Formats.lean ====
section
/-! DEFINITION. The number formats of chapter 2 (R54 to R80): TP5, A8, A4, SB8, SB4, the row exponent summary, L16
and DB record headers, each with its encoder and its checking decoder. -/

namespace Sys2Proof.Machine

open Sys2Proof

/-- The faults a consumer of coded data raises (R57, R59, R62, R64, R71, R73). -/
inductive DataFault where
  | tritCode
  | burstCrc
  | burstForm
  | sparseMeta
  | expSummary
deriving DecidableEq, Repr

/-- The element formats of a tensor (R61, R63, R74, R188, R335). -/
inductive Fmt where
  | a8
  | a4
  | l16
  | stats
  | tokens
deriving DecidableEq, Repr

/-- A 240-element block: its integers and the exponents of its four groups (R54). -/
structure Block where
  elems : List Int
  exps : List Int
deriving DecidableEq, Repr

/-- The block whose elements are all 0. -/
def Block.zero : Block := ⟨List.replicate 240 0, [0, 0, 0, 0]⟩

/-- The 60 elements of group `g` of a block (R54). -/
def Block.group (b : Block) (g : Nat) : List Int := (b.elems.drop (60 * g)).take 60

/-- The exponent of group `g`. -/
def Block.exp (b : Block) (g : Nat) : Int := nth 0 b.exps g

/-- The count of non-zero elements. -/
def Block.nnz (b : Block) : Nat := (b.elems.filter (· != 0)).length

/-! ### TP5 (R56, R57) -/

/-- The digit of a trit (R56). -/
def tritDigit (t : Int) : Nat := if t = 1 then 1 else if t = -1 then 2 else 0

/-- The trit of a digit (R56). -/
def digitTrit (d : Nat) : Int := if d = 1 then 1 else if d = 2 then -1 else 0

/-- Five trits in one byte: `d0 + 3·d1 + 9·d2 + 27·d3 + 81·d4` (R56). -/
def tp5Byte (t : List Int) : Byte :=
  BitVec.ofNat 8 ((List.range 5).foldr (fun i acc => tritDigit (nth 0 t i) + 3 * acc) 0)

/-- The five trits of a byte, `none` for the codes 0xF3 to 0xFF (R57). -/
def tp5Decode (b : Byte) : Option (List Int) :=
  if b.toNat > 242 then none
  else some ((List.range 5).map (fun j => digitTrit (b.toNat / 3 ^ j % 3)))

/-- The TP5 form of a list of trits, five to a byte (R56). -/
def tp5Pack (t : List Int) : Bytes :=
  (List.range (ceilDiv t.length 5)).map (fun j => tp5Byte ((t.drop (5 * j)).take 5))

/-- The trits of a TP5 byte string, or TRIT_CODE (R57). -/
def tp5Unpack : Bytes → Except DataFault (List Int)
  | [] => .ok []
  | b :: bs => match tp5Decode b with
    | none => .error .tritCode
    | some t => match tp5Unpack bs with
      | .error e => .error e
      | .ok r => .ok (t ++ r)

/-! ### The burst CRC (R58) -/

/-- One bit of the CRC-16 of R58. -/
def crc16Bit (c : BitVec 16) : BitVec 16 := if c.msb then (c <<< 1) ^^^ 0x1021#16 else c <<< 1

/-- One byte of the CRC-16 of R58. -/
def crc16Byte (c : BitVec 16) (b : Byte) : BitVec 16 :=
  (List.range 8).foldl (fun c _ => crc16Bit c) (c ^^^ ((b.setWidth 16) <<< 8))

/-- The CRC-16 of R58: polynomial 0x1021, initial value 0xFFFF, no reflection, no final XOR. -/
def crc16 (d : Bytes) : BitVec 16 := d.foldl crc16Byte 0xFFFF#16

/-- Append the CRC, little-endian, in the last two bytes (R58). -/
def withCrc (d : Bytes) : Bytes := d ++ natLe 2 (crc16 d).toNat

/-- Whether the last two bytes are the CRC of those before (R58, R59). -/
def crcOk (d : Bytes) : Bool :=
  let n := d.length - 2
  fld d n 2 == (crc16 (d.take n)).toNat

/-! ### A8 and A4 bursts (R61 to R64) -/

/-- A signed byte. -/
def i8 (i : Int) : Byte := BitVec.ofInt 8 i

/-- Byte `i` of a string as a signed integer. -/
def i8At (b : Bytes) (i : Nat) : Int := (b.getD i 0).toInt

/-- The signed nibble `i` of a string, low nibble first (R63). -/
def nibAt (b : Bytes) (i : Nat) : Int := toSigned 4 (byteAt b (i / 2) / 16 ^ (i % 2))

/-- Nibbles in bytes, low nibble first (R63). -/
def nibPack (l : List Int) : Bytes :=
  (List.range (ceilDiv l.length 2)).map (fun j =>
    BitVec.ofNat 8 (ofSigned 4 (nth 0 l (2 * j)) + 16 * ofSigned 4 (nth 0 l (2 * j + 1))))

/-- An A8 burst of 60 elements and their exponent (R61, R62): a zero group has Exp 0 and ZERO set. -/
def a8Burst (els : List Int) (e : Int) : Bytes :=
  let z := els.all (· == 0)
  withCrc ((List.range 60).map (fun j => i8 (nth 0 els j)) ++ [i8 (if z then 0 else e), if z then 1#8 else 0#8])

/-- Read an A8 burst: CRC before form (R59, R62). -/
def a8Read (b : Bytes) : Except DataFault (List Int × Int) :=
  let els := (List.range 60).map (i8At b)
  let z := els.all (· == 0)
  let c := byteAt b 61
  if !crcOk b then .error .burstCrc
  else if c / 2 ≠ 0 ∨ (c % 2 == 1) ≠ z ∨ (z ∧ i8At b 60 ≠ 0) then .error .burstForm
  else .ok (els, i8At b 60)

/-- An A4 burst of two groups (R63, R64). -/
def a4Burst (els : List Int) (e0 e1 : Int) : Bytes :=
  let z0 := (els.take 60).all (· == 0)
  let z1 := (els.drop 60).all (· == 0)
  withCrc (nibPack (padElems els) ++ [i8 (if z0 then 0 else e0), i8 (if z1 then 0 else e1)])
where
  /-- Exactly 120 elements. -/
  padElems (l : List Int) : List Int := (List.range 120).map (nth 0 l)

/-- Read an A4 burst: CRC before form (R59, R64). -/
def a4Read (b : Bytes) : Except DataFault (List Int × Int × Int) :=
  let els := (List.range 120).map (nibAt b)
  if !crcOk b then .error .burstCrc
  else if ((els.take 60).all (· == 0) ∧ i8At b 60 ≠ 0) ∨ ((els.drop 60).all (· == 0) ∧ i8At b 61 ≠ 0) then
    .error .burstForm
  else .ok (els, i8At b 60, i8At b 61)

/-- A block as its dense bursts: four A8 bursts or two A4 bursts (R61, R63). -/
def denseBlock (f : Fmt) (b : Block) : Bytes := match f with
  | .a4 => a4Burst (b.elems.take 120) (b.exp 0) (b.exp 1) ++ a4Burst (b.elems.drop 120) (b.exp 2) (b.exp 3)
  | _ => (List.range 4).flatMap (fun g => a8Burst (b.group g) (b.exp g))

/-- Read a block's dense bursts, the first fault in burst order. -/
def denseRead (f : Fmt) (d : Bytes) : Except DataFault Block := match f with
  | .a4 => do
    let (x, e0, e1) ← a4Read (sub d 0 64)
    let (y, e2, e3) ← a4Read (sub d 64 64)
    return ⟨x ++ y, [e0, e1, e2, e3]⟩
  | _ => do
    let (x0, e0) ← a8Read (sub d 0 64)
    let (x1, e1) ← a8Read (sub d 64 64)
    let (x2, e2) ← a8Read (sub d 128 64)
    let (x3, e3) ← a8Read (sub d 192 64)
    return ⟨x0 ++ x1 ++ x2 ++ x3, [e0, e1, e2, e3]⟩

/-- Bytes of a dense block: 256 at A8, 128 at A4, 480 at L16 (R65). -/
def blockBytes : Fmt → Nat
  | .a4 => 128
  | .l16 => 480
  | _ => 256

/-- Bytes of a slot: 320 at A8, 192 at A4 (R66). -/
def slotBytes : Fmt → Nat
  | .a4 => 192
  | _ => 320

/-! ### SB blocks (R68 to R71) -/

/-- The 30 bitmap bytes of a block: bit `i mod 8` of byte `i / 8` is 1 when element `i` is non-zero (R68). -/
def bitmapOf (els : List Int) : Bytes :=
  (List.range 30).map (fun j => BitVec.ofNat 8
    ((List.range 8).foldr (fun k acc => (if nth 0 els (8 * j + k) = 0 then 0 else 1) + 2 * acc) 0))

/-- The positions a bitmap sets, rising (R68). -/
def bitmapPos (bm : Bytes) : List Nat :=
  natsWhere 240 (fun i => byteAt bm (i / 8) / 2 ^ (i % 8) % 2 == 1)

/-- The exponents as a producer writes them: 0 for a zero group (R62, R64, R71). -/
def prodExps (b : Block) : List Int :=
  (List.range 4).map (fun g => if (b.group g).all (· == 0) then 0 else b.exp g)

/-- The first 38 bytes of an SB header (R68). -/
def sbHead (form : Nat) (b : Block) : Bytes :=
  [BitVec.ofNat 8 b.nnz, BitVec.ofNat 8 form] ++ (prodExps b).map i8 ++ [0, 0] ++ bitmapOf b.elems

/-- Bursts an SB block uses: `⌈(40 + Nnz)/64⌉` or `⌈(40 + ⌈Nnz/2⌉)/64⌉` (R68). -/
def sbBursts (f : Fmt) (nnz : Nat) : Nat := match f with
  | .a4 => ceilDiv (40 + ceilDiv nnz 2) 64
  | _ => ceilDiv (40 + nnz) 64

/-- A block in sparse form (R68). -/
def sbBlock (f : Fmt) (b : Block) : Bytes :=
  let vals := b.elems.filter (· != 0)
  let body := match f with
    | .a4 => sbHead 0x02 b ++ nibPack vals
    | _ => sbHead 0x01 b ++ vals.map i8
  withCrc (padTo (64 * sbBursts f b.nnz - 2) body)

/-- A block as dense-in-slot: the header burst, then the dense bursts from slot byte 64 (R69, R70). -/
def denseSlot (f : Fmt) (b : Block) : Bytes :=
  withCrc (padTo 62 (sbHead (match f with | .a4 => 0x82 | _ => 0x81) b)) ++ denseBlock f b

/-- The producer's choice for a SLOTTED block: sparse when its nnz is no greater than the density threshold (R67). -/
def slotBlock (f : Fmt) (threshold : Nat) (b : Block) : Bytes :=
  if b.nnz ≤ threshold then sbBlock f b else denseSlot f b

/-- What the header of an SB block says, once R71 has been checked. -/
structure SbHeader where
  nnz : Nat
  form : Nat
  exps : List Int
  pos : List Nat
deriving DecidableEq, Repr

/-- Whether a form code belongs to the tensor's width (R69, R71). -/
def sbFormOk (f : Fmt) (form : Nat) : Bool := match f with
  | .a4 => form == 0x02 || form == 0x82
  | _ => form == 0x01 || form == 0x81

/-- The bytes a header's CRC covers and its own two bytes: the used length of a sparse form, the header burst of a
dense form (R68, R70). -/
def sbUsed (f : Fmt) (form nnz : Nat) : Nat := if form ≥ 0x80 then 64 else 64 * sbBursts f nnz

/-- The header fields of a block, once their rules hold (R71): popcount, range, reserved bits, exponents of empty groups. -/
def sbFields (d : Bytes) : Except DataFault SbHeader :=
  let nnz := byteAt d 0
  let exps := (List.range 4).map (fun g => i8At d (2 + g))
  let pos := bitmapPos (sub d 8 30)
  if nnz ≠ pos.length ∨ nnz > 240 ∨ byteAt d 6 ≠ 0 ∨ byteAt d 7 ≠ 0
    ∨ (List.range 4).any (fun g => !(pos.any (fun p => p / 60 == g)) && nth 0 exps g != 0) then
    .error .sparseMeta
  else .ok ⟨nnz, byteAt d 1, exps, pos⟩

/-- The rules of R71 on what follows the bitmap: padding and an unused nibble are zero. -/
def sbPadOk (f : Fmt) (d : Bytes) : Bool :=
  let nnz := byteAt d 0
  let form := byteAt d 1
  let valBytes := if form ≥ 0x80 then 0 else match f with | .a4 => ceilDiv nnz 2 | _ => nnz
  allZero (sub d (38 + valBytes) (sbUsed f form nnz - 2 - (38 + valBytes)))
    && !(f == .a4 && form == 0x02 && nnz % 2 == 1 && byteAt d (38 + nnz / 2) / 16 != 0)

/-- The header rules of R71 after the CRC. -/
def sbHeaderRules (f : Fmt) (d : Bytes) : Except DataFault SbHeader :=
  if sbPadOk f d then sbFields d else .error .sparseMeta

/-- Check an SB header: a reserved form, one of the other width or Nnz above 240 leaves the used length unknown and
raises SPARSE_META without a CRC check; otherwise the CRC first, then the rules (R71). -/
def sbCheck (f : Fmt) (d : Bytes) : Except DataFault SbHeader :=
  let form := byteAt d 1
  if !sbFormOk f form then .error .sparseMeta
  else if !crcOk (d.take (sbUsed f form (byteAt d 0))) then .error .burstCrc
  else sbHeaderRules f d

/-- What pricing reads of a slot: its header burst alone (R70, R149). The CRC and the padding are checked where the header
burst holds them, the fields always (log 75). -/
def sbPriced (f : Fmt) (d : Bytes) : Except DataFault SbHeader :=
  let form := byteAt d 1
  if !sbFormOk f form then .error .sparseMeta
  else if sbUsed f form (byteAt d 0) ≤ 64 then sbCheck f d
  else sbFields d

/-- Scatter values to their positions; the rest are zero (R68, R76). -/
def scatter (pos : List Nat) (vals : List Int) : List Int :=
  (List.range 240).map (fun i => match findIx (· == i) pos with | some k => nth 0 vals k | none => 0)

/-- Read a SLOTTED block (R68 to R71): the header first, then for a dense form its bursts, whose exponents and
non-zero elements the header must match (R70). -/
def slotRead (f : Fmt) (d : Bytes) : Except DataFault Block := do
  let h ← sbCheck f d
  if h.form < 0x80 then
    let vals := (List.range h.nnz).map (fun k => match f with | .a4 => nibAt (d.drop 38) k | _ => i8At d (38 + k))
    return ⟨scatter h.pos vals, h.exps⟩
  else
    let raw := d.drop 64
    let els := match f with
      | .a4 => (List.range 2).flatMap (fun k => (List.range 120).map (nibAt (sub raw (64 * k) 64)))
      | _ => (List.range 4).flatMap (fun k => (List.range 60).map (i8At (sub raw (64 * k) 64)))
    let exps := match f with
      | .a4 => [i8At raw 60, i8At raw 61, i8At raw 124, i8At raw 125]
      | _ => [i8At raw 60, i8At raw 124, i8At raw 188, i8At raw 252]
    if exps ≠ h.exps ∨ bitmapPos (bitmapOf els) ≠ h.pos then .error .sparseMeta
    else denseRead f raw

/-- Bytes a consumer reads of a SLOTTED block, by its header (R66, R67). -/
def slotUsed (f : Fmt) (d : Bytes) : Nat :=
  if byteAt d 1 ≥ 0x80 then slotBytes f else 64 * sbBursts f (byteAt d 0)

/-! ### The row exponent summary (R72, R73) -/

/-- What a row's summary entry says. -/
structure RowSummary where
  eMin : Int
  eMax : Int
  allZeroRow : Bool
deriving DecidableEq, Repr

/-- The summary of a row, from the non-zero groups of its blocks (R72, R73). -/
def rowSummary (row : List Block) : RowSummary :=
  let es := row.flatMap (fun b => (List.range 4).filterMap (fun g =>
    if (b.group g).all (· == 0) then none else some (b.exp g)))
  match es with
  | [] => ⟨0, 0, true⟩
  | _ => ⟨minI' es, maxI' es, false⟩

/-- A summary entry's four bytes (R72). -/
def summaryEntry (r : RowSummary) : Bytes := [i8 r.eMin, i8 r.eMax, if r.allZeroRow then 1 else 0, 0]

/-- The summary bursts of rows, 15 to a burst (R72). -/
def summaryBursts (rows : List RowSummary) : Bytes :=
  (List.range (ceilDiv rows.length 15)).flatMap (fun k =>
    withCrc (padTo 62 (((rows.drop (15 * k)).take 15).flatMap summaryEntry)))

/-- Byte offset of the burst that holds row `r` and of its entry in it (R72). -/
def summaryPlace (r : Nat) : Nat × Nat := (64 * (r / 15), 4 * (r % 15))

/-- Read row `r`'s entry from the burst that holds it, in a tensor of `rows` rows: the CRC first, then the form rules
of R73. -/
def summaryRead (burst : Bytes) (r rows : Nat) : Except DataFault RowSummary :=
  let off := 4 * (r % 15)
  let lo := i8At burst off
  let hi := i8At burst (off + 1)
  let az := byteAt burst (off + 2) % 2 == 1
  let res := byteAt burst (off + 2) / 2 + byteAt burst (off + 3)
  let used := min 15 (rows - 15 * (r / 15))
  if !crcOk burst then .error .burstCrc
  else if lo > hi ∨ res ≠ 0 ∨ (az ∧ (lo ≠ 0 ∨ hi ≠ 0)) ∨ byteAt burst 60 ≠ 0 ∨ byteAt burst 61 ≠ 0
    ∨ ¬ allZero (sub burst (4 * used) (60 - 4 * used)) then .error .expSummary
  else .ok ⟨lo, hi, az⟩

/-- A block against its row's summary: a non-zero group outside the range, or any in a row marked all zero, raises
EXP_SUMMARY (R73). -/
def summaryAdmits (s : RowSummary) (b : Block) : Bool :=
  (List.range 4).all (fun g => (b.group g).all (· == 0) ||
    (!s.allZeroRow && s.eMin ≤ b.exp g && b.exp g ≤ s.eMax))

/-! ### L16 codes and the conversion from A8 and A4 (R74, R75, R78) -/

/-- λ(n): 512·log2(n) rounded to the nearest integer, for n from 1 to 128 (R78); it is the floor of half of one more
than the floor of log2 of n^1024. -/
def lambda (n : Nat) : Nat := (Nat.log2 (n ^ 1024) + 1) / 2

/-- The magnitude code of an L16 (R74). -/
def l16Mag (c : Nat) : Nat := c % 32768

/-- The sign bit of an L16 (R74). -/
def l16Neg (c : Nat) : Bool := c / 32768 % 2 == 1

/-- An L16 code from its sign and magnitude code. -/
def l16Mk (neg : Bool) (m : Nat) : Nat := (if neg then 32768 else 0) + m % 32768

/-- The key of the total order: m for sign 0 and −m for sign 1 (R75). -/
def l16Key (c : Nat) : Int := if l16Neg c then -(l16Mag c : Int) else (l16Mag c : Int)

/-- An element a·2^E in L16, and whether it clipped (R78). -/
def toL16 (a e : Int) : Nat × Bool :=
  if a = 0 then (0, false)
  else
    let m : Int := 16384 + 512 * e + lambda a.natAbs
    if m > 0x7FFE then (l16Mk (a < 0) 0x7FFE, true)
    else if m < 1 then (0, false)
    else (l16Mk (a < 0) m.toNat, false)

/-! ### DB record headers (R79, R80) -/

/-- The fields of a DB record's header (R79). -/
structure DbHeader where
  mode : Nat
  tableGen : Nat
  changeCount : Nat
  reserved : Nat
  codedBits : Nat
  blockOffset : Nat
deriving DecidableEq, Repr

/-- Read the 8 bytes of a DB header (R79). -/
def dbHeader (b : Bytes) : DbHeader := ⟨byteAt b 0, byteAt b 1, byteAt b 2, byteAt b 3, fld b 4 2, fld b 6 2⟩

/-- Write the 8 bytes of a DB header (R79). -/
def dbHeaderBytes (h : DbHeader) : Bytes :=
  natLe 1 h.mode ++ natLe 1 h.tableGen ++ natLe 1 h.changeCount ++ natLe 1 h.reserved ++ natLe 2 h.codedBits
    ++ natLe 2 h.blockOffset

/-- The header rules of R79, R80 and R285; `prev` is the BlockOffset of the record before. -/
def dbHeaderOk (h : DbHeader) (prev : Option Nat) : Bool :=
  (match h.mode with
    | 1 => if h.changeCount = 0 then h.codedBits == 0 else 1 ≤ h.codedBits && h.codedBits ≤ 383
    | 2 => h.codedBits == 384
    | _ => false)
  && h.reserved == 0 && h.changeCount ≤ 240 && h.blockOffset ≤ 8191
  && (match prev with | none => true | some p => p < h.blockOffset)

/-- Bytes a record takes: `8 + 8·⌈CodedLengthBits/64⌉` (R79). -/
def dbRecordBytes (h : DbHeader) : Nat := 8 + 8 * ceilDiv h.codedBits 64

end Sys2Proof.Machine
end

