-- ==== Sys2Proof/Machine/L16Tables.lean ====
section
/-! DEFINITION. The fixed tables of the L16 unit (R173, R176), each entry the rounding of its rule's own formula. -/

namespace Sys2Proof.Machine

/-- Entries 0 to 63 of `phiTable`. -/
def phi0 : List Nat := [
  8192, 8065, 7939, 7814, 7691, 7569, 7449, 7330, 7212, 7096, 6981, 6868, 6756, 6645, 6535, 6427, 6321,
  6215, 6111, 6008, 5907, 5807, 5708, 5611, 5515, 5420, 5327, 5234, 5143, 5054, 4965, 4878, 4792, 4707,
  4624, 4542, 4460, 4381, 4302, 4224, 4148, 4073, 3999, 3926, 3854, 3783, 3714, 3645, 3578, 3512, 3446,
  3382, 3319, 3257, 3196, 3135, 3076, 3018, 2961, 2905, 2849, 2795, 2741, 2689]

/-- Entries 64 to 127 of `phiTable`. -/
def phi1 : List Nat := [
  2637, 2586, 2537, 2488, 2439, 2392, 2346, 2300, 2255, 2211, 2168, 2125, 2083, 2042, 2002, 1963, 1924,
  1886, 1848, 1812, 1776, 1740, 1705, 1671, 1638, 1605, 1573, 1541, 1510, 1480, 1450, 1421, 1392, 1364,
  1336, 1309, 1283, 1256, 1231, 1206, 1181, 1157, 1133, 1110, 1088, 1065, 1043, 1022, 1001, 980, 960,
  940, 921, 902, 883, 865, 847, 830, 813, 796, 779, 763, 747, 732]

/-- Entries 128 to 191 of `phiTable`. -/
def phi2 : List Nat := [
  716, 702, 687, 673, 659, 645, 631, 618, 605, 593, 580, 568, 556, 545, 533, 522, 511, 500, 490, 480,
  470, 460, 450, 441, 431, 422, 413, 405, 396, 388, 380, 372, 364, 356, 348, 341, 334, 327, 320, 313,
  307, 300, 294, 288, 281, 275, 270, 264, 258, 253, 247, 242, 237, 232, 227, 222, 218, 213, 208, 204,
  200, 195, 191, 187]

/-- Entries 192 to 255 of `phiTable`. -/
def phi3 : List Nat := [
  183, 179, 176, 172, 168, 165, 161, 158, 154, 151, 148, 145, 142, 139, 136, 133, 130, 127, 124, 122,
  119, 117, 114, 112, 109, 107, 105, 102, 100, 98, 96, 94, 92, 90, 88, 86, 84, 83, 81, 79, 77, 76, 74,
  73, 71, 69, 68, 67, 65, 64, 62, 61, 60, 58, 57, 56, 55, 54, 52, 51, 50, 49, 48, 47]

/-- Entries 256 to 319 of `phiTable`. -/
def phi4 : List Nat := [
  46, 45, 44, 43, 42, 41, 40, 40, 39, 38, 37, 36, 36, 35, 34, 33, 33, 32, 31, 31, 30, 29, 29, 28, 27, 27,
  26, 26, 25, 25, 24, 24, 23, 23, 22, 22, 21, 21, 20, 20, 19, 19, 19, 18, 18, 17, 17, 17, 16, 16, 16, 15,
  15, 15, 14, 14, 14, 13, 13, 13, 13, 12, 12, 12]

/-- Entries 320 to 352 of `phiTable`. -/
def phi5 : List Nat := [
  12, 11, 11, 11, 11, 10, 10, 10, 10, 9, 9, 9, 9, 9, 9, 8, 8, 8, 8, 8, 7, 7, 7, 7, 7, 7, 7, 6, 6, 6, 6,
  6, 6]

/-- Φ[j] = round(8,192·log2(1 + 2^(−j/32))), j = 0 to 352 (R173). -/
def phiTable : List Nat :=
  phi0 ++ phi1 ++ phi2 ++ phi3 ++ phi4 ++ phi5

/-- Entries 0 to 63 of `psiNegTable`. -/
def psiNeg0 : List Nat := [
  8192, 7941, 7701, 7471, 7250, 7037, 6833, 6636, 6447, 6265, 6089, 5920, 5756, 5598, 5446, 5298, 5156,
  5018, 4885, 4756, 4631, 4510, 4393, 4280, 4170, 4063, 3960, 3859, 3762, 3667, 3576, 3487, 3400, 3316,
  3234, 3155, 3077, 3002, 2929, 2858, 2789, 2722, 2657, 2593, 2531, 2471, 2412, 2355, 2299, 2245, 2192,
  2140, 2090, 2041, 1994, 1947, 1902, 1858, 1815, 1773, 1732, 1692, 1653, 1615]

/-- Entries 64 to 127 of `psiNegTable`. -/
def psiNeg1 : List Nat := [
  1578, 1542, 1507, 1472, 1439, 1406, 1374, 1343, 1313, 1283, 1254, 1226, 1198, 1171, 1145, 1119, 1094,
  1069, 1045, 1022, 999, 977, 955, 934, 913, 892, 873, 853, 834, 816, 798, 780, 763, 746, 729, 713, 698,
  682, 667, 652, 638, 624, 610, 597, 584, 571, 558, 546, 534, 523, 511, 500, 489, 478, 468, 458, 448,
  438, 428, 419, 410, 401, 392, 384]

/-- Entries 128 to 191 of `psiNegTable`. -/
def psiNeg2 : List Nat := [
  375, 367, 359, 351, 344, 336, 329, 322, 315, 308, 301, 295, 288, 282, 276, 270, 264, 258, 253, 247,
  242, 237, 232, 227, 222, 217, 212, 208, 203, 199, 194, 190, 186, 182, 178, 174, 171, 167, 163, 160,
  156, 153, 150, 146, 143, 140, 137, 134, 131, 128, 126, 123, 120, 118, 115, 113, 110, 108, 106, 103,
  101, 99, 97, 95]

/-- Entries 192 to 255 of `psiNegTable`. -/
def psiNeg3 : List Nat := [
  93, 91, 89, 87, 85, 83, 81, 80, 78, 76, 75, 73, 71, 70, 68, 67, 65, 64, 63, 61, 60, 59, 57, 56, 55, 54,
  53, 52, 50, 49, 48, 47, 46, 45, 44, 43, 42, 42, 41, 40, 39, 38, 37, 36, 36, 35, 34, 33, 33, 32, 31, 31,
  30, 29, 29, 28, 27, 27, 26, 26, 25, 25, 24, 24]

/-- Entries 256 to 319 of `psiNegTable`. -/
def psiNeg4 : List Nat := [
  23, 23, 22, 22, 21, 21, 20, 20, 19, 19, 19, 18, 18, 17, 17, 17, 16, 16, 16, 15, 15, 15, 14, 14, 14, 13,
  13, 13, 13, 12, 12, 12, 12, 11, 11, 11, 11, 10, 10, 10, 10, 10, 9, 9, 9, 9, 9, 8, 8, 8, 8, 8, 7, 7, 7,
  7, 7, 7, 7, 6, 6, 6, 6, 6]

/-- Entries 320 to 320 of `psiNegTable`. -/
def psiNeg5 : List Nat := [
  6]

/-- −Ψ[j], Ψ[j] = round(8,192·log2(1 − 2^(−j/32))), entry j − 32 for j = 32 to 352 (R173). -/
def psiNegTable : List Nat :=
  psiNeg0 ++ psiNeg1 ++ psiNeg2 ++ psiNeg3 ++ psiNeg4 ++ psiNeg5

/-- Entries 0 to 63 of `psifNegTable`. -/
def psifNeg0 : List Nat := [
  4879, 4368, 4069, 3857, 3692, 3558, 3445, 3347, 3260, 3183, 3113, 3049, 2991, 2936, 2886, 2839, 2794,
  2753, 2713, 2676, 2640, 2606, 2574, 2543, 2514, 2485, 2458, 2431, 2406, 2381, 2358, 2335, 2312, 2291,
  2270, 2250, 2230, 2211, 2192, 2174, 2156, 2139, 2122, 2105, 2089, 2074, 2058, 2043, 2028, 2014, 2000,
  1986, 1972, 1959, 1946, 1933, 1921, 1908, 1896, 1884, 1872, 1861, 1850, 1838]

/-- Entries 64 to 127 of `psifNegTable`. -/
def psifNeg1 : List Nat := [
  1828, 1817, 1806, 1796, 1785, 1775, 1765, 1755, 1746, 1736, 1727, 1717, 1708, 1699, 1690, 1682, 1673,
  1664, 1656, 1647, 1639, 1631, 1623, 1615, 1607, 1599, 1592, 1584, 1577, 1569, 1562, 1555, 1548, 1540,
  1533, 1527, 1520, 1513, 1506, 1499, 1493, 1486, 1480, 1474, 1467, 1461, 1455, 1449, 1443, 1437, 1431,
  1425, 1419, 1413, 1407, 1402, 1396, 1390, 1385, 1379, 1374, 1368, 1363, 1358]

/-- Entries 128 to 191 of `psifNegTable`. -/
def psifNeg2 : List Nat := [
  1353, 1347, 1342, 1337, 1332, 1327, 1322, 1317, 1312, 1307, 1302, 1297, 1293, 1288, 1283, 1279, 1274,
  1269, 1265, 1260, 1256, 1251, 1247, 1242, 1238, 1234, 1229, 1225, 1221, 1217, 1213, 1208, 1204, 1200,
  1196, 1192, 1188, 1184, 1180, 1176, 1172, 1168, 1165, 1161, 1157, 1153, 1149, 1146, 1142, 1138, 1135,
  1131, 1127, 1124, 1120, 1117, 1113, 1110, 1106, 1103, 1099, 1096, 1093, 1089]

/-- Entries 192 to 255 of `psifNegTable`. -/
def psifNeg3 : List Nat := [
  1086, 1082, 1079, 1076, 1073, 1069, 1066, 1063, 1060, 1056, 1053, 1050, 1047, 1044, 1041, 1038, 1035,
  1032, 1029, 1025, 1022, 1020, 1017, 1014, 1011, 1008, 1005, 1002, 999, 996, 993, 991, 988, 985, 982,
  979, 977, 974, 971, 968, 966, 963, 960, 958, 955, 952, 950, 947, 945, 942, 939, 937, 934, 932, 929,
  927, 924, 922, 919, 917, 914, 912, 909, 907]

/-- Entries 256 to 319 of `psifNegTable`. -/
def psifNeg4 : List Nat := [
  905, 902, 900, 897, 895, 893, 890, 888, 886, 883, 881, 879, 877, 874, 872, 870, 868, 865, 863, 861,
  859, 856, 854, 852, 850, 848, 846, 844, 841, 839, 837, 835, 833, 831, 829, 827, 825, 823, 821, 819,
  817, 815, 813, 811, 809, 807, 805, 803, 801, 799, 797, 795, 793, 791, 789, 787, 785, 783, 781, 780,
  778, 776, 774, 772]

/-- Entries 320 to 383 of `psifNegTable`. -/
def psifNeg5 : List Nat := [
  770, 768, 767, 765, 763, 761, 759, 758, 756, 754, 752, 751, 749, 747, 745, 744, 742, 740, 738, 737,
  735, 733, 732, 730, 728, 726, 725, 723, 721, 720, 718, 717, 715, 713, 712, 710, 708, 707, 705, 704,
  702, 700, 699, 697, 696, 694, 693, 691, 689, 688, 686, 685, 683, 682, 680, 679, 677, 676, 674, 673,
  671, 670, 668, 667]

/-- Entries 384 to 447 of `psifNegTable`. -/
def psifNeg6 : List Nat := [
  665, 664, 663, 661, 660, 658, 657, 655, 654, 653, 651, 650, 648, 647, 645, 644, 643, 641, 640, 639,
  637, 636, 634, 633, 632, 630, 629, 628, 626, 625, 624, 622, 621, 620, 618, 617, 616, 615, 613, 612,
  611, 609, 608, 607, 606, 604, 603, 602, 600, 599, 598, 597, 595, 594, 593, 592, 591, 589, 588, 587,
  586, 584, 583, 582]

/-- Entries 448 to 510 of `psifNegTable`. -/
def psifNeg7 : List Nat := [
  581, 580, 578, 577, 576, 575, 574, 573, 571, 570, 569, 568, 567, 566, 564, 563, 562, 561, 560, 559,
  558, 557, 555, 554, 553, 552, 551, 550, 549, 548, 547, 545, 544, 543, 542, 541, 540, 539, 538, 537,
  536, 535, 534, 533, 532, 530, 529, 528, 527, 526, 525, 524, 523, 522, 521, 520, 519, 518, 517, 516,
  515, 514, 513]

/-- −Ψf[d], Ψf[d] = round(512·log2(1 − 2^(−d/512))), entry d − 1 for d = 1 to 511 (R173). -/
def psifNegTable : List Nat :=
  psifNeg0 ++ psifNeg1 ++ psifNeg2 ++ psifNeg3 ++ psifNeg4 ++ psifNeg5 ++ psifNeg6 ++ psifNeg7

/-- Entries 0 to 63 of `nuTable`. -/
def nu0 : List Nat := [
  8388608, 8399972, 8411352, 8422747, 8434157, 8445583, 8457025, 8468482, 8479954, 8491442, 8502945,
  8514465, 8525999, 8537550, 8549116, 8560697, 8572295, 8583908, 8595536, 8607181, 8618841, 8630517,
  8642209, 8653917, 8665641, 8677380, 8689136, 8700907, 8712694, 8724498, 8736317, 8748152, 8760003,
  8771871, 8783754, 8795654, 8807569, 8819501, 8831449, 8843413, 8855394, 8867390, 8879403, 8891432,
  8903477, 8915539, 8927617, 8939712, 8951823, 8963950, 8976093, 8988253, 9000430, 9012623, 9024833,
  9037059, 9049301, 9061561, 9073837, 9086129, 9098438, 9110764, 9123107, 9135466]

/-- Entries 64 to 127 of `nuTable`. -/
def nu1 : List Nat := [
  9147842, 9160235, 9172644, 9185071, 9197514, 9209974, 9222451, 9234945, 9247455, 9259983, 9272528,
  9285089, 9297668, 9310264, 9322877, 9335507, 9348154, 9360818, 9373499, 9386197, 9398913, 9411646,
  9424396, 9437164, 9449948, 9462750, 9475570, 9488406, 9501261, 9514132, 9527021, 9539928, 9552851,
  9565793, 9578752, 9591728, 9604722, 9617734, 9630764, 9643811, 9656875, 9669958, 9683058, 9696175,
  9709311, 9722464, 9735636, 9748825, 9762032, 9775256, 9788499, 9801760, 9815039, 9828335, 9841650,
  9854982, 9868333, 9881702, 9895089, 9908494, 9921917, 9935359, 9948818, 9962296]

/-- Entries 128 to 191 of `nuTable`. -/
def nu2 : List Nat := [
  9975792, 9989307, 10002839, 10016390, 10029960, 10043548, 10057154, 10070778, 10084422, 10098083,
  10111763, 10125462, 10139179, 10152915, 10166669, 10180442, 10194234, 10208044, 10221873, 10235721,
  10249587, 10263473, 10277377, 10291300, 10305242, 10319202, 10333182, 10347181, 10361198, 10375235,
  10389290, 10403365, 10417458, 10431571, 10445703, 10459854, 10474024, 10488214, 10502422, 10516650,
  10530897, 10545163, 10559449, 10573754, 10588079, 10602423, 10616786, 10631169, 10645571, 10659993,
  10674434, 10688895, 10703375, 10717875, 10732395, 10746935, 10761494, 10776072, 10790671, 10805289,
  10819928, 10834585, 10849263, 10863961]

/-- Entries 192 to 255 of `nuTable`. -/
def nu3 : List Nat := [
  10878679, 10893416, 10908174, 10922951, 10937749, 10952566, 10967404, 10982262, 10997140, 11012038,
  11026956, 11041894, 11056853, 11071832, 11086831, 11101851, 11116891, 11131951, 11147032, 11162133,
  11177254, 11192396, 11207559, 11222742, 11237946, 11253170, 11268415, 11283680, 11298967, 11314274,
  11329601, 11344950, 11360319, 11375709, 11391120, 11406552, 11422004, 11437478, 11452973, 11468488,
  11484025, 11499582, 11515161, 11530761, 11546382, 11562024, 11577687, 11593372, 11609078, 11624805,
  11640553, 11656323, 11672114, 11687926, 11703760, 11719615, 11735492, 11751390, 11767310, 11783252,
  11799215, 11815199, 11831206, 11847234]

/-- Entries 256 to 319 of `nuTable`. -/
def nu4 : List Nat := [
  11863283, 11879355, 11895448, 11911563, 11927700, 11943858, 11960039, 11976241, 11992466, 12008712,
  12024981, 12041271, 12057584, 12073918, 12090275, 12106654, 12123055, 12139479, 12155924, 12172392,
  12188882, 12205395, 12221930, 12238487, 12255067, 12271669, 12288294, 12304941, 12321610, 12338303,
  12355018, 12371755, 12388516, 12405299, 12422104, 12438933, 12455784, 12472658, 12489555, 12506475,
  12523418, 12540383, 12557372, 12574384, 12591419, 12608476, 12625557, 12642662, 12659789, 12676939,
  12694113, 12711310, 12728530, 12745774, 12763041, 12780331, 12797645, 12814982, 12832343, 12849727,
  12867135, 12884566, 12902021, 12919500]

/-- Entries 320 to 383 of `nuTable`. -/
def nu5 : List Nat := [
  12937002, 12954528, 12972078, 12989651, 13007249, 13024870, 13042515, 13060184, 13077877, 13095594,
  13113335, 13131099, 13148888, 13166701, 13184539, 13202400, 13220286, 13238195, 13256129, 13274088,
  13292070, 13310077, 13328109, 13346165, 13364245, 13382350, 13400479, 13418633, 13436812, 13455015,
  13473242, 13491495, 13509772, 13528074, 13546401, 13564752, 13583129, 13601530, 13619956, 13638408,
  13656884, 13675385, 13693911, 13712463, 13731039, 13749641, 13768268, 13786920, 13805598, 13824300,
  13843028, 13861782, 13880561, 13899365, 13918195, 13937050, 13955931, 13974837, 13993769, 14012727,
  14031710, 14050719, 14069754, 14088814]

/-- Entries 384 to 447 of `nuTable`. -/
def nu6 : List Nat := [
  14107901, 14127013, 14146151, 14165315, 14184505, 14203721, 14222963, 14242232, 14261526, 14280846,
  14300193, 14319565, 14338964, 14358390, 14377841, 14397319, 14416824, 14436354, 14455912, 14475495,
  14495106, 14514742, 14534406, 14554096, 14573813, 14593556, 14613326, 14633123, 14652947, 14672798,
  14692675, 14712579, 14732511, 14752469, 14772455, 14792467, 14812507, 14832574, 14852668, 14872789,
  14892937, 14913113, 14933316, 14953547, 14973805, 14994090, 15014403, 15034743, 15055111, 15075506,
  15095929, 15116380, 15136859, 15157365, 15177899, 15198461, 15219050, 15239668, 15260313, 15280987,
  15301688, 15322418, 15343175, 15363961]

/-- Entries 448 to 511 of `nuTable`. -/
def nu7 : List Nat := [
  15384775, 15405617, 15426487, 15447386, 15468313, 15489268, 15510252, 15531264, 15552304, 15573373,
  15594471, 15615597, 15636752, 15657935, 15679147, 15700388, 15721658, 15742956, 15764283, 15785640,
  15807025, 15828439, 15849882, 15871354, 15892855, 15914386, 15935945, 15957534, 15979152, 16000799,
  16022476, 16044182, 16065917, 16087682, 16109476, 16131300, 16153153, 16175036, 16196949, 16218891,
  16240863, 16262865, 16284897, 16306958, 16329050, 16351171, 16373322, 16395504, 16417715, 16439956,
  16462228, 16484530, 16506861, 16529224, 16551616, 16574039, 16596492, 16618976, 16641490, 16664034,
  16686609, 16709215, 16731851, 16754518]

/-- ν[f] = round(2^(f/512)·2^23), f = 0 to 511 (R176). -/
def nuTable : List Nat :=
  nu0 ++ nu1 ++ nu2 ++ nu3 ++ nu4 ++ nu5 ++ nu6 ++ nu7

end Sys2Proof.Machine
end

