-- ==== Sys2Proof/Machine/L16.lean ====
section
/-! DEFINITION. L16 arithmetic and its conversions (R172 to R176), and the dither generator (R181, R182). Each
operation answers its result code and whether it set CLIP. -/

namespace Sys2Proof.Machine

/-- ONE, 0x4000 (R74). -/
def l16One : Nat := 0x4000

/-- +∞, 0x7FFF. -/
def l16PosInf : Nat := 0x7FFF

/-- −∞, 0xFFFF. -/
def l16NegInf : Nat := 0xFFFF

/-- Either zero code. -/
def l16IsZero (c : Nat) : Bool := l16Mag c == 0

/-- Either infinity. -/
def l16IsInf (c : Nat) : Bool := l16Mag c == 0x7FFF

/-- A result as R172 writes it: every zero is 0x0000. -/
def l16Canon (c : Nat) : Nat := if l16IsZero c then 0 else c

/-- The clip of R172: a code above 0x7FFE becomes MAX_FINITE with CLIP, a code below 1 becomes 0x0000. -/
def l16Clip (neg : Bool) (m : Int) : Nat × Bool :=
  if m > 0x7FFE then (l16Mk neg 0x7FFE, true)
  else if m < 1 then (0, false)
  else (l16Mk neg m.toNat, false)

/-- φ(d) of R173. -/
def l16Phi (d : Nat) : Int :=
  if d ≥ 5632 then 0
  else
    let j := d / 16
    let r := d % 16
    (((nth (0 : Nat) phiTable j : Nat) : Int) * (16 - r) + ((nth (0 : Nat) phiTable (j + 1) : Nat) : Int) * r + 128).fdiv 256

/-- ψ(d) of R173. -/
def l16Psi (d : Nat) : Int :=
  if d ≥ 5632 then 0
  else if d < 512 then -((nth (0 : Nat) psifNegTable (d - 1) : Nat) : Int)
  else
    let j := d / 16
    let r := d % 16
    (-((nth (0 : Nat) psiNegTable (j - 32) : Nat) : Int) * (16 - r) + -((nth (0 : Nat) psiNegTable (j - 31) : Nat) : Int) * r + 128).fdiv 256

/-- LNEG: the sign flipped; a zero result is 0x0000 (R169). -/
def l16NegOp (a : Nat) : Nat := if l16IsZero a then 0 else l16Mk (!l16Neg a) (l16Mag a)

/-- LABS: the sign cleared (R169). -/
def l16AbsOp (a : Nat) : Nat := l16Mag a

/-- LADD (R172). -/
def l16Add (a b : Nat) : Nat × Bool :=
  let m1 := l16Mag a
  let m2 := l16Mag b
  if l16IsZero a then (l16Canon b, false)
  else if l16IsZero b then (l16Canon a, false)
  else if l16IsInf a && l16IsInf b then (if l16Neg a = l16Neg b then a else 0, false)
  else if l16IsInf a then (a, false)
  else if l16IsInf b then (b, false)
  else
    let d := (m1 - m2) + (m2 - m1)
    if l16Neg a = l16Neg b then l16Clip (l16Neg a) ((max m1 m2 : Nat) + l16Phi d)
    else if d = 0 then (0, false)
    else l16Clip (if m1 > m2 then l16Neg a else l16Neg b) ((max m1 m2 : Nat) + l16Psi d)

/-- LSUB(a, b) is LADD(a, LNEG(b)) (R172). -/
def l16Sub (a b : Nat) : Nat × Bool := l16Add a (l16NegOp b)

/-- LMUL (R172). -/
def l16Mul (a b : Nat) : Nat × Bool :=
  let sg := xor (l16Neg a) (l16Neg b)
  if l16IsZero a || l16IsZero b then (0, false)
  else if l16IsInf a || l16IsInf b then (l16Mk sg 0x7FFF, false)
  else l16Clip sg ((l16Mag a : Int) + l16Mag b - 16384)

/-- LDIV (R172). -/
def l16Div (a b : Nat) : Nat × Bool :=
  let sg := xor (l16Neg a) (l16Neg b)
  if l16IsZero a then (0, false)
  else if l16IsZero b then (l16Mk sg 0x7FFF, false)
  else if l16IsInf a && l16IsInf b then (l16Mk sg 0x4000, false)
  else if l16IsInf a then (l16Mk sg 0x7FFF, false)
  else if l16IsInf b then (0, false)
  else l16Clip sg ((l16Mag a : Int) - l16Mag b + 16384)

/-- LSCL by a signed immediate (R169, R172). -/
def l16Scl (a : Nat) (imm : Int) : Nat × Bool :=
  if l16IsZero a || l16IsInf a then (l16Canon a, false)
  else l16Clip (l16Neg a) ((l16Mag a : Int) + imm)

/-- LMAX: by the order of R75; when the operands are equal, a (R169). -/
def l16Max (a b : Nat) : Nat := if l16Key a < l16Key b then b else a

/-- LMIN: by the order of R75; when the operands are equal, a (R169). -/
def l16Min (a b : Nat) : Nat := if l16Key b < l16Key a then b else a

/-- μ(j) = round(512·log2(1 + j/256)), μ(256) = 512 (R175). -/
def l16Mu (j : Nat) : Nat := (Nat.log2 ((256 + j) ^ 1024) + 1 - 8192) / 2

/-- ITOL of a at the full-width exponent X (R175). -/
def itolAt (a : Int) (x : Int) : Nat × Bool :=
  if a = 0 then (0, false)
  else
    let n := a.natAbs
    let p := Nat.log2 n
    let j := n * 2 ^ 16 / 2 ^ p / 256 % 256
    let r := n * 2 ^ 16 / 2 ^ p % 256
    let f := l16Mu j + ((l16Mu (j + 1) - l16Mu j) * r + 128) / 256
    l16Clip (a < 0) (16384 + 512 * (x + p) + f)

/-- The magnitude M and shift s = 23 − p of LTOI for a finite non-zero code at exponent E (R176). -/
def ltoiParts (m : Nat) (e : Int) : Nat × Int :=
  let c : Int := (m : Int) - 16384 - 512 * e
  let p := c.fdiv 512
  let f := (c.fmod 512).toNat
  (nth 0 nuTable f, 23 - p)

/-- LTOI's rounded magnitude, before the clamp (R176); mode 0 TRUNC, 1 NEAREST, 2 DITHER with the 32-bit draw `d`. -/
def ltoiMag (m : Nat) (e : Int) (mode d : Nat) : Nat :=
  let (mm, s) := ltoiParts m e
  if s ≤ 0 then mm * 2 ^ (-s).toNat
  else if s > 32 then 0
  else
    let k := s.toNat
    if mode = 0 then mm / 2 ^ k
    else if mode = 1 then (mm + 2 ^ (k - 1)) / 2 ^ k
    else (mm + d / 2 ^ (32 - k)) / 2 ^ k

/-- LTOI (R176): the integer and whether it clamped. -/
def ltoiAt (a : Nat) (e : Int) (mode d : Nat) : Int × Bool :=
  if l16IsZero a then (0, false)
  else
    let sg : Int → Int := fun v => if l16Neg a then -v else v
    if l16IsInf a then (sg 2147483647, true)
    else
      let v := ltoiMag (l16Mag a) e mode d
      if v > 2147483647 then (sg 2147483647, true) else (sg v, false)

/-- LEXP (R174). -/
def l16Exp (a : Nat) : Nat × Bool :=
  if l16IsZero a then (l16One, false)
  else if l16IsInf a then (if l16Neg a then 0 else l16PosInf, false)
  else
    let (u, cl) := ltoiAt a (-16) 1 0
    let c : Int := 16384 + (u * 48408813 + 2147483648).fdiv 4294967296
    let (r, cl2) := l16Clip false c
    (r, cl2 || (cl && c > 0x7FFE))

/-- The code whose key is `k`, key 0 giving 0x0000 (R179). -/
def l16OfKey (k : Int) : Nat := if k < 0 then l16Mk true k.natAbs else k.toNat

/-! ### The dither generator -/

/-- 32-bit rotate left. -/
def rotl32 (x : Nat) (n : Nat) : Nat := x * 2 ^ n % 2 ^ 32 + x % 2 ^ 32 / 2 ^ (32 - n)

/-- The g constants of R182. -/
def ditherG : List Nat := [0x9E3779B9, 0x3C6EF372, 0xDAA66D2B, 0x78DDE6E4]

/-- The rotations of R182. -/
def ditherRot : List Nat := [13, 17, 5, 24]

/-- The 64-bit draw of key K and counter C (R182). -/
def dither64 (key ctr : Nat) : Nat :=
  let k := [key % 2 ^ 32, key / 2 ^ 32 % 2 ^ 32]
  let (x0, x1) := (List.range 4).foldl (fun (x : Nat × Nat) i =>
    let x0 := (x.1 + x.2 + nth 0 k (i % 2) + nth 0 ditherG i) % 2 ^ 32
    (x0, Nat.xor (rotl32 x.2 (nth 0 ditherRot i)) x0)) (ctr % 2 ^ 32, ctr / 2 ^ 32 % 2 ^ 32)
  x1 * 2 ^ 32 + x0

/-- The 32-bit draw: bits [63:32] of the 64-bit draw (R182). -/
def dither32 (key ctr : Nat) : Nat := dither64 key ctr / 2 ^ 32

/-- The generator key of a row: context, StepRef, low 18 bits of the recipe generation (R181). -/
def ditherKey (context stepRef generation : Nat) : Nat :=
  context % 2 ^ 14 + 2 ^ 14 * (stepRef % 2 ^ 32) + 2 ^ 46 * (generation % 2 ^ 18)

/-- The generator counter: position modulo 2^24, element column, draw index (R181). -/
def ditherCtr (position column index : Nat) : Nat :=
  position % 2 ^ 24 + 2 ^ 24 * (column % 2 ^ 30) + 2 ^ 54 * (index % 2 ^ 10)

end Sys2Proof.Machine
end

