-- ==== Sys2Proof/Machine/WhiskOps.lean ====
section
/-! DEFINITION. The Whisk's frames and the meaning of each of its instructions on a frame (R161 to R189), the
instruction word (R167, R169) and the load checks of a program (R170, R183). -/

namespace Sys2Proof.Machine

open Sys2Proof

/-- The sticky Whisk status word (R195), with whether a residue, a comparison or a parity bit did not match (R192, R193). -/
structure WStat where
  clip : Bool := false
  empty : Bool := false
  tabEdge : Bool := false
  check : Bool := false
deriving DecidableEq, Repr

/-- Both statuses ORed together. -/
def WStat.or (a b : WStat) : WStat := ⟨a.clip || b.clip, a.empty || b.empty, a.tabEdge || b.tabEdge, a.check || b.check⟩

/-- The status word's bits (R195). -/
def WStat.toWord (a : WStat) : Nat :=
  (if a.clip then 1 else 0) + (if a.empty then 2 else 0) + (if a.tabEdge then 4 else 0)

/-- One lane's registers V0 to V15, masks M0 to M3 and exponent XE in a frame (R161, R163), with the residue modulo 3 of each
register and mask entry (R192). -/
structure Lane where
  v : List Word
  m0 : Bool
  m1 : Bool
  m2 : Bool
  m3 : Bool
  xe : Int
  res : List Nat
  mres : List Nat
deriving DecidableEq, Repr

/-- The residue of a register's 32-bit content (R192). -/
def res3 (x : Word) : Nat := x.toNat % 3

/-- The residue of a mask entry. -/
def maskRes (b : Bool) : Nat := if b then 1 else 0

/-- A lane loaded with registers, M0, M1 and XE, each entry with its residue (R163, R192). -/
def Lane.load (v : List Word) (m0 m1 : Bool) (xe : Int) : Lane :=
  ⟨v, m0, m1, false, false, xe, v.map res3, [maskRes m0, maskRes m1, 0, 0]⟩

/-- A lane that holds no output element. -/
def Lane.idle : Lane := Lane.load (List.replicate 16 0) false false 0

/-- The operations of a reduction (R185). -/
inductive RedOp where
  | sumI
  | sumL
  | maxI
  | maxL
  | minI
  | minL
  | argmaxI
  | argmaxL
  | count
  | meanL
deriving DecidableEq, Repr

/-- One of the four reduction slots: what has been folded so far, the index of an extreme, and the lanes that took
part (R185). -/
structure Slot where
  op : RedOp := .sumI
  rowScope : Bool := false
  used : Bool := false
  value : Int := 0
  index : Nat := 0
  count : Nat := 0
  clip : Bool := false
deriving DecidableEq, Repr

/-- A frame: one block's registers and masks for all 240 lanes (R161), the generator key and position of its row
(R181), the block of output columns it holds, its place among the tile's blocks of the row, and the reduction slots. The
block index and column of IDX and of a ROW reduction count within the tile's row (R169, R185, R186, R341); the element of
a draw is the output column (R181). -/
structure Frame where
  lanes : List Lane
  key : Nat
  position : Nat
  block : Nat
  row : Nat
  part : Nat
  parts : Nat
  phase : Nat
  slots : List Slot
deriving DecidableEq, Repr

/-- An empty frame: no lane holds an output element. -/
def Frame.idle : Frame := ⟨List.replicate 240 Lane.idle, 0, 0, 0, 0, 0, 1, 1, List.replicate 4 {}⟩

/-- The configuration of a table in the program header (R166). -/
structure TabCfg where
  base : Int := 0
  shift : Nat := 0
  interp : Bool := false
deriving DecidableEq, Repr

/-- What a running program reads besides the frame: the constant pool K0 to K15 and the tables (R166, R179), whose entries
carry a parity bit (R192). -/
structure WhiskEnv where
  k : List Word := List.replicate 16 0
  tables : List (List Nat) := []
  cfg : List TabCfg := []
  parity : List (List Bool) := []
deriving DecidableEq, Repr

/-- A loaded table set: the request and step it was loaded for (R180). -/
structure TableSet where
  request : Nat
  step : Nat
  env : WhiskEnv
deriving DecidableEq, Repr

/-- A Whisk: its 16 frames, the constants and tables of the program that runs, its two table sets, the older first (R180), and
the sticky status of the execution in progress (R195). -/
structure Whisk where
  frames : SMap Frame := []
  env : WhiskEnv := {}
  sets : List TableSet := []
  status : WStat := {}
deriving DecidableEq, Repr

/-- The parity bit of a table entry (R192). -/
def parityBit (x : Nat) : Bool := (List.range 16).foldl (fun b i => xor b (x / 2 ^ i % 2 == 1)) false

/-! ### Lanes -/

/-- Register r of a lane. -/
def Lane.reg (l : Lane) (r : Nat) : Word := nth 0 l.v r

/-- Register r as a signed integer. -/
def Lane.int (l : Lane) (r : Nat) : Int := (l.reg r).toInt

/-- Register r as an L16 code, bits [15:0]. -/
def Lane.l16 (l : Lane) (r : Nat) : Nat := (l.reg r).toNat % 65536

/-- Mask m of a lane. -/
def Lane.mask (l : Lane) (m : Nat) : Bool := match m with
  | 0 => l.m0
  | 1 => l.m1
  | 2 => l.m2
  | _ => l.m3

/-- Write register d and its residue. -/
def Lane.setReg (l : Lane) (d : Nat) (x : Word) : Lane := { l with v := l.v.set d x, res := l.res.set d (res3 x) }

/-- Write mask m and its residue; M0 is read-only (R165). -/
def Lane.setMask (l : Lane) (m : Nat) (b : Bool) : Lane :=
  let r := l.mres.set m (maskRes b)
  match m with
  | 0 => l
  | 1 => { l with m1 := b, mres := r }
  | 2 => { l with m2 := b, mres := r }
  | _ => { l with m3 := b, mres := r }

/-- Whether a register's entry has its residue (R192). -/
def Lane.regOk (l : Lane) (r : Nat) : Bool := nth 0 l.res r == res3 (l.reg r)

/-- Whether a mask's entry has its residue (R192). -/
def Lane.maskOk (l : Lane) (m : Nat) : Bool := nth 0 l.mres m == maskRes (l.mask m)

/-- Whether an instruction writes the lane: M0 and its predicate (R168). -/
def wLive (w : WhiskAt) (l : Lane) : Bool :=
  l.m0 && (w.predSel.val == 0 || xor (l.mask w.predSel.val) w.predInv)

/-- Apply a lane function to the live lanes of a frame (R168). -/
def wLanes (w : WhiskAt) (f : Nat → Lane → Lane × WStat) (fr : Frame) : Frame × WStat :=
  let r := fr.lanes.mapIdx (fun i l => if wLive w l then f i l else (l, {}))
  ({ fr with lanes := r.map (·.1) }, r.foldl (fun s x => s.or x.2) {})

/-- An instruction that writes a register with an exact 32-bit value. -/
def wReg (w : WhiskAt) (d : Fin 16) (f : Nat → Lane → Word) (fr : Frame) : Frame × WStat :=
  wLanes w (fun i l => (l.setReg d.val (f i l), {})) fr

/-- An instruction that writes a mask. -/
def wMask (w : WhiskAt) (m : Fin 4) (f : Lane → Bool) (fr : Frame) : Frame × WStat :=
  wLanes w (fun _ l => (l.setMask m.val (f l), {})) fr

/-- An integer instruction: the exact result clamped to 32 bits, with CLIP when that changes it (R171). -/
def wInt (w : WhiskAt) (d : Fin 16) (f : Lane → Int) (fr : Frame) : Frame × WStat :=
  wLanes w (fun _ l =>
    let x := f l
    let y := clampBits 32 x
    (l.setReg d.val (BitVec.ofInt 32 y), { clip := x != y })) fr

/-- An L16 instruction: the result code in bits [15:0], bits [31:16] zero (R169). -/
def wL16 (w : WhiskAt) (d : Fin 16) (f : Lane → Nat × Bool) (fr : Frame) : Frame × WStat :=
  wLanes w (fun _ l => (l.setReg d.val (BitVec.ofNat 32 (f l).1), { clip := (f l).2 })) fr

/-! ### Instructions on one frame (R169) -/

/-- The shift amount of a lane (R169). -/
def shiftAmt (n : ShiftBy) (l : Lane) : Nat := match n with
  | .reg b => (l.reg b.val).toNat % 64
  | .imm k => k.val

/-- SHL: the exact shift, or for 32 to 63 zero for a = 0 and else the clamp of the sign of a with CLIP (R171). -/
def shlExact (a : Int) (n : Nat) : Int := a * 2 ^ n

/-- SHR towards −∞; 0 or −1 by the sign for 32 to 63 (R171). -/
def shrVal (a : Int) (n : Nat) : Int := if n ≥ 32 then (if a < 0 then -1 else 0) else shrFloor a n

/-- SHRU: logical right; 0 for 32 to 63 (R171). -/
def shruVal (a : Word) (n : Nat) : Word := if n ≥ 32 then 0 else a >>> n

/-- What IDX loads into lane i of a frame (R169). -/
def idxVal (src : IdxSource) (fr : Frame) (i : Nat) (l : Lane) : Word := match src with
  | .lane => BitVec.ofNat 32 i
  | .column => BitVec.ofNat 32 (240 * fr.part + i)
  | .rowPosition => BitVec.ofNat 32 fr.position
  | .blockIndex => BitVec.ofNat 32 fr.part
  | .xe => BitVec.ofInt 32 l.xe

/-- LTOI's rounding code (R176). -/
def roundCode : Rounding → Nat
  | .trunc => 0
  | .nearest => 1
  | .dither => 2

/-- TAB through a table (R179): the result code and whether the index was held at an edge. -/
def tabVal (c : TabCfg) (t : List Nat) (a : Nat) : Nat × Bool :=
  let u := l16Key a - c.base
  if u < 0 then (nth 0 t 0, true)
  else
    let i := (shrFloor u c.shift).toNat
    if i ≥ 1023 then (nth 0 t 1023, true)
    else
      let r := (u % (2 : Int) ^ c.shift)
      let e0 := nth 0 t i
      let e1 := nth 0 t (i + 1)
      if !c.interp || l16IsInf e0 || l16IsInf e1 then (e0, false)
      else (l16OfKey (shrFloor (l16Key e0 * ((2 : Int) ^ c.shift - r) + l16Key e1 * r
        + (2 : Int) ^ c.shift / 2) c.shift), false)

/-! ### Reductions (R185 to R187) -/

/-- Fold one live lane into a slot, at its index (R185, R186): ties keep the lowest index. -/
def redFold (op : RedOp) (s : Slot) (ix : Nat) (x : Word) : Slot :=
  let i := x.toInt
  let c := x.toNat % 65536
  let s := { s with count := s.count + 1 }
  let first := s.count = 1
  match op with
  | .sumI => { s with value := s.value + i }
  | .sumL | .meanL =>
    let r := l16Add s.value.toNat c
    { s with value := r.1, clip := s.clip || r.2 }
  | .maxI => if first ∨ i > s.value then { s with value := i } else s
  | .minI => if first ∨ i < s.value then { s with value := i } else s
  | .maxL => if first ∨ l16Key c > l16Key s.value.toNat then { s with value := c } else s
  | .minL => if first ∨ l16Key c < l16Key s.value.toNat then { s with value := c } else s
  | .argmaxI => if first ∨ i > s.value then { s with value := i, index := ix } else s
  | .argmaxL => if first ∨ l16Key c > l16Key s.value.toNat then { s with value := c, index := ix } else s
  | .count => s

/-- A slot before its first lane. -/
def redStart (op : RedOp) (rowScope : Bool) : Slot :=
  { op := op, rowScope := rowScope, used := true }

/-- The result a slot holds: its fold, or the identity with a count of 0 (R185, R187). -/
def slotResult (s : Slot) : Int :=
  if s.count = 0 then match s.op with
    | .sumI | .sumL | .count | .meanL => 0
    | .maxI => -2147483648
    | .minI => 2147483647
    | .maxL => 0xFFFF
    | .minL => 0x7FFF
    | .argmaxI | .argmaxL => 0xFFFF
  else match s.op with
    | .argmaxI | .argmaxL => s.index
    | .count => s.count
    | .meanL => (l16Div s.value.toNat (itolAt s.count 0).1).1
    | _ => s.value

/-- Whether a clip occurred in a slot's reduction, its final division included (R185, R186). -/
def slotClip (s : Slot) : Bool :=
  s.clip || (s.op == .meanL && s.count != 0 && (l16Div s.value.toNat (itolAt s.count 0).1).2)

/-- The index a lane has in its scope: the lane for BLOCK, the column for ROW (R186). -/
def redIndex (scope : Scope) (fr : Frame) (lane : Nat) : Nat := match scope with
  | .block => lane
  | .row => 240 * fr.part + lane

/-- Fold the live lanes of a frame into a slot, in lane order. -/
def redFrame (w : WhiskAt) (op : RedOp) (a : Fin 16) (scope : Scope) (fr : Frame) (s : Slot) : Slot :=
  (fr.lanes.mapIdx (fun i l => (i, l))).foldl (fun s x =>
    if wLive w x.2 then redFold op s (redIndex scope fr x.1) (x.2.reg a.val) else s) s

/-- Status a reduction leaves: EMPTY when it is complete with no lane, CLIP when its fold clipped (R186, R187). -/
def redStat (s : Slot) (complete : Bool) : WStat :=
  { clip := slotClip s, empty := complete && s.count == 0 }

/-- RED on a frame (R185): BLOCK scope starts its slot afresh; ROW scope goes on from what the row's earlier blocks
folded, and is complete at the tile's last block of the row. -/
def opRed (w : WhiskAt) (op : RedOp) (slot : Fin 4) (a : Fin 16) (scope : Scope) (fr : Frame) : Frame × WStat :=
  let old := nth {} fr.slots slot.val
  let s0 := match scope with
    | .block => redStart op false
    | .row => if fr.part = 0 ∨ ¬ old.used then redStart op true else old
  let s1 := redFrame w op a scope fr s0
  let complete := match scope with
    | .block => true
    | .row => fr.part + 1 = fr.parts
  ({ fr with slots := fr.slots.set slot.val s1 }, redStat s1 complete)

/-- BCAST of a slot's value or count (R169): a SUM_I beyond 32 bits is clamped with CLIP (R186). -/
def bcastVal (s : Slot) (counts : Bool) : Word × Bool :=
  if counts then (BitVec.ofNat 32 s.count, false)
  else
    let v := slotResult s
    let c := clampBits 32 v
    (BitVec.ofInt 32 c, c != v)

/-! ### SOFTMAX (R189) -/

/-- The live inputs of a frame, as L16 codes, `none` where a lane is not live. -/
def softIns (w : WhiskAt) (a : Fin 16) (fr : Frame) : List (Option Nat) :=
  fr.lanes.map (fun l => if wLive w l then some (l.l16 a.val) else none)

/-- The outputs of SOFTMAX over the inputs of a whole scope, in increasing element index, with EMPTY and CLIP. -/
def softmaxOut (xs : List (Option Nat)) : List Nat × WStat :=
  let live := xs.filterMap id
  let n := (live.filter (· != l16NegInf)).length
  let kinf := (live.filter (· == l16PosInf)).length
  if n = 0 then (xs.map (fun _ => 0), { empty := true })
  else if kinf > 0 then
    let q := l16Div l16One (itolAt kinf 0).1
    (xs.map (fun x => if x = some l16PosInf then q.1 else 0), {})
  else
    let mx := live.foldl l16Max l16NegInf
    let es := xs.map (fun x => match x with
      | none => ((0 : Nat), false)
      | some c => let d := l16Sub c mx; let e := l16Exp d.1; (e.1, d.2 || e.2))
    let s := es.foldl (fun (s : Nat × Bool) e => let r := l16Add s.1 e.1; (r.1, s.2 || r.2)) (0, false)
    let out := (xs.zip es).map (fun p => match p.1 with
      | none => ((0 : Nat), false)
      | some _ => l16Div p.2.1 s.1)
    (out.map (·.1), { clip := s.2 || es.any (·.2) || out.any (·.2) })

/-- Write SOFTMAX's outputs: every lane with M0 set, those whose predicate fails taking 0x0000 (R168, R189). -/
def softWrite (d : Fin 16) (outs : List Nat) (fr : Frame) : Frame :=
  { fr with lanes := (fr.lanes.zip outs).map (fun p =>
      if p.1.m0 then p.1.setReg d.val (BitVec.ofNat 32 p.2) else p.1) }

/-- SOFTMAX over the frames of its scope, in block order. -/
def softmaxFrames (w : WhiskAt) (d a : Fin 16) (frs : List Frame) : List Frame × WStat :=
  let r := softmaxOut (frs.flatMap (softIns w a))
  (frs.mapIdx (fun i fr => softWrite d ((r.1.drop (240 * i)).take 240) fr), r.2)

/-! ### One instruction, on the frames of a row -/

/-- The instructions that work lane by lane on one frame (R169); `none` for RED, SPLIT and SOFTMAX and for what is
no Whisk instruction. -/
def whiskLane (env : WhiskEnv) : Instr → Option (Frame → Frame × WStat)
  | .nop _ => some (fun fr => (fr, {}))
  | .mov w d a => some (wReg w d (fun _ l => l.reg a.val))
  | .con w d k => some (wReg w d (fun _ _ => nth 0 env.k k.val))
  | .idx w d src => some (fun fr => wReg w d (idxVal src fr) fr)
  | .sel w d a b m => some (wReg w d (fun _ l => if l.mask m.val then l.reg a.val else l.reg b.val))
  | .iadd w d a b => some (wInt w d (fun l => l.int a.val + l.int b.val))
  | .isub w d a b => some (wInt w d (fun l => l.int a.val - l.int b.val))
  | .ineg w d a => some (wInt w d (fun l => -l.int a.val))
  | .iabs w d a => some (wInt w d (fun l => (l.int a.val).natAbs))
  | .imin w d a b => some (wInt w d (fun l => min (l.int a.val) (l.int b.val)))
  | .imax w d a b => some (wInt w d (fun l => max (l.int a.val) (l.int b.val)))
  | .shl w d a n => some (wInt w d (fun l => shlExact (l.int a.val) (shiftAmt n l)))
  | .shr w d a n => some (wInt w d (fun l => shrVal (l.int a.val) (shiftAmt n l)))
  | .shru w d a n => some (wReg w d (fun _ l => shruVal (l.reg a.val) (shiftAmt n l)))
  | .and w d a b => some (wReg w d (fun _ l => l.reg a.val &&& l.reg b.val))
  | .or w d a b => some (wReg w d (fun _ l => l.reg a.val ||| l.reg b.val))
  | .xor w d a b => some (wReg w d (fun _ l => l.reg a.val ^^^ l.reg b.val))
  | .iclt w m a b => some (wMask w m (fun l => l.int a.val < l.int b.val))
  | .iceq w m a b => some (wMask w m (fun l => l.reg a.val == l.reg b.val))
  | .inz w m a => some (wMask w m (fun l => l.reg a.val != 0))
  | .ladd w d a b => some (wL16 w d (fun l => l16Add (l.l16 a.val) (l.l16 b.val)))
  | .lsub w d a b => some (wL16 w d (fun l => l16Sub (l.l16 a.val) (l.l16 b.val)))
  | .lmul w d a b => some (wL16 w d (fun l => l16Mul (l.l16 a.val) (l.l16 b.val)))
  | .ldiv w d a b => some (wL16 w d (fun l => l16Div (l.l16 a.val) (l.l16 b.val)))
  | .lneg w d a => some (wL16 w d (fun l => (l16NegOp (l.l16 a.val), false)))
  | .labs w d a => some (wL16 w d (fun l => (l16AbsOp (l.l16 a.val), false)))
  | .lmax w d a b => some (wL16 w d (fun l => (l16Max (l.l16 a.val) (l.l16 b.val), false)))
  | .lmin w d a b => some (wL16 w d (fun l => (l16Min (l.l16 a.val) (l.l16 b.val), false)))
  | .lscl w d a imm => some (wL16 w d (fun l => l16Scl (l.l16 a.val) imm.toInt))
  | .lexp w d a => some (wL16 w d (fun l => l16Exp (l.l16 a.val)))
  | .lclt w m a b => some (wMask w m (fun l => l16Key (l.l16 a.val) < l16Key (l.l16 b.val)))
  | .lceq w m a b => some (wMask w m (fun l => l16Key (l.l16 a.val) == l16Key (l.l16 b.val)))
  | .lcinf w m a neg => some (wMask w m (fun l => l.l16 a.val == if neg then l16NegInf else l16PosInf))
  | .itol w d a imm => some (wL16 w d (fun l => itolAt (l.int a.val) (l.xe + imm.toInt)))
  | .ltoi w d a b e mode => some (wLanes w (fun _ l =>
      let r := ltoiAt (l.l16 a.val) e.toInt (roundCode mode) (l.reg b.val).toNat
      (l.setReg d.val (BitVec.ofInt 32 r.1), { clip := r.2 })))
  | .tab w d a t => some (wLanes w (fun _ l =>
      let r := tabVal (nth {} env.cfg t.val) (nth [] env.tables t.val) (l.l16 a.val)
      (l.setReg d.val (BitVec.ofNat 32 r.1), { tabEdge := r.2 })))
  | .draw w d ix => some (fun fr => wReg w d (fun i _ =>
      BitVec.ofNat 32 (dither32 fr.key (ditherCtr fr.position (240 * fr.block + i) ix.toNat))) fr)
  | .mand w m a b => some (wMask w m (fun l => l.mask a.val && l.mask b.val))
  | .mor w m a b => some (wMask w m (fun l => l.mask a.val || l.mask b.val))
  | .mxor w m a b => some (wMask w m (fun l => xor (l.mask a.val) (l.mask b.val)))
  | .mnot w m a => some (wMask w m (fun l => !l.mask a.val))
  | .bcast w d slot counts => some (fun fr =>
      let r := bcastVal (nth {} fr.slots slot.val) counts
      wLanes w (fun _ l => (l.setReg d.val r.1, { clip := r.2 })) fr)
  | _ => none

/-- A reduction instruction as its operation, slot, source and scope (R185). -/
def whiskRed : Instr → Option (WhiskAt × RedOp × Fin 4 × Fin 16 × Scope)
  | .sumI w s a c => some (w, .sumI, s, a, c)
  | .sumL w s a c => some (w, .sumL, s, a, c)
  | .maxI w s a c => some (w, .maxI, s, a, c)
  | .maxL w s a c => some (w, .maxL, s, a, c)
  | .minI w s a c => some (w, .minI, s, a, c)
  | .minL w s a c => some (w, .minL, s, a, c)
  | .argmaxI w s a c => some (w, .argmaxI, s, a, c)
  | .argmaxL w s a c => some (w, .argmaxL, s, a, c)
  | .count w s a c => some (w, .count, s, a, c)
  | .meanL w s a c => some (w, .meanL, s, a, c)
  | _ => none

/-- A ROW-scope slot is the row's: give every frame of the row what the last folded. -/
def shareSlot (slot : Fin 4) (x : Slot) (frs : List Frame) : List Frame :=
  frs.map (fun fr => { fr with slots := fr.slots.set slot.val x })

/-- RED on every frame of a row, in block order: a ROW-scope slot passes from block to block, and ends the same in
all of them. -/
def redRow (w : WhiskAt) (op : RedOp) (slot : Fin 4) (a : Fin 16) (scope : Scope) (frs : List Frame) :
    List Frame × WStat :=
  match scope with
  | .block =>
    let r := frs.map (opRed w op slot a .block)
    (r.map (·.1), r.foldl (fun s x => s.or x.2) {})
  | .row =>
    let s := frs.foldl (fun s fr => redFrame w op a .row fr s) (redStart op true)
    (shareSlot slot s frs, redStat s true)

/-! ### Checks (R192, R193) -/

/-- What an instruction reads of a lane: its registers and its masks besides M0 and the predicate (R169). -/
def whiskReads : Instr → List Nat × List Nat
  | .mov _ _ a => ([a.val], [])
  | .sel _ _ a b m => ([a.val, b.val], [m.val])
  | .iadd _ _ a b => ([a.val, b.val], [])
  | .isub _ _ a b => ([a.val, b.val], [])
  | .ineg _ _ a => ([a.val], [])
  | .iabs _ _ a => ([a.val], [])
  | .imin _ _ a b => ([a.val, b.val], [])
  | .imax _ _ a b => ([a.val, b.val], [])
  | .shl _ _ a n => (a.val :: shiftReads n, [])
  | .shr _ _ a n => (a.val :: shiftReads n, [])
  | .shru _ _ a n => (a.val :: shiftReads n, [])
  | .and _ _ a b => ([a.val, b.val], [])
  | .or _ _ a b => ([a.val, b.val], [])
  | .xor _ _ a b => ([a.val, b.val], [])
  | .iclt _ _ a b => ([a.val, b.val], [])
  | .iceq _ _ a b => ([a.val, b.val], [])
  | .inz _ _ a => ([a.val], [])
  | .ladd _ _ a b => ([a.val, b.val], [])
  | .lsub _ _ a b => ([a.val, b.val], [])
  | .lmul _ _ a b => ([a.val, b.val], [])
  | .ldiv _ _ a b => ([a.val, b.val], [])
  | .lneg _ _ a => ([a.val], [])
  | .labs _ _ a => ([a.val], [])
  | .lmax _ _ a b => ([a.val, b.val], [])
  | .lmin _ _ a b => ([a.val, b.val], [])
  | .lscl _ _ a _ => ([a.val], [])
  | .lexp _ _ a => ([a.val], [])
  | .lclt _ _ a b => ([a.val, b.val], [])
  | .lceq _ _ a b => ([a.val, b.val], [])
  | .lcinf _ _ a _ => ([a.val], [])
  | .itol _ _ a _ => ([a.val], [])
  | .ltoi _ _ a b _ _ => ([a.val, b.val], [])
  | .tab _ _ a _ => ([a.val], [])
  | .mand _ _ a b => ([], [a.val, b.val])
  | .mor _ _ a b => ([], [a.val, b.val])
  | .mxor _ _ a b => ([], [a.val, b.val])
  | .mnot _ _ a => ([], [a.val])
  | .softmax _ _ a _ => ([a.val], [])
  | i => match whiskRed i with
    | some (_, _, _, a, _) => ([a.val], [])
    | none => ([], [])
where
  /-- The register that a shift reads its amount from. -/
  shiftReads : ShiftBy → List Nat
    | .reg b => [b.val]
    | .imm _ => []

/-- The residue of a register's signed value, from its entry's residue: 2^32 is 1 modulo 3. -/
def Lane.signedRes (l : Lane) (r : Nat) : Nat := (nth 0 l.res r + (if l.int r < 0 then 2 else 0)) % 3

/-- The residue predicted for the exact result of an operation that R192 lists, and that exact result before any clamp. A right
shift is predicted from its quotient and the bits shifted out, since 2^n is its own inverse modulo 3. -/
def whiskPredict : Instr → Lane → Option (Nat × Int)
  | .mov _ _ a, l => some (l.signedRes a.val, l.int a.val)
  | .sel _ _ a b m, l => let r := if l.mask m.val then a.val else b.val; some (l.signedRes r, l.int r)
  | .iadd _ _ a b, l => some (l.signedRes a.val + l.signedRes b.val, l.int a.val + l.int b.val)
  | .isub _ _ a b, l => some (l.signedRes a.val + 2 * l.signedRes b.val, l.int a.val - l.int b.val)
  | .ineg _ _ a, l => some (2 * l.signedRes a.val, -l.int a.val)
  | .iabs _ _ a, l => some (if l.int a.val < 0 then 2 * l.signedRes a.val else l.signedRes a.val, (l.int a.val).natAbs)
  | .imin _ _ a b, l => let r := if l.int a.val ≤ l.int b.val then a.val else b.val; some (l.signedRes r, min (l.int a.val) (l.int b.val))
  | .imax _ _ a b, l => let r := if l.int b.val ≤ l.int a.val then a.val else b.val; some (l.signedRes r, max (l.int a.val) (l.int b.val))
  | .shl _ _ a n, l => some (l.signedRes a.val * 2 ^ shiftAmt n l, shlExact (l.int a.val) (shiftAmt n l))
  | .shr _ _ a n, l =>
    let q := shrVal (l.int a.val) (shiftAmt n l)
    let out := l.int a.val - q * 2 ^ shiftAmt n l
    some ((l.signedRes a.val + 2 * (out % 3).toNat) * 2 ^ shiftAmt n l, q)
  | .shru _ _ a n, l =>
    let q := (shruVal (l.reg a.val) (shiftAmt n l)).toNat
    let out := (l.reg a.val).toNat - q * 2 ^ shiftAmt n l
    some ((nth 0 l.res a.val + 2 * (out % 3)) * 2 ^ shiftAmt n l, q)
  | _, _ => none

/-- What every Whisk instruction carries besides its operation: its predicate. -/
def whiskAtOf : Instr → WhiskAt
  | .nop w | .mov w _ _ | .con w _ _ | .idx w _ _ | .sel w _ _ _ _ | .iadd w _ _ _ | .isub w _ _ _ | .ineg w _ _
  | .iabs w _ _ | .imin w _ _ _ | .imax w _ _ _ | .shl w _ _ _ | .shr w _ _ _ | .shru w _ _ _ | .and w _ _ _
  | .or w _ _ _ | .xor w _ _ _ | .iclt w _ _ _ | .iceq w _ _ _ | .inz w _ _ | .ladd w _ _ _ | .lsub w _ _ _
  | .lmul w _ _ _ | .ldiv w _ _ _ | .lneg w _ _ | .labs w _ _ | .lmax w _ _ _ | .lmin w _ _ _ | .lscl w _ _ _
  | .lexp w _ _ | .lclt w _ _ _ | .lceq w _ _ _ | .lcinf w _ _ _ | .itol w _ _ _ | .ltoi w _ _ _ _ _ | .tab w _ _ _
  | .draw w _ _ | .mand w _ _ _ | .mor w _ _ _ | .mxor w _ _ _ | .mnot w _ _ | .bcast w _ _ _ | .split w
  | .softmax w _ _ _ => w
  | i => match whiskRed i with
    | some (w, _) => w
    | none => ⟨0, 0, 0, false⟩

/-- Whether a table entry that TAB reads on a lane has its parity (R192). -/
def tabParityOk (env : WhiskEnv) (t : Nat) (a : Nat) : Bool :=
  let c := nth {} env.cfg t
  let i := min 1023 (shrFloor (l16Key a - c.base) c.shift).toNat
  let ok := fun (i : Nat) => nth false (nth [] env.parity t) i == parityBit (nth 0 (nth [] env.tables t) i)
  ok i && ok (min 1023 (i + 1))

/-- Whether a lane fails the checks of an instruction (R192): the residue of an entry it reads, or the prediction of its exact
result. The units that run duplicated compare one function with itself, which only an error from outside can tell apart
(log 77). -/
def laneBad (env : WhiskEnv) (i : Instr) (l : Lane) : Bool :=
  let w := whiskAtOf i
  let r := whiskReads i
  !(l.maskOk 0) || (l.m0 && w.predSel.val != 0 && !(l.maskOk w.predSel.val))
    || (wLive w l && (r.1.any (fun x => !(l.regOk x)) || r.2.any (fun x => !(l.maskOk x))
      || (match whiskPredict i l with
          | some p => p.1 % 3 != (p.2 % 3).toNat
          | none => false)
      || (match i with
          | .tab _ _ a t => !(tabParityOk env t.val (l.l16 a.val))
          | _ => false)))

/-- The outcome of the checks of an instruction on frames. -/
def whiskCheck (env : WhiskEnv) (i : Instr) (frs : List Frame) : WStat :=
  { check := frs.any (fun f => f.lanes.any (laneBad env i)) }

/-- One instruction of a program on all the frames of a row. -/
def whiskRow (env : WhiskEnv) (i : Instr) (frs : List Frame) : List Frame × WStat :=
  match i with
  | .split _ => (frs.map (fun fr => { fr with phase := fr.phase + 1 }), {})
  | .softmax w d a .row => softmaxFrames w d a frs
  | .softmax w d a .block =>
    let r := frs.map (fun fr => softmaxFrames w d a [fr])
    (r.flatMap (·.1), r.foldl (fun s x => s.or x.2) {})
  | _ => match whiskRed i with
    | some (w, op, slot, a, scope) => redRow w op slot a scope frs
    | none => match whiskLane env i with
      | some f =>
        let r := frs.map f
        (r.map (·.1), r.foldl (fun s x => s.or x.2) {})
      | none => (frs, {})

/-- A whole program on the frames of a row, in program order (R168). -/
def whiskRun (env : WhiskEnv) (prog : List Instr) (frs : List Frame) : List Frame × WStat :=
  prog.foldl (fun acc i =>
    let r := whiskRow env i acc.1
    (r.1, (acc.2.or r.2).or (whiskCheck env i acc.1))) (frs, {})

/-! ### The instruction word (R167, R169) -/

/-- The fields of an instruction word (R167). -/
def wordOf (op d a b : Nat) (w : WhiskAt) (imm : Nat) : Nat :=
  op + 2 ^ 7 * d + 2 ^ 11 * a + 2 ^ 15 * b + 2 ^ 19 * w.predSel.val + 2 ^ 21 * (if w.predInv then 1 else 0)
    + 2 ^ 22 * imm

/-- IDX's immediate (R169). -/
def idxCode : IdxSource → Nat
  | .lane => 0
  | .column => 1
  | .rowPosition => 2
  | .blockIndex => 3
  | .xe => 4

/-- The operation code of a reduction (R185). -/
def redCode : RedOp → Nat
  | .sumI => 0
  | .sumL => 1
  | .maxI => 2
  | .maxL => 3
  | .minI => 4
  | .minL => 5
  | .argmaxI => 6
  | .argmaxL => 7
  | .count => 8
  | .meanL => 9

/-- A scope's bit (R185). -/
def scopeBit : Scope → Nat
  | .block => 0
  | .row => 1

/-- A shift's word: b in SrcB, or Imm[9] with the amount in Imm[5:0] (R169). -/
def shiftWord (op : Nat) (w : WhiskAt) (d a : Fin 16) : ShiftBy → Nat
  | .reg b => wordOf op d.val a.val b.val w 0
  | .imm n => wordOf op d.val a.val 0 w (512 + n.val)

/-- The words an instruction takes in a program (R167, R169); SOFTMAX takes eight. -/
def whiskEncode : Instr → List Nat
  | .nop w => [wordOf 0x00 0 0 0 w 0]
  | .mov w d a => [wordOf 0x01 d.val a.val 0 w 0]
  | .con w d k => [wordOf 0x02 d.val 0 0 w k.val]
  | .idx w d src => [wordOf 0x03 d.val 0 0 w (idxCode src)]
  | .sel w d a b m => [wordOf 0x04 d.val a.val b.val w m.val]
  | .iadd w d a b => [wordOf 0x10 d.val a.val b.val w 0]
  | .isub w d a b => [wordOf 0x11 d.val a.val b.val w 0]
  | .ineg w d a => [wordOf 0x12 d.val a.val 0 w 0]
  | .iabs w d a => [wordOf 0x13 d.val a.val 0 w 0]
  | .imin w d a b => [wordOf 0x14 d.val a.val b.val w 0]
  | .imax w d a b => [wordOf 0x15 d.val a.val b.val w 0]
  | .shl w d a n => [shiftWord 0x16 w d a n]
  | .shr w d a n => [shiftWord 0x17 w d a n]
  | .shru w d a n => [shiftWord 0x18 w d a n]
  | .and w d a b => [wordOf 0x19 d.val a.val b.val w 0]
  | .or w d a b => [wordOf 0x1A d.val a.val b.val w 0]
  | .xor w d a b => [wordOf 0x1B d.val a.val b.val w 0]
  | .iclt w m a b => [wordOf 0x1C m.val a.val b.val w 0]
  | .iceq w m a b => [wordOf 0x1D m.val a.val b.val w 0]
  | .inz w m a => [wordOf 0x1E m.val a.val 0 w 0]
  | .ladd w d a b => [wordOf 0x20 d.val a.val b.val w 0]
  | .lsub w d a b => [wordOf 0x21 d.val a.val b.val w 0]
  | .lmul w d a b => [wordOf 0x22 d.val a.val b.val w 0]
  | .ldiv w d a b => [wordOf 0x23 d.val a.val b.val w 0]
  | .lneg w d a => [wordOf 0x24 d.val a.val 0 w 0]
  | .labs w d a => [wordOf 0x25 d.val a.val 0 w 0]
  | .lmax w d a b => [wordOf 0x26 d.val a.val b.val w 0]
  | .lmin w d a b => [wordOf 0x27 d.val a.val b.val w 0]
  | .lscl w d a imm => [wordOf 0x28 d.val a.val 0 w imm.toNat]
  | .lexp w d a => [wordOf 0x29 d.val a.val 0 w 0]
  | .lclt w m a b => [wordOf 0x2A m.val a.val b.val w 0]
  | .lceq w m a b => [wordOf 0x2B m.val a.val b.val w 0]
  | .lcinf w m a neg => [wordOf 0x2C m.val a.val 0 w (if neg then 1 else 0)]
  | .itol w d a imm => [wordOf 0x30 d.val a.val 0 w imm.toNat]
  | .ltoi w d a b e mode => [wordOf 0x31 d.val a.val b.val w (e.toNat + 256 * roundCode mode)]
  | .tab w d a t => [wordOf 0x38 d.val a.val 0 w t.val]
  | .draw w d ix => [wordOf 0x3C d.val 0 0 w ix.toNat]
  | .mand w m a b => [wordOf 0x40 m.val a.val b.val w 0]
  | .mor w m a b => [wordOf 0x41 m.val a.val b.val w 0]
  | .mxor w m a b => [wordOf 0x42 m.val a.val b.val w 0]
  | .mnot w m a => [wordOf 0x43 m.val a.val 0 w 0]
  | .bcast w d slot counts => [wordOf 0x51 d.val 0 0 w (slot.val + if counts then 4 else 0)]
  | .split w => [wordOf 0x58 0 0 0 w 0]
  | .softmax w d a c => wordOf 0x5C d.val a.val 0 w (64 * scopeBit c) :: List.replicate 7 0
  | i => match whiskRed i with
    | some (w, op, slot, a, c) => [wordOf 0x50 0 a.val 0 w (slot.val + 4 * redCode op + 64 * scopeBit c)]
    | none => []

/-- A register field. -/
def reg16 (n : Nat) : Fin 16 := Fin.ofNat 16 n

/-- A mask or slot field. -/
def fin4 (n : Nat) : Fin 4 := Fin.ofNat 4 n

/-- A shift's operands from its word's fields; an unread field must be zero (R167). -/
def shiftOf (b imm : Nat) : Option ShiftBy :=
  if imm = 0 then some (.reg (reg16 b))
  else if b = 0 ∧ 512 ≤ imm ∧ imm < 576 then some (.imm (Fin.ofNat 64 (imm - 512)))
  else none

/-- IDX's source from its immediate. -/
def idxOf (imm : Nat) : Option IdxSource := match imm with
  | 0 => some .lane
  | 1 => some .column
  | 2 => some .rowPosition
  | 3 => some .blockIndex
  | 4 => some .xe
  | _ => none

/-- LTOI's rounding from its code. -/
def roundOf (n : Nat) : Option Rounding := match n with
  | 0 => some .trunc
  | 1 => some .nearest
  | 2 => some .dither
  | _ => none

/-- A scope from its bit. -/
def scopeOf (n : Nat) : Scope := if n = 0 then .block else .row

/-- A reduction from its operation code (R185). -/
def redOf (w : WhiskAt) (code : Nat) (s : Fin 4) (a : Fin 16) (c : Scope) : Option Instr := match code with
  | 0 => some (.sumI w s a c)
  | 1 => some (.sumL w s a c)
  | 2 => some (.maxI w s a c)
  | 3 => some (.maxL w s a c)
  | 4 => some (.minI w s a c)
  | 5 => some (.minL w s a c)
  | 6 => some (.argmaxI w s a c)
  | 7 => some (.argmaxL w s a c)
  | 8 => some (.count w s a c)
  | 9 => some (.meanL w s a c)
  | _ => none

/-- `some i` where a condition on the word's unread fields holds. -/
def ifOk (c : Bool) (i : Instr) : Option Instr := if c then some i else none

/-- The instruction a word spells at frame `fr` of Whisk `wk` (R167, R169, R170): every field the operation does not
read must be zero, and a mask destination is M1, M2 or M3. -/
def whiskWord (wk fr x : Nat) : Option Instr :=
  let op := x % 128
  let d := x / 2 ^ 7 % 16
  let a := x / 2 ^ 11 % 16
  let b := x / 2 ^ 15 % 16
  let ps := x / 2 ^ 19 % 4
  let pi := x / 2 ^ 21 % 2
  let imm := x / 2 ^ 22 % 1024
  let w : WhiskAt := ⟨wk, fr, fin4 ps, pi == 1⟩
  let rd := reg16 d
  let ra := reg16 a
  let rb := reg16 b
  let md := fin4 d
  let mOk := decide (1 ≤ d ∧ d < 4)
  if x ≥ 2 ^ 32 ∨ (pi = 1 ∧ ps = 0) then none
  else match op with
    | 0x00 => ifOk (d == 0 && a == 0 && b == 0 && imm == 0) (.nop w)
    | 0x01 => ifOk (b == 0 && imm == 0) (.mov w rd ra)
    | 0x02 => ifOk (a == 0 && b == 0 && decide (imm < 16)) (.con w rd (reg16 imm))
    | 0x03 => if a = 0 ∧ b = 0 then (idxOf imm).map (.idx w rd) else none
    | 0x04 => ifOk (decide (imm < 4)) (.sel w rd ra rb (fin4 imm))
    | 0x10 => ifOk (imm == 0) (.iadd w rd ra rb)
    | 0x11 => ifOk (imm == 0) (.isub w rd ra rb)
    | 0x12 => ifOk (b == 0 && imm == 0) (.ineg w rd ra)
    | 0x13 => ifOk (b == 0 && imm == 0) (.iabs w rd ra)
    | 0x14 => ifOk (imm == 0) (.imin w rd ra rb)
    | 0x15 => ifOk (imm == 0) (.imax w rd ra rb)
    | 0x16 => (shiftOf b imm).map (.shl w rd ra)
    | 0x17 => (shiftOf b imm).map (.shr w rd ra)
    | 0x18 => (shiftOf b imm).map (.shru w rd ra)
    | 0x19 => ifOk (imm == 0) (.and w rd ra rb)
    | 0x1A => ifOk (imm == 0) (.or w rd ra rb)
    | 0x1B => ifOk (imm == 0) (.xor w rd ra rb)
    | 0x1C => ifOk (mOk && imm == 0) (.iclt w md ra rb)
    | 0x1D => ifOk (mOk && imm == 0) (.iceq w md ra rb)
    | 0x1E => ifOk (mOk && b == 0 && imm == 0) (.inz w md ra)
    | 0x20 => ifOk (imm == 0) (.ladd w rd ra rb)
    | 0x21 => ifOk (imm == 0) (.lsub w rd ra rb)
    | 0x22 => ifOk (imm == 0) (.lmul w rd ra rb)
    | 0x23 => ifOk (imm == 0) (.ldiv w rd ra rb)
    | 0x24 => ifOk (b == 0 && imm == 0) (.lneg w rd ra)
    | 0x25 => ifOk (b == 0 && imm == 0) (.labs w rd ra)
    | 0x26 => ifOk (imm == 0) (.lmax w rd ra rb)
    | 0x27 => ifOk (imm == 0) (.lmin w rd ra rb)
    | 0x28 => ifOk (b == 0) (.lscl w rd ra (BitVec.ofNat 10 imm))
    | 0x29 => ifOk (b == 0 && imm == 0) (.lexp w rd ra)
    | 0x2A => ifOk (mOk && imm == 0) (.lclt w md ra rb)
    | 0x2B => ifOk (mOk && imm == 0) (.lceq w md ra rb)
    | 0x2C => ifOk (mOk && b == 0 && decide (imm < 2)) (.lcinf w md ra (imm == 1))
    | 0x30 => ifOk (b == 0) (.itol w rd ra (BitVec.ofNat 10 imm))
    | 0x31 => match roundOf (imm / 256) with
      | some m => ifOk (m == .dither || b == 0) (.ltoi w rd ra rb (BitVec.ofNat 8 imm) m)
      | none => none
    | 0x38 => ifOk (b == 0 && decide (imm < 4)) (.tab w rd ra (fin4 imm))
    | 0x3C => ifOk (a == 0 && b == 0) (.draw w rd (BitVec.ofNat 10 imm))
    | 0x40 => ifOk (mOk && decide (a < 4) && decide (b < 4) && imm == 0) (.mand w md (fin4 a) (fin4 b))
    | 0x41 => ifOk (mOk && decide (a < 4) && decide (b < 4) && imm == 0) (.mor w md (fin4 a) (fin4 b))
    | 0x42 => ifOk (mOk && decide (a < 4) && decide (b < 4) && imm == 0) (.mxor w md (fin4 a) (fin4 b))
    | 0x43 => ifOk (mOk && decide (a < 4) && b == 0 && imm == 0) (.mnot w md (fin4 a))
    | 0x50 => if d = 0 ∧ b = 0 ∧ imm < 128 then redOf w (imm / 4 % 16) (fin4 imm) ra (scopeOf (imm / 64)) else none
    | 0x51 => ifOk (a == 0 && b == 0 && decide (imm < 8)) (.bcast w rd (fin4 imm) (imm / 4 == 1))
    | 0x58 => ifOk (d == 0 && a == 0 && b == 0 && imm == 0) (.split w)
    | 0x5C => ifOk (b == 0 && imm % 64 == 0 && decide (imm < 128)) (.softmax w rd ra (scopeOf (imm / 64)))
    | _ => none

/-- The instructions of a program's words: SOFTMAX takes eight, the last seven 0 (R169). -/
def whiskWords (wk fr : Nat) : Nat → List Nat → Option (List Instr)
  | 0, [] => some []
  | 0, _ :: _ => none
  | _ + 1, [] => some []
  | n + 1, x :: xs => match whiskWord wk fr x with
    | none => none
    | some i => match i with
      | .softmax _ _ _ _ =>
        if xs.length ≥ 7 ∧ (xs.take 7).all (· == 0) then (whiskWords wk fr n (xs.drop 7)).map (i :: ·) else none
      | _ => (whiskWords wk fr n xs).map (i :: ·)

/-! ### The program header and the load checks (R166, R170, R183) -/

/-- The program header (R166). -/
structure ProgHeader where
  instrCount : Nat
  outReg : Nat
  outKind : Nat
  outShift : Int
  side0 : Nat
  side1 : Nat
  tableEnable : Nat
  statMask : Nat
  m1Source : Nat
  tabCfg : List TabCfg
deriving DecidableEq, Repr

/-- Read the 64 bytes of a program header (R166). -/
def progHeader (b : Bytes) : ProgHeader :=
  let v := leNat (b.take 64)
  ⟨bits v 0 8, bits v 8 4, bits v 12 2, toSigned 8 (bits v 16 8), bits v 24 2, bits v 26 2, bits v 28 4, bits v 32 4,
    bits v 36 2, (List.range 4).map (fun t =>
      let c := bits v (64 + 32 * t) 32
      ⟨toSigned 16 (bits c 0 16), bits c 16 3, bits c 19 1 == 1⟩)⟩

/-- The header's own reserved bits and codes (R166, R170). -/
def progHeaderOk (b : Bytes) : Bool :=
  let v := leNat (b.take 64)
  let h := progHeader b
  h.instrCount ≤ 64 && h.outKind != 3 && bits v 14 2 == 0 && h.m1Source != 3 && bits v 38 26 == 0
    && bits v 192 320 == 0
    && (List.range 4).all (fun t => bits v (64 + 32 * t + 20) 12 == 0 && bits v (64 + 32 * t + 16) 3 != 7)
    && (h.instrCount != 0 || (h.outReg == 0 && h.outKind == 0))

/-- The slot a RED of a program writes. -/
def redSlot (i : Instr) : Option Nat := (whiskRed i).map (fun r => r.2.2.1.val)

/-- Whether a program's SPLITs and SOFTMAX are as R170 allows. -/
def progPhasesOk (p : List Instr) : Bool :=
  let splits := (p.filter (fun i => match i with | .split _ => true | _ => false)).length
  let softs := (p.filter (fun i => match i with | .softmax _ _ _ _ => true | _ => false)).length
  splits ≤ 2 && softs ≤ 1 && !(softs ≥ 1 && splits ≥ 1)

/-- Whether every BCAST reads a slot that a RED of an earlier phase writes (R170); `done` holds the slots of earlier
phases and `now` those of the phase in progress. A SOFTMAX ends two phases. -/
def bcastOk : List Nat → List Nat → List Instr → Bool
  | _, _, [] => true
  | done, now, i :: is => match i with
    | .split _ => bcastOk (done ++ now) [] is
    | .softmax _ _ _ _ => bcastOk (done ++ now) [] is
    | .bcast _ _ s _ => done.contains s.val && bcastOk done now is
    | _ => match redSlot i with
      | some s => bcastOk done (s :: now) is
      | none => bcastOk done now is

/-- Whether a list has no repeats. -/
def noRepeat (l : List Nat) : Bool := decide l.Nodup

/-- The load checks of a program: RECIPE_FORM (R170) before DITHER_SHARED (R183); `none` passes. -/
inductive ProgFault where
  | recipeForm
  | ditherShared
deriving DecidableEq, Repr

/-- The draw indices a program names. -/
def progDraws (p : List Instr) : List Nat :=
  p.filterMap (fun i => match i with | .draw _ _ ix => some ix.toNat | _ => none)

/-- Whether the program names tables that its header does not enable. -/
def tabsOk (h : ProgHeader) (p : List Instr) : Bool :=
  p.all (fun i => match i with | .tab _ _ _ t => bits h.tableEnable t.val 1 == 1 | _ => true)

/-- The program of an image: header, constant pool and instruction words; or the fault its load raises (R170, R183). -/
def progLoad (image : Bytes) : Except ProgFault (ProgHeader × List Word × List Instr) :=
  let h := progHeader image
  let k := (List.range 16).map (fun i => BitVec.ofNat 32 (fld image (64 + 4 * i) 4))
  let ws := (List.range h.instrCount).map (fun i => fld image (128 + 4 * i) 4)
  if !progHeaderOk image then .error .recipeForm
  else match whiskWords 0 0 64 ws with
    | none => .error .recipeForm
    | some p =>
      if !(progPhasesOk p && bcastOk [] [] p && noRepeat (p.filterMap redSlot) && tabsOk h p) then
        .error .recipeForm
      else if !noRepeat (progDraws p) || (progDraws p).any (fun ix => ix < 2) then .error .ditherShared
      else .ok (h, k, p)

/-- The slots that a BLOCK-scope RED writes (R188). -/
def blockSlots (p : List Instr) : List Nat :=
  p.filterMap (fun i => match whiskRed i with
    | some (_, _, s, _, .block) => some s.val
    | _ => none)

/-! ### Cost (R190) -/

/-- Whether a reduction has the long latency of SUM_L and MEAN_L. -/
def redLong (i : Instr) : Bool := match i with
  | .sumL _ _ _ _ => true
  | .meanL _ _ _ _ => true
  | _ => false

/-- The latency of a fold over a scope: ⌈E/16⌉ + 4 (R190). -/
def foldLatency (stream : Bool) (c : Scope) : Nat :=
  ceilDiv (match c with | .row => if stream then 1920 else 240 | .block => 240) 16 + 4

/-- The latency of one instruction's reduction; a SOFTMAX counts apart. -/
def redLatency (stream : Bool) (i : Instr) : Nat := match whiskRed i with
  | some (_, _, _, _, c) => if redLong i then foldLatency stream c else 16
  | none => 0

/-- L: the longest reduction latency completing at each phase boundary and at the end, summed (R190). -/
def progLatency (stream : Bool) : Nat → List Instr → Nat
  | cur, [] => cur
  | cur, i :: is => match i with
    | .split _ => cur + progLatency stream 0 is
    | .softmax _ _ _ c => max cur 16 + foldLatency stream c + progLatency stream 0 is
    | _ => progLatency stream (max cur (redLatency stream i)) is

/-- c: the cycles a block takes, the greater of the words and 15 per long fold (R190). -/
def progCycles (h : ProgHeader) (p : List Instr) : Nat :=
  max h.instrCount (15 * (p.filter (fun i => redLong i ||
    (match i with | .softmax _ _ _ _ => true | _ => false))).length)

/-- w: the element program cost that R104 adds to a step (R190). -/
def progCost (stream : Bool) (h : ProgHeader) (p : List Instr) : Nat :=
  if h.instrCount = 0 then 0 else 240 * (progCycles h p - 1) + progLatency stream 0 p

end Sys2Proof.Machine
end

