-- ==== Sys2Proof/Machine/GriddleOps.lean ====
section
/-! DEFINITION. The arithmetic of a Griddle's tile: cells, alignment, saturation, checksum columns, the drain and the
packer (R84 to R101, R115 to R125, R129, R177), and the pass prices (R102 to R105, R110, R118, R138, R146). -/

namespace Sys2Proof.Machine

open Sys2Proof

/-- The tile status word (R96). -/
structure TileStatus where
  sat : Bool := false
  boundLapsed : Bool := false
  rebased : Bool := false
  drainClip : Bool := false
  checkNa : Bool := false
  rebaseCount : Nat := 0
deriving DecidableEq, Repr

/-- The bits of the tile status word (R96). -/
def TileStatus.toWord (t : TileStatus) : Nat :=
  (if t.sat then 1 else 0) + (if t.boundLapsed then 2 else 0) + (if t.rebased then 4 else 0)
    + (if t.drainClip then 8 else 0) + (if t.checkNa then 16 else 0) + 256 * min t.rebaseCount 255

/-- The tile status word read back (R96, R113). -/
def TileStatus.ofWord (n : Nat) : TileStatus :=
  ⟨bits n 0 1 == 1, bits n 1 1 == 1, bits n 2 1 == 1, bits n 3 1 == 1, bits n 4 1 == 1, bits n 8 8⟩

/-- Join the status of a part of a tile to the tile's (R96). -/
def TileStatus.join (a b : TileStatus) : TileStatus :=
  ⟨a.sat || b.sat, a.boundLapsed || b.boundLapsed, a.rebased || b.rebased, a.drainClip || b.drainClip,
    a.checkNa || b.checkNa, min 255 (a.rebaseCount + b.rebaseCount)⟩

/-- One tile row: its output accumulators, its eight check accumulators, its reference exponent (R81, R122), and the least and
greatest exponents of the non-zero groups it has taken (R88, R95). -/
structure RowAcc where
  acc : List Int
  chk : List Int
  eref : Int
  seen : Option (Int × Int)
deriving DecidableEq, Repr

/-- A row cleared to `n` columns at a reference exponent. -/
def RowAcc.clear (n : Nat) (eref : Int) : RowAcc := ⟨List.replicate n 0, List.replicate 8 0, eref, none⟩

/-- A tile of a unit in the array: its status word and its rows (R81, R96). -/
structure SubTile where
  status : TileStatus
  rows : List RowAcc
deriving DecidableEq, Repr

/-- The least and greatest exponents with one more. -/
def seenWith (m : Option (Int × Int)) (e : Int) : Option (Int × Int) := match m with
  | some x => some (min x.1 e, max x.2 e)
  | none => some (e, e)

/-- The lesser of two exponents, where there are any. -/
def optMin (a b : Option Int) : Option Int := match a, b with
  | some x, some y => some (min x y)
  | some x, none => some x
  | none, y => y

/-- The least exponent of a non-zero group that the rows of a tile have taken (R88, R129; log 78). -/
def SubTile.least (t : SubTile) : Option Int := t.rows.foldl (fun m r => optMin m (r.seen.map (·.1))) none

/-- The weights a tile receives for one block: each column's 240 trits or bit-plane integers, and the eight check
columns' (R122, R123), with the columns' exponents per group for a bit-plane operand (R116). -/
structure ColBlock where
  cols : List (List Int)
  chk : List (List Int)
  shifts : List (List Int)
deriving DecidableEq, Repr

/-! ### Cells (R84 to R93) -/

/-- Saturating addition of p·2^shift: exact, then clamped to 32 bits; whether it clamped (R89). -/
def satAdd (acc p : Int) (shift : Nat) : Int × Bool :=
  let t := acc + p * 2 ^ shift
  let u := clampBits 32 t
  (u, u != t)

/-- The exact group partial Σ w·a (R84, R86); with integers in place of trits, the bit-plane partial (R115). -/
def groupPartial (w a : List Int) : Int := (w.zip a).foldl (fun s x => s + x.1 * x.2) 0

/-- Group g of a 240-element list. -/
def groupOf (l : List Int) (g : Nat) : List Int := (l.drop (60 * g)).take 60

/-- Add one group's partials to a list of accumulators, each at its own shift (R89). -/
def addPartials (accs : List Int) (ps : List Int) (shifts : List Nat) : List Int × Bool :=
  let r := (accs.zip (ps.zip shifts)).map (fun x => if x.2.1 = 0 then (x.1, false) else satAdd x.1 x.2.1 x.2.2)
  (r.map (·.1), r.any (·.2))

/-- Shift every accumulator of a row left, saturating, for a rebase to `e` (R90). -/
def rebaseRow (r : RowAcc) (e : Int) : RowAcc × Bool :=
  let d := (r.eref - e).toNat
  let a := r.acc.map (fun x => satAdd 0 x d)
  let c := r.chk.map (fun x => satAdd 0 x d)
  (⟨a.map (·.1), c.map (·.1), e, r.seen⟩, a.any (·.2) || c.any (·.2))

/-- One group of one block on one row (R84 to R90, R116): a non-zero group below e_ref rebases the row first. -/
def rowGroup (b : Block) (cb : ColBlock) (rt : RowAcc × TileStatus) (g : Nat) : RowAcc × TileStatus :=
  let a := b.group g
  if a.all (· == 0) then rt
  else
    let e := b.exp g
    let (r, t) := rt
    let (r, t) := if e < r.eref then
        let rb := rebaseRow r e
        (rb.1, { t with sat := t.sat || rb.2, rebased := true, rebaseCount := min 255 (t.rebaseCount + 1) })
      else (r, t)
    let s := (e - r.eref).toNat
    let ps := cb.cols.map (fun c => groupPartial (groupOf c g) a)
    let sh := (List.range cb.cols.length).map (fun n => s + (nth 0 (nth [] cb.shifts n) g).toNat)
    let qs := cb.chk.map (fun c => groupPartial (groupOf c g) a)
    let x := addPartials r.acc ps sh
    let y := addPartials r.chk qs (List.replicate 8 s)
    (⟨x.1, y.1, r.eref, seenWith r.seen e⟩, { t with sat := t.sat || x.2 || y.2 })

/-- One block on one row, its groups in order (R92). -/
def rowBlock (b : Block) (cb : ColBlock) (rt : RowAcc × TileStatus) : RowAcc × TileStatus :=
  (List.range 4).foldl (rowGroup b cb) rt

/-- The least shift of a bit-plane contribution is f_ref: shifts of R116 from the columns' exponents. -/
def planeShifts (fref : Int) (exps : List (List Int)) : List (List Int) :=
  exps.map (fun l => l.map (fun e => e - fref))

/-! ### The no-saturation bound (R94, R95, R117) -/

/-- The largest group partial magnitude P (R94, R117): `qx` and `qb` are 128 at A8 and 8 at A4; `qb` is 1 for trits. -/
def groupBound (qx qb : Nat) : Nat := 60 * qx * qb

/-- K_safe(D) = 60 × ⌊2^31 / (P × 2^D)⌋ (R94). -/
def kSafe (p d : Nat) : Nat := 60 * (2 ^ 31 / (p * 2 ^ d))

/-! ### Checksum columns (R122 to R125) -/

/-- The balanced-ternary digits of an integer, eight of them from digit 0 (R122). -/
def balancedDigits : Nat → Int → List Int
  | 0, _ => []
  | n + 1, c =>
    let d := ((c + 1) % 3) - 1
    d :: balancedDigits n ((c - d) / 3)

/-- The eight check planes that spell a check vector: plane j holds digit j of each value (R122). -/
def checkDigits (v : List Int) : List (List Int) :=
  let ds := v.map (balancedDigits 8)
  (List.range 8).map (fun j => ds.map (fun d => nth 0 d j))

/-- The check vector that check planes spell for each k: the sum of 3^j times digit j (R122). -/
def checkVector (chk : List (List Int)) : List Int :=
  (List.range 240).map (fun k => chk.foldr (fun p v => 3 * v + nth 0 p k) 0)

/-- The check planes of a block after the Merge: the stored ones where no column changed, else c_k + Δ_k encoded again, Δ_k the sum
of new − old over the column blocks, given before and after (R291). -/
def mergedChecks (stored : List (List Int)) (cols : List (List Int × List Int)) : List (List Int) :=
  if cols.all (fun p => p.1 == p.2) then stored
  else checkDigits (((checkVector stored).zipIdx).map (fun c =>
    cols.foldl (fun v p => v + (nth 0 p.2 c.2 - nth 0 p.1 c.2)) c.1))

/-- Column blocks side by side in one tile: their check vectors are added and the sum encoded again (R153). -/
def joinCols (l : List ColBlock) : ColBlock := match l with
  | [c] => c
  | _ =>
    let vs := l.map (fun c => checkVector c.chk)
    let sums := (List.range 240).map (fun k => vs.foldl (fun s v => s + nth 0 v k) 0)
    ⟨(l.map (·.cols)).flatten, checkDigits sums, (l.map (·.shifts)).flatten⟩

/-- The bit-plane check columns of one block (R123): bits 4c to 4c + 3 of c_k, bit 31 weighing −2^3 in cell 7. -/
def planeChecks (cols : List (List Int)) (shifts : List (List Int)) : List (List Int) :=
  let ck := (List.range 240).map (fun k =>
    ((cols.zip shifts).foldl (fun (s : Int) c => s + nth 0 c.1 k * 2 ^ (nth 0 c.2 (k / 60)).toNat) 0))
  (List.range 8).map (fun c => ck.map (fun v =>
    let u := ofSigned 32 v / 16 ^ c % 16
    if c = 7 then toSigned 4 u else (u : Int)))

/-- The check value C of a row (R124): Horner's rule in base 3 for a ternary tile, base 16 for a bit-plane tile. -/
def checkValue (bitPlane : Bool) (chk : List Int) : Int :=
  chk.foldr (fun z acc => (if bitPlane then 16 else 3) * acc + z) 0

/-- The row sum S (R124). -/
def rowSum (acc : List Int) : Int := acc.foldl (· + ·) 0

/-- Whether a row's checksum holds (R124). -/
def rowChecks (bitPlane : Bool) (r : RowAcc) : Bool := rowSum r.acc == checkValue bitPlane r.chk

/-- Whether the bit-plane check applies: N·Q_b·2^(D_col) < 2^31 (R123). -/
def planeCheckApplies (n qb dcol : Nat) : Bool := decide (n * qb * 2 ^ dcol < 2 ^ 31)

/-! ### The drain (R97 to R100) -/

/-- Q: 127 at A8 and 7 at A4 (R97). -/
def fmtQ : Fmt → Nat
  | .a4 => 7
  | _ => 127

/-- Whether m ≤ Q·2^s (R97). -/
def drainFits (m : Nat) (s : Int) (q : Nat) : Bool :=
  if s < 0 then decide (m * 2 ^ (-s).toNat ≤ q) else decide (m ≤ q * 2 ^ s.toNat)

/-- The smallest s from `s` up with m ≤ Q·2^s, looking at `fuel` values (R97). -/
def drainShift (m q : Nat) : Nat → Int → Int
  | 0, s => s
  | n + 1, s => if drainFits m s q then s else drainShift m q n (s + 1)

/-- One element: exact for s ≤ 0, else the dithered floor with the 64-bit draw D (R98), clamped to ±Q. -/
def drainElem (q : Nat) (s : Int) (draw : Nat) (acc : Int) : Int :=
  let o := if s ≤ 0 then acc * 2 ^ (-s).toNat
    else
      let k := s.toNat
      let v := if k ≤ 64 then draw / 2 ^ (64 - k) else draw * 2 ^ (k - 64)
      (acc + v).fdiv (2 ^ k)
  clamp (-(q : Int)) q o

/-- One output element before packing: an integer with its exponent, or an L16 code (`none` where M0 is 0). -/
inductive OutVal where
  | int (v e : Int)
  | log (c : Option Nat)
deriving DecidableEq, Repr

/-- What the drain of one group gives: elements, exponent, DRAIN_CLIP, and whether s ≤ 0. -/
structure DrainOut where
  elems : List Int
  exp : Int
  clip : Bool
  exact : Bool
deriving DecidableEq, Repr

/-- The drain of one group of 60 (R97 to R99); `draw j` is element j's 64-bit draw of index 0. -/
def drainGroup (q : Nat) (eref : Int) (draw : Nat → Nat) (accs : List Int) : DrainOut :=
  let m := accs.foldl (fun m a => max m a.natAbs) 0
  if m = 0 then ⟨accs.map (fun _ => 0), 0, false, true⟩
  else
    let s := drainShift m q 1024 (-128 - eref)
    let clip := decide (eref + s > 127)
    let s := if clip then 127 - eref else s
    ⟨accs.mapIdx (fun j a => drainElem q s (draw j) a), eref + s, clip, decide (s ≤ 0)⟩

/-! ### The packer's OutKind L16 (R177) -/

/-- Whether the exact magnitude of code m at exponent E is at most Q (R177). -/
def l16Fits (m : Nat) (e : Int) (q : Nat) : Bool :=
  let (mm, s) := ltoiParts m e
  if s ≤ 0 then decide (mm * 2 ^ (-s).toNat ≤ q) else decide (mm ≤ q * 2 ^ s.toNat)

/-- The least E from `e` up that fits (R177). -/
def l16Shift (m q : Nat) : Nat → Int → Int
  | 0, e => e
  | n + 1, e => if l16Fits m e q then e else l16Shift m q n (e + 1)

/-- The packing of one group of L16 codes; `none` for a lane whose M0 is 0 (R177). -/
def packL16 (q : Nat) (draw : Nat → Nat) (cs : List (Option Nat)) : DrainOut :=
  let live := cs.filterMap id
  let fin := live.filter (fun c => !l16IsZero c && !l16IsInf c)
  let inf := live.any l16IsInf
  let mm := fin.foldl (fun m c => max m (l16Mag c)) 0
  if fin.isEmpty && !inf then ⟨cs.map (fun _ => 0), 0, false, true⟩
  else
    let e := if fin.isEmpty then 127 else l16Shift mm q 512 (-128)
    let past := decide (e > 127)
    let e := if past then 127 else e
    let out := cs.mapIdx (fun j c => match c with
      | none => (0 : Int)
      | some c => if l16IsInf c then (if l16Neg c then -(q : Int) else q)
          else clamp (-(q : Int)) q (ltoiAt c e 2 (draw j / 2 ^ 32)).1)
    let z := out.all (· == 0)
    ⟨out, if z then 0 else e, past || inf, false⟩

/-! ### The product h ⊙ u of a gated step (R77, R153) -/

/-- The product of a group of h, given as integers at one exponent, and of u: exact products, requantized by the drain's rule. -/
def productInts (q : Nat) (e : Int) (draw : Nat → Nat) (h us : List Int) : DrainOut :=
  drainGroup q e draw ((h.zip us).map (fun x => x.1 * x.2))

/-- The product of a group of h, given as L16 codes, and of u, converted to L16 at its row's exponent (R120): packed by R177,
with whether a code clipped. -/
def productCodes (q : Nat) (eref : Int) (draw : Nat → Nat) (h : List (Option Nat)) (us : List Int) : DrainOut × Bool :=
  let ps := (h.zip us).map (fun x => match x.1 with
    | some c =>
      let a := itolAt x.2 eref
      let p := l16Mul c a.1
      (some p.1, a.2 || p.2)
    | none => (none, false))
  (packL16 q draw (ps.map (·.1)), ps.any (·.2))

/-! ### The range tracker's ratio (R129) -/

/-- ρ = code(m) − code(rms) of a non-zero group of 60, in 1/512 units of log2 (R129); an odd code of the mean
square is halved to the floor (log 98). -/
def trackerRatio (accs : List Int) : Int :=
  let m := accs.foldl (fun m a => max m a.natAbs) 0
  let sq := accs.map (fun a => if a = 0 then 0 else
    (l16Clip false (2 * (l16Mag (itolAt a.natAbs 0).1 : Int) - 16384)).1)
  let sum := sq.foldl (fun s c => (l16Add s c).1) 0
  let mean := (l16Mag sum : Int) - (l16Mag (itolAt 60 0).1 : Int)
  let rms := mean.fdiv 2
  ((l16Mag (itolAt m 0).1 : Int) - 16384) - rms

/-! ### Prices (R102 to R105, R110, R118, R138, R146) -/

/-- Bytes per cycle of the activation port (R102). -/
def actPort (stream : Bool) : Nat := if stream then 64 else 256

/-- Fill latency (R102). -/
def fillCycles (stream : Bool) : Nat := if stream then 64 else 48

/-- Columns of a tile (R81). -/
def tileCols (stream : Bool) : Nat := if stream then 1920 else 240

/-- Rows of a tile (R81). -/
def tileRows (stream : Bool) : Nat := if stream then 30 else 240

/-- Blocks of a tile row: 1 on Dense, 8 on Stream. -/
def tileParts (stream : Bool) : Nat := if stream then 8 else 1

/-- Weight bytes of a pass of b blocks with its check planes (R103). -/
def weightBytes (stream : Bool) (b : Nat) : Nat := b * (tileCols stream + 8) * 48

/-- Activation bytes of a dense pass (R103). -/
def actBytes (f : Fmt) (rows b : Nat) : Nat := rows * b * blockBytes f

/-- The terms of R103: compute, weight bytes and rate, activation bytes, floor. -/
def passPrice (stream : Bool) (compute w rate a floor : Nat) : Nat :=
  max (max compute (ceilDiv w rate)) (max (ceilDiv a (actPort stream)) floor)

/-- The compute term of a dense pass: 240·b/a, times the plane count in bit-plane mode (R103, R118). -/
def denseCompute (f : Fmt) (b planes : Nat) : Nat := planes * 240 * b / (match f with | .a4 => 2 | _ => 1)

/-- The compute term of an SxD segment: Σ (n_max(β) + 4) (R138). -/
def sxdCompute (nmax : List Nat) : Nat := sumN (nmax.map (· + 4))

/-- The build time of a match segment: ⌈n/4⌉ + 8 (R146). -/
def matchBuild (n : Nat) : Nat := ceilDiv n 4 + 8

/-- The compute term of an SxS segment (R146). -/
def sxsCompute (groups n : Nat) (nextBuild : Nat) (first : Bool) : Nat :=
  max (max groups n) nextBuild + (if first then matchBuild n else 0)

/-! ### Entry lists and the match unit (R139 to R145) -/

/-- The header fields of an entry list (R139). -/
structure ElHeader where
  entryCount : Nat
  issueGroups : Nat
  segBlocks : Nat
  form : Nat
  columns : Nat
  firstBlock : Nat
deriving DecidableEq, Repr

/-- Read an entry list's header (R139). -/
def elHeader (b : Bytes) : ElHeader := ⟨fld b 0 4, fld b 4 4, byteAt b 8, byteAt b 9, fld b 10 2, fld b 12 4⟩

/-- Bytes an entry list takes (R140). -/
def elBytes (h : ElHeader) : Nat := 64 * (1 + ceilDiv h.entryCount 15)

/-- An entry: position, column and trit (R140). -/
structure WelEntry where
  pos : Nat
  col : Nat
  trit : Int
deriving DecidableEq, Repr

/-- Entry e of a list (R140), `none` for a reserved trit or bit. -/
def elEntry (b : Bytes) (e : Nat) : Option WelEntry :=
  let v := fld b (64 * (1 + e / 15) + 4 * (e % 15)) 4
  let t := bits v 24 2
  if bits v 26 6 ≠ 0 ∨ t = 0 ∨ t = 3 then none else some ⟨bits v 0 13, bits v 13 11, digitTrit t⟩

/-- Take up to four entries of different columns; what is left (R141). -/
def issueTake : Nat → List Nat → List Nat → List Nat
  | 0, _, l => l
  | _, _, [] => []
  | n + 1, used, c :: l => if used.contains c then c :: l else issueTake n (c :: used) l

/-- The count of issue groups of a list of columns (R141); `fuel` bounds the groups. -/
def issueGroups : Nat → List Nat → Nat
  | 0, _ => 0
  | _, [] => 0
  | n + 1, l => 1 + issueGroups n (issueTake 4 [] l)

/-- The header checks of an entry list against the segment the step expects (R151). -/
def elHeaderOk (h : ElHeader) (b : Bytes) (cols segBlocks first : Nat) : Bool :=
  h.form == 0x10 && h.segBlocks == segBlocks && h.columns == cols && h.firstBlock == first
    && h.entryCount ≤ 240 * segBlocks * cols && allZero (sub b 16 46)

/-- The header of an entry list as pricing reads it: the CRC, then the checks of R151 (R149). -/
def elHeadRead (b : Bytes) (cols segBlocks first : Nat) : Except DataFault ElHeader :=
  let h := elHeader b
  if !crcOk (b.take 64) then .error .burstCrc
  else if !elHeaderOk h b cols segBlocks first then .error .sparseMeta
  else .ok h

/-- The checks of R151 on the entries of a list, the cast's or a merged one: their range and their order. -/
def entriesOk (es : List WelEntry) (cols segBlocks : Nat) : Bool :=
  es.all (fun e => e.pos < 240 * segBlocks && e.col < cols && (e.trit == 1 || e.trit == -1))
    && decide ((es.map (fun e => 2048 * e.pos + e.col)).Pairwise (· < ·))

/-- Read a whole entry list of the cast: the CRC of each burst first, then the metadata checks of R151. -/
def elRead (b : Bytes) (cols segBlocks first : Nat) : Except DataFault (List WelEntry) :=
  match elHeadRead b cols segBlocks first with
  | .error e => .error e
  | .ok h =>
    let n := ceilDiv h.entryCount 15
    let bursts := (List.range n).map (fun i => sub b (64 * (i + 1)) 64)
    if bursts.any (fun x => !crcOk x) then .error .burstCrc
    else
      let es := (List.range h.entryCount).map (elEntry b)
      let ok := es.filterMap id
      let tail := (List.range (15 * n)).drop h.entryCount
      if ok.length ≠ h.entryCount ∨ bursts.any (fun x => !allZero (sub x 60 2))
        ∨ ¬ entriesOk ok cols segBlocks
        ∨ tail.any (fun e => fld b (64 * (1 + e / 15) + 4 * (e % 15)) 4 != 0)
        ∨ issueGroups h.entryCount (ok.map (·.col)) ≠ h.issueGroups then .error .sparseMeta
      else .ok ok

/-- The set a position hashes to (R143). -/
def matchSet (k : Nat) : Nat := Nat.xor (Nat.xor k (k / 64)) (k / 4096) % 64

/-- An entry of a match table: a position of the segment, the activation's integer, its group's exponent (R143). -/
structure MEntry where
  pos : Nat
  val : Int
  exp : Int
deriving DecidableEq, Repr

/-- A lane's table in one bank: 64 sets of up to 4 ways and a stash of up to 16, each in insertion order (R143). -/
structure MTable where
  sets : List (List MEntry)
  stash : List MEntry
deriving DecidableEq, Repr

/-- An empty table. -/
def MTable.empty : MTable := ⟨List.replicate 64 [], []⟩

/-- Insert one entry: a set's four ways, then the stash; `none` when both are full (R143, R145). -/
def matchInsert (t : MTable) (e : MEntry) : Option MTable :=
  let s := matchSet e.pos
  if (nth [] t.sets s).length < 4 then some { t with sets := updNth t.sets s (fun w => w ++ [e]) }
  else if t.stash.length < 16 then some { t with stash := t.stash ++ [e] }
  else none

/-- A lane's table built from its row's non-zeros in increasing position; `none` where a set and the stash are both full
(R143, R145). -/
def matchTable (es : List MEntry) : Option MTable := es.foldl (fun t e => t.bind (fun t => matchInsert t e)) (some MTable.empty)

/-- Look a position up in a lane's table (R144). -/
def matchFind (t : MTable) (k : Nat) : Option MEntry := (nth [] t.sets (matchSet k) ++ t.stash).find? (fun e => e.pos == k)

/-- The non-zeros of a block as entries, from the segment's position `at'` on. -/
def blockEntries (at' : Nat) (b : Block) : List MEntry :=
  (natsWhere 240 (fun k => nth 0 b.elems k != 0)).map (fun k => ⟨at' + k, nth 0 b.elems k, b.exp (k / 60)⟩)

/-- Block `blk` of a segment as a lane's lookups deliver it: a miss contributes nothing (R144). -/
def tableBlock (t : MTable) (blk : Nat) : Block :=
  let hits := (List.range 240).map (fun k => matchFind t (240 * blk + k))
  ⟨hits.map (fun h => match h with | some e => e.val | none => 0),
    (List.range 4).map (fun g => (((hits.drop (60 * g)).take 60).findSome? (fun h => h.map (·.exp))).getD 0)⟩

/-- The changes of one column block in an entry list: entries are added, removed or flipped (R142). -/
def mergeEntries (es : List WelEntry) (blk col : Nat) (base new : List Int) : List WelEntry :=
  let ks := natsWhere 240 (fun k => nth 0 base k != nth 0 new k)
  let kept := es.filter (fun e => !(e.col == col && e.pos / 240 == blk && ks.contains (e.pos % 240)))
  let added := (ks.filter (fun k => nth 0 new k != 0)).map (fun k => (⟨240 * blk + k, col, nth 0 new k⟩ : WelEntry))
  (kept ++ added).mergeSort (fun a b => 2048 * a.pos + a.col ≤ 2048 * b.pos + b.col)

/-- The columns' trits that an entry list spells, for one block of the segment (R144). -/
def elCols (es : List WelEntry) (cols blk : Nat) : List (List Int) :=
  let here := es.filter (fun e => e.pos / 240 == blk)
  (List.range cols).map (fun c =>
    let mine := here.filter (fun e => e.col == c)
    (List.range 240).map (fun k => match mine.find? (fun e => e.pos % 240 == k) with
      | some e => e.trit
      | none => 0))

end Sys2Proof.Machine
end

