-- ==== Sys2Proof/Machine/Objects.lean ====
section
/-! DEFINITION. The object dictionary's tables: every object of the spec's chapters with its type, access notation,
range, default and effect time (R496 to R501, R518), and a name for each. -/

namespace Sys2Proof.Machine

/-- The types of R496; a DOMAIN has a fixed length where its layout fixes one. -/
inductive OType where
  | bool
  | u8
  | u16
  | u32
  | u64
  | i8
  | i16
  | i32
  | i64
  | octets (max : Nat)
  | domain (len : Nat)
  | domainAny
deriving DecidableEq, Repr

/-- The access notations of R499, with that of the Hopper state words (R245). -/
inductive AccessKind where
  | r
  | opRw
  | opW
  | opR
  | tnRw
  | tnW
  | tnOpR
  | voR
  | ownerW
  | voRw
  | vOpW
  | pilotRw
  | installerW
  | anyW
  | rSession
  | opDictW
  | opSignerW
  | opSignerRw
  | opPilotW
  | vooR
deriving DecidableEq, Repr

/-- The effect times of R501. -/
inductive Effect where
  | immediate
  | nextTick
  | nextReset
  | regrid
  | none
deriving DecidableEq, Repr

/-- A row of an object table: the indices and subindices it covers and what it says of each. -/
structure ObjDesc where
  idxLo : Nat
  idxHi : Nat
  subLo : Nat
  subHi : Nat
  typ : OType
  acc : AccessKind
  persistent : Bool
  range : Option (Int × Int)
  dflt : Nat
  eff : Effect
deriving DecidableEq, Repr

/-- A row of an object table. -/
def ob (idxLo idxHi subLo subHi : Nat) (typ : OType) (acc : AccessKind) (persistent : Bool)
    (range : Option (Int × Int)) (dflt : Nat) (eff : Effect) : ObjDesc :=
  ⟨idxLo, idxHi, subLo, subHi, typ, acc, persistent, range, dflt, eff⟩

/-- Part 0 of the object tables, in the order of the chapters. -/
def objPart0 : List ObjDesc := [
  ob 0x2010 0x2010 0x01 0x01 .u32 .opRw false none 0xfe502b .regrid,
  ob 0x2010 0x2010 0x02 0x02 .u16 .opRw false none 0 .regrid,
  ob 0x2010 0x2010 0x03 0x03 .u16 .opRw false none 1 .regrid,
  ob 0x2010 0x2010 0x04 0x04 .u64 .opRw true none 0 .nextReset,
  ob 0x2010 0x2010 0x05 0x05 .u64 .opRw true none 0 .nextReset,
  ob 0x2010 0x2010 0x06 0x06 .u64 .opRw false none 0 .immediate,
  ob 0x2010 0x2010 0x07 0x07 .bool .r false none 0 .none,
  ob 0x2011 0x2011 0x01 0x01 .u32 .opRw true none 0x30d40 .nextTick,
  ob 0x2011 0x2011 0x02 0x02 .u16 .opRw true none 8800 .nextTick,
  ob 0x2011 0x2011 0x03 0x03 .u16 .opRw true none 9400 .nextTick,
  ob 0x2011 0x2011 0x04 0x04 .u16 .opRw true none 8500 .nextTick,
  ob 0x2012 0x2012 0x01 0x01 .u8 .opRw true none 7 .nextTick,
  ob 0x2012 0x2012 0x03 0x03 .u32 .opRw true none 10000 .nextTick,
  ob 0x2012 0x2012 0x04 0x04 .u16 .opRw true none 1000 .nextTick,
  ob 0x2012 0x2012 0x05 0x05 .u32 .opRw true none 60000 .immediate,
  ob 0x2012 0x2012 0x06 0x06 .u32 .opRw true none 100 .immediate,
  ob 0x2013 0x2013 0x01 0x04 .u8 .opRw true none 0 .nextTick,
  ob 0x2013 0x2013 0x05 0x05 .u32 .opRw true none 1000 .nextTick,
  ob 0x2020 0x2020 0x01 0x01 .u64 .r false none 0 .none,
  ob 0x2020 0x2020 0x02 0x02 .u8 .r false none 0 .none,
  ob 0x2020 0x2020 0x03 0x03 .u8 .r false none 0 .none,
  ob 0x2020 0x2020 0x04 0x04 .i32 .r false none 0 .none,
  ob 0x2020 0x2020 0x05 0x05 .u32 .r false none 0 .none,
  ob 0x2020 0x2020 0x06 0x06 .u64 .r false none 0 .none,
  ob 0x2020 0x2020 0x07 0x07 .u32 .r false none 0 .none,
  ob 0x2020 0x2020 0x08 0x08 .u32 .r false none 0 .none,
  ob 0x2020 0x2020 0x09 0x09 .u32 .r false none 0 .none,
  ob 0x4020 0x4020 0x01 0x01 .u64 .r false none 0 .none,
  ob 0x4020 0x4020 0x02 0x02 .u64 .r false none 0 .none,
  ob 0x4020 0x4020 0x03 0x03 .u64 .r false none 0 .none,
  ob 0x4020 0x4020 0x04 0x04 .u64 .r false none 0 .none,
  ob 0x4020 0x4020 0x05 0x05 .u64 .r false none 0 .none,
  ob 0x4020 0x4020 0x06 0x06 .u64 .r false none 0 .none,
  ob 0x4010 0x4010 0x01 0x01 .u16 .opRw true (some (256, 8192)) 2048 .nextReset,
  ob 0x4021 0x4021 0x01 0x01 .u64 .r false none 0 .none,
  ob 0x4021 0x4021 0x02 0x02 .u64 .r false none 0 .none,
  ob 0x4021 0x4021 0x03 0x03 .u64 .r false none 0 .none,
  ob 0x4021 0x4021 0x04 0x04 .u64 .r false none 0 .none,
  ob 0x4021 0x4021 0x05 0x05 .u64 .r false none 0 .none,
  ob 0x4021 0x4021 0x06 0x06 .u64 .r false none 0 .none]

/-- Part 1 of the object tables, in the order of the chapters. -/
def objPart1 : List ObjDesc := [
  ob 0x4021 0x4021 0x07 0x07 .u64 .r false none 0 .none,
  ob 0x4021 0x4021 0x08 0x08 .u64 .r false none 0 .none,
  ob 0x4021 0x4021 0x09 0x09 .u64 .r false none 0 .none,
  ob 0xF010 0xF010 0x01 0x01 .bool .voRw true none 0 .nextReset,
  ob 0x4012 0x4012 0x01 0x01 .u16 .opRw true (some (0, 10000)) 2500 .nextTick,
  ob 0x4012 0x4012 0x02 0x02 .u16 .opRw true (some (1, 65535)) 60 .nextTick,
  ob 0x4022 0x4022 0x01 0x01 .u64 .r false none 0 .none,
  ob 0x4022 0x4022 0x02 0x02 .u64 .r false none 0 .none,
  ob 0x4022 0x4022 0x03 0x03 .u64 .r false none 0 .none,
  ob 0x4022 0x4022 0x04 0x04 .u64 .r false none 0 .none,
  ob 0x4022 0x4022 0x05 0x05 .u64 .r false none 0 .none,
  ob 0x4022 0x4022 0x06 0x06 .u64 .r false none 0 .none,
  ob 0x4022 0x4022 0x07 0x07 .u64 .r false none 0 .none,
  ob 0x4022 0x4022 0x08 0x08 .u64 .r false none 0 .none,
  ob 0x4022 0x4022 0x09 0x09 .u64 .r false none 0 .none,
  ob 0x4022 0x4022 0x0A 0x0A .u64 .r false none 0 .none,
  ob 0x4022 0x4022 0x0B 0x0B .u64 .r false none 0 .none,
  ob 0x4023 0x4023 0x01 0x01 .u64 .r false none 0 .none,
  ob 0x4023 0x4023 0x02 0x02 .u64 .r false none 0 .none,
  ob 0x4023 0x4023 0x03 0x03 .u64 .r false none 0 .none,
  ob 0x4023 0x4023 0x04 0x04 .u64 .r false none 0 .none,
  ob 0x4023 0x4023 0x05 0x05 .u64 .r false none 0 .none,
  ob 0x4023 0x4023 0x06 0x06 .u64 .r false none 0 .none,
  ob 0x5030 0x5030 0x01 0x01 .u32 .opRw true (some (0, 2097151)) 0x190000 .nextReset,
  ob 0x5030 0x5030 0x02 0x02 .u32 .r false none 0 .none,
  ob 0x5030 0x5030 0x03 0x03 .u32 .r false none 0 .none,
  ob 0x5030 0x5030 0x04 0x04 .u32 .r false none 0 .none,
  ob 0x5030 0x5030 0x05 0x05 .u32 .opRw true (some (256, 32768)) 4096 .nextReset,
  ob 0x5031 0x5031 0x01 0x01 .u8 .opRw true (some (1, 15)) 4 .nextTick,
  ob 0x5031 0x5031 0x02 0x02 .u8 .opRw true (some (1, 15)) 4 .nextTick,
  ob 0x5031 0x5031 0x03 0x03 .u16 .opRw true (some (1, 65535)) 120 .nextTick,
  ob 0x5038 0x5038 0x01 0x01 .u64 .r false none 0 .none,
  ob 0x5038 0x5038 0x02 0x02 .u64 .r false none 0 .none,
  ob 0x5038 0x5038 0x03 0x03 .u64 .r false none 0 .none,
  ob 0x5038 0x5038 0x04 0x04 .u64 .r false none 0 .none,
  ob 0x5038 0x5038 0x05 0x05 .u64 .r false none 0 .none,
  ob 0x5038 0x5038 0x06 0x06 .u64 .r false none 0 .none,
  ob 0x5038 0x5038 0x07 0x07 .u64 .r false none 0 .none,
  ob 0x5038 0x5038 0x08 0x08 .u64 .r false none 0 .none,
  ob 0x5038 0x5038 0x09 0x09 .u64 .r false none 0 .none]

/-- Part 2 of the object tables, in the order of the chapters. -/
def objPart2 : List ObjDesc := [
  ob 0x5038 0x5038 0x0A 0x0A .u64 .r false none 0 .none,
  ob 0x4013 0x4013 0x01 0x01 .u8 .opRw true (some (0, 2)) 2 .nextTick,
  ob 0x4024 0x4024 0x01 0x01 .u64 .r false none 0 .none,
  ob 0x4024 0x4024 0x02 0x02 .u64 .r false none 0 .none,
  ob 0x4024 0x4024 0x03 0x03 .u64 .r false none 0 .none,
  ob 0x4024 0x4024 0x04 0x04 .u64 .r false none 0 .none,
  ob 0x4024 0x4024 0x05 0x05 .u64 .r false none 0 .none,
  ob 0x4024 0x4024 0x06 0x06 .u64 .r false none 0 .none,
  ob 0x4024 0x4024 0x07 0x07 .u64 .r false none 0 .none,
  ob 0x3040 0x3040 0x01 0x01 .u32 .r false none 0x480000 .none,
  ob 0x3040 0x3040 0x02 0x02 .u32 .r false none 0 .none,
  ob 0x3040 0x3040 0x03 0x03 .u32 .r false none 0 .none,
  ob 0x3040 0x3040 0x04 0x04 .u16 .r false none 2048 .none,
  ob 0x3040 0x3040 0x05 0x05 .u16 .r false none 0 .none,
  ob 0x3040 0x3040 0x06 0x06 .u16 .opRw true (some (4, 1024)) 64 .nextReset,
  ob 0x3041 0x3041 0x01 0x01 .domainAny .opSignerW false none 0 .immediate,
  ob 0x3041 0x3041 0x02 0x02 .u64 .r false none 0 .none,
  ob 0x3041 0x3041 0x03 0x03 .u32 .opSignerRw false none 0 .immediate,
  ob 0x3041 0x3041 0x04 0x04 .u32 .r false none 0 .none,
  ob 0x3041 0x3041 0x05 0x05 .u8 .opW false none 0 .immediate,
  ob 0x3041 0x3041 0x06 0x06 .u8 .r false none 255 .none,
  ob 0x3041 0x3041 0x07 0x07 .u8 .r false none 0 .none,
  ob 0x3041 0x3041 0x08 0x08 (.domain 128) .ownerW false none 0 .immediate,
  ob 0x3041 0x3041 0x09 0x09 .u8 .opW false none 0 .immediate,
  ob 0x3041 0x3041 0x0A 0x0A .u32 .r false none 0 .none,
  ob 0x3042 0x3042 0x01 0x40 .u8 .r false none 0 .none,
  ob 0x3043 0x3043 0x01 0x40 .u8 .opRw true none 255 .nextTick,
  ob 0x3044 0x3044 0x01 0x40 .u32 .r false none 0 .none,
  ob 0x3045 0x3045 0x01 0x01 .u16 .opRw true (some (16, 512)) 128 .nextTick,
  ob 0x3045 0x3045 0x02 0x02 .u8 .opRw true (some (1, 8)) 4 .nextTick,
  ob 0x3045 0x3045 0x03 0x03 .u16 .opRw true (some (1, 65535)) 120 .nextTick,
  ob 0x3048 0x3048 0x01 0x01 .u64 .r false none 0 .none,
  ob 0x3048 0x3048 0x02 0x02 .u64 .r false none 0 .none,
  ob 0x3048 0x3048 0x03 0x03 .u64 .r false none 0 .none,
  ob 0x3048 0x3048 0x04 0x04 .u64 .r false none 0 .none,
  ob 0x3048 0x3048 0x05 0x05 .u64 .r false none 0 .none,
  ob 0x3048 0x3048 0x06 0x06 .u64 .r false none 0 .none,
  ob 0x3048 0x3048 0x07 0x07 .u64 .r false none 0 .none,
  ob 0x3048 0x3048 0x08 0x08 .u64 .r false none 0 .none,
  ob 0x3048 0x3048 0x09 0x09 .u64 .r false none 0 .none]

/-- Part 3 of the object tables, in the order of the chapters. -/
def objPart3 : List ObjDesc := [
  ob 0x3050 0x3050 0x01 0x01 .u32 .opRw true (some (1024, 32768)) 8192 .nextReset,
  ob 0x3050 0x3050 0x02 0x02 .u32 .r false none 0 .none,
  ob 0x3051 0x3051 0x01 0x01 .domainAny .opSignerW false none 0 .immediate,
  ob 0x3051 0x3051 0x02 0x02 .u16 .r false none 65535 .none,
  ob 0x3051 0x3051 0x03 0x03 .u8 .r false none 0 .none,
  ob 0x3051 0x3051 0x04 0x04 .u8 .opW false none 0 .immediate,
  ob 0x3051 0x3051 0x05 0x05 .u16 .opW false none 0 .immediate,
  ob 0x3051 0x3051 0x06 0x06 .u64 .r false none 0 .none,
  ob 0x3060 0x3063 0x01 0x80 .u8 .r false none 0 .none,
  ob 0x3064 0x3067 0x01 0x80 .u32 .r false none 0 .none,
  ob 0x3068 0x306F 0x01 0x80 .u16 .opRw true none 65535 .nextTick,
  ob 0x3058 0x3058 0x01 0x01 .u64 .r false none 0 .none,
  ob 0x3058 0x3058 0x02 0x02 .u64 .r false none 0 .none,
  ob 0x4025 0x4025 0x01 0x01 .u64 .r false none 0 .none,
  ob 0x4025 0x4025 0x02 0x02 .u64 .r false none 0 .none,
  ob 0x4025 0x4025 0x03 0x03 .u64 .r false none 0 .none,
  ob 0x4025 0x4025 0x04 0x04 .u64 .r false none 0 .none,
  ob 0x4025 0x4025 0x05 0x05 .u64 .r false none 0 .none,
  ob 0x4025 0x4025 0x06 0x06 .u64 .r false none 0 .none,
  ob 0x3010 0x3010 0x01 0x01 .u32 .r false none 0x3c000 .none,
  ob 0x3010 0x3010 0x02 0x02 .u32 .r false none 0x1e000 .none,
  ob 0x3010 0x3010 0x03 0x03 .u8 .opRw true (some (0, 16)) 2 .nextReset,
  ob 0x3010 0x3010 0x04 0x04 .u8 .r false none 2 .none,
  ob 0x3010 0x3010 0x05 0x05 .u8 .r false none 0 .none,
  ob 0x3010 0x3010 0x06 0x06 (.octets 32) .r false none 0 .none,
  ob 0x3011 0x3011 0x01 0x01 .u32 .opRw true (some (10, 100000)) 1000 .nextTick,
  ob 0x3011 0x3011 0x02 0x02 .u16 .opRw true (some (1, 1000)) 4 .nextTick,
  ob 0x3011 0x3011 0x03 0x03 .u16 .opRw true (some (500, 8000)) 1500 .nextTick,
  ob 0x3011 0x3011 0x04 0x04 .u16 .opRw true (some (10, 1440)) 60 .nextTick,
  ob 0x3011 0x3011 0x05 0x05 .u16 .opW false none 0 .immediate,
  ob 0x3012 0x3012 0x01 0x0C .i16 .r false none 0 .none,
  ob 0x3012 0x3012 0x11 0x1C .u8 .r false none 0 .none,
  ob 0x3013 0x3015 0x01 0x80 .u8 .r false none 0 .none,
  ob 0x3018 0x3018 0x01 0x01 .u64 .r false none 0 .none,
  ob 0x3018 0x3018 0x02 0x02 .u64 .r false none 0 .none,
  ob 0x3018 0x3018 0x03 0x03 .u64 .r false none 0 .none,
  ob 0x3018 0x3018 0x04 0x04 .u64 .r false none 0 .none,
  ob 0x3018 0x3018 0x05 0x05 .u64 .r false none 0 .none,
  ob 0x3018 0x3018 0x06 0x06 .u64 .r false none 0 .none,
  ob 0x3018 0x3018 0x07 0x07 .u64 .r false none 0 .none]

/-- Part 4 of the object tables, in the order of the chapters. -/
def objPart4 : List ObjDesc := [
  ob 0x3018 0x3018 0x08 0x08 .u64 .r false none 0 .none,
  ob 0x3020 0x3020 0x01 0x01 .u8 .opRw true (some (1, 15)) 12 .nextTick,
  ob 0x3028 0x3028 0x01 0x01 .u64 .r false none 0 .none,
  ob 0x3028 0x3028 0x02 0x02 .u64 .r false none 0 .none,
  ob 0x3028 0x3028 0x03 0x03 .u64 .r false none 0 .none,
  ob 0x3028 0x3028 0x04 0x04 .u64 .r false none 0 .none,
  ob 0x3028 0x3028 0x05 0x05 .u64 .r false none 0 .none,
  ob 0x3028 0x3028 0x06 0x06 .u64 .r false none 0 .none,
  ob 0x6000 0x63FF 0x20 0x20 .u32 .opRw true (some (0, 262144)) 0x40000 .nextTick,
  ob 0x6000 0x63FF 0x21 0x21 .u32 .r false none 0 .none,
  ob 0x6000 0x63FF 0x01 0x04 .u64 .tnRw true none 0 .nextTick,
  ob 0x6000 0x63FF 0x05 0x08 .u16 .tnRw true none 0 .nextTick,
  ob 0x6000 0x63FF 0x09 0x09 .u64 .tnRw true none 0 .nextTick,
  ob 0x6000 0x63FF 0x0A 0x0A .u16 .tnRw true none 0 .nextTick,
  ob 0x6000 0x63FF 0x0B 0x0B .u8 .r false none 0 .none,
  ob 0x6000 0x63FF 0x0C 0x0C .u16 .opRw true (some (1, 65535)) 16 .nextTick,
  ob 0x6000 0x63FF 0x0D 0x0D .u64 .r false none 0 .none,
  ob 0x6000 0x63FF 0x0E 0x0E .u8 .tnW false none 0 .nextTick,
  ob 0x6000 0x63FF 0x0F 0x0F .bool .tnW false none 0 .nextTick,
  ob 0x6000 0x63FF 0x10 0x10 .u64 .tnRw true none 0 .nextTick,
  ob 0x6000 0x63FF 0x1C 0x1F .u8 .tnOpR false none 0 .none,
  ob 0x5040 0x5040 0x01 0x01 .u32 .opRw true (some (256, 16384)) 2048 .nextReset,
  ob 0x5040 0x5040 0x02 0x02 .u32 .r false none 0 .none,
  ob 0x5040 0x5040 0x03 0x03 .u16 .r false none 0 .none,
  ob 0x5048 0x5048 0x01 0x01 .u64 .r false none 0 .none,
  ob 0x5048 0x5048 0x02 0x02 .u64 .r false none 0 .none,
  ob 0x5048 0x5048 0x03 0x03 .u64 .r false none 0 .none,
  ob 0x5048 0x5048 0x04 0x04 .u64 .r false none 0 .none,
  ob 0x5010 0x5010 0x01 0x01 .u16 .opRw true (some (128, 508)) 384 .nextTick,
  ob 0x5010 0x5010 0x02 0x02 .u16 .r false none 4992 .none,
  ob 0x5011 0x5011 0x01 0x01 .u16 .opRw true (some (1, 65535)) 60 .nextTick,
  ob 0x5011 0x5011 0x02 0x02 .u32 .opRw true (some (1024, 16777216)) 0x10000 .nextTick,
  ob 0x5011 0x5011 0x03 0x03 .u32 .opRw true (some (0, 1048576)) 8192 .nextTick,
  ob 0x5011 0x5011 0x04 0x04 .u32 .opRw true (some (0, 1048576)) 0x10000 .nextTick,
  ob 0x5018 0x5018 0x01 0x01 .u64 .r false none 0 .none,
  ob 0x5018 0x5018 0x02 0x02 .u64 .r false none 0 .none,
  ob 0x5018 0x5018 0x03 0x03 .u64 .r false none 0 .none,
  ob 0x5018 0x5018 0x04 0x04 .u64 .r false none 0 .none,
  ob 0x5018 0x5018 0x05 0x05 .u64 .r false none 0 .none,
  ob 0x5018 0x5018 0x06 0x06 .u64 .r false none 0 .none]

/-- Part 5 of the object tables, in the order of the chapters. -/
def objPart5 : List ObjDesc := [
  ob 0x5018 0x5018 0x07 0x07 .u64 .r false none 0 .none,
  ob 0x5018 0x5018 0x08 0x08 .u16 .r false none 0 .none,
  ob 0x6000 0x63FF 0x11 0x11 .u16 .opRw true (some (1, 65535)) 1 .nextTick,
  ob 0x6000 0x63FF 0x12 0x12 .u32 .opRw true none 0xffffffff .nextTick,
  ob 0x6000 0x63FF 0x13 0x13 .i64 .r false none 0 .none,
  ob 0x6000 0x63FF 0x14 0x17 .u64 .r false none 0 .none,
  ob 0x1010 0x1010 0x01 0x01 .u16 .opRw true (some (0, 4095)) 65535 .immediate,
  ob 0x1010 0x1010 0x02 0x02 .u8 .opRw true (some (0, 15)) 0 .nextReset,
  ob 0x1011 0x1011 0x01 0x10 .u8 .opRw true none 1 .nextReset,
  ob 0x1011 0x1011 0x11 0x20 .u8 .r false none 0 .none,
  ob 0x1011 0x1011 0x21 0x30 .u8 .r false none 0 .none,
  ob 0x1011 0x1011 0x31 0x40 .u32 .r false none 0 .none,
  ob 0x1011 0x1011 0x41 0x41 .u32 .opRw true (some (1, 1000000)) 1000 .nextTick,
  ob 0x1012 0x1012 0x01 0x08 .u16 .opRw true none 0 .nextReset,
  ob 0x1012 0x1012 0x09 0x0E .u8 .opRw true (some (1, 255)) 0 .nextTick,
  ob 0x1013 0x1013 0x01 0x01 .u32 .opRw true (some (64, 4096)) 512 .nextReset,
  ob 0x1013 0x1013 0x02 0x02 .u32 .opRw true (some (1024, 1048576)) 0x10000 .nextTick,
  ob 0x1013 0x1013 0x03 0x03 .u16 .opRw true (some (20, 10000)) 200 .nextTick,
  ob 0x1014 0x1014 0x01 0x01 .u16 .opRw true (some (1, 65535)) 4 .nextTick,
  ob 0x1015 0x1015 0x01 0x40 (.octets 2048) .opRw true none 0 .nextTick,
  ob 0x1016 0x1016 0x01 0x40 (.domain 64) .opRw true none 0 .nextTick,
  ob 0x1016 0x1016 0x41 0x41 .u16 .opRw true none 50200 .nextTick,
  ob 0x1017 0x1017 0x01 0x40 (.octets 19) .opRw true none 0 .nextTick,
  ob 0x1019 0x1019 0x01 0x10 (.octets 17) .opRw true none 0 .nextTick,
  ob 0x1100 0x111F 0x01 0x80 .u16 .opRw true none 0 .nextTick,
  ob 0x1120 0x113F 0x01 0x80 .u8 .opRw true none 0 .nextTick,
  ob 0x1018 0x1018 0x01 0x0C .u64 .r false none 0 .none,
  ob 0x6000 0x63FF 0x18 0x18 .u64 .tnRw true none 0 .nextTick,
  ob 0x6000 0x63FF 0x19 0x19 .u64 .tnRw true none 0 .nextTick,
  ob 0x7010 0x7010 0x01 0x01 (.octets 68) .r false none 0 .none,
  ob 0x7010 0x7010 0x02 0x02 .u8 .r false none 2 .none,
  ob 0x7010 0x7010 0x03 0x03 .u8 .r false none 2 .none,
  ob 0x7010 0x7010 0x04 0x04 .u64 .r false none 0 .none,
  ob 0x7010 0x7010 0x05 0x05 (.octets 68) .r false none 0 .none,
  ob 0x7011 0x7011 0x01 0x01 .u8 .opRw true (some (1, 16)) 2 .nextTick,
  ob 0x7011 0x7011 0x02 0x02 .u8 .opRw true (some (2, 16)) 4 .nextTick,
  ob 0x7011 0x7011 0x03 0x03 .u16 .opRw true (some (1, 65535)) 30 .nextTick,
  ob 0x7011 0x7011 0x04 0x04 .u8 .opRw true (some (1, 16)) 2 .nextTick,
  ob 0x7011 0x7011 0x05 0x05 .u8 .opRw true (some (2, 16)) 2 .nextTick,
  ob 0x7020 0x7020 0x01 0x01 (.octets 8192) .r false none 0 .none]

/-- Part 6 of the object tables, in the order of the chapters. -/
def objPart6 : List ObjDesc := [
  ob 0x7021 0x7021 0x01 0x01 .u64 .r false none 0 .none,
  ob 0x7021 0x7021 0x02 0x02 .u64 .r false none 0 .none,
  ob 0x7021 0x7021 0x03 0x03 .u64 .r false none 0 .none,
  ob 0x7021 0x7021 0x04 0x04 .u64 .r false none 0 .none,
  ob 0x7021 0x7021 0x05 0x05 .u64 .r false none 0 .none,
  ob 0x7021 0x7021 0x06 0x06 .u64 .r false none 0 .none,
  ob 0x7030 0x7030 0x01 0x01 .u16 .opRw true none 65535 .nextTick,
  ob 0x7030 0x7030 0x02 0x02 .u16 .opRw true none 65535 .nextTick,
  ob 0x7030 0x7030 0x03 0x03 .u16 .opRw true none 65535 .nextTick,
  ob 0x7030 0x7030 0x04 0x04 .u32 .opRw true (some (0, 2097151)) 0 .nextReset,
  ob 0x7030 0x7030 0x05 0x05 .u32 .opRw true (some (0, 2097151)) 0x1fffff .nextTick,
  ob 0x7030 0x7030 0x06 0x06 .u32 .opRw true (some (0, 16384)) 4096 .nextReset,
  ob 0x7031 0x7031 0x01 0x01 .u16 .opDictW false none 0 .immediate,
  ob 0x7031 0x7031 0x02 0x02 (.octets 16) .opRw true none 0 .nextTick,
  ob 0x7031 0x7031 0x03 0x03 (.octets 256) .opRw true none 0 .nextTick,
  ob 0x7031 0x7031 0x04 0x04 .u8 .r false none 0 .none,
  ob 0x7031 0x7031 0x05 0x05 .u32 .r true none 0 .none,
  ob 0x7031 0x7031 0x06 0x06 .bool .opPilotW false none 0 .immediate,
  ob 0x9010 0x9010 0x01 0x01 .u16 .opRw true (some (400, 1100)) 1000 .nextTick,
  ob 0x9010 0x9010 0x02 0x02 .u16 .opRw true (some (1, 10000)) 20 .nextTick,
  ob 0x9010 0x9010 0x03 0x03 .u16 .opRw true (some (0, 2000)) 300 .nextTick,
  ob 0x9010 0x9010 0x04 0x04 .u8 .opRw true (some (1, 64)) 2 .nextTick,
  ob 0x9010 0x9010 0x05 0x05 .u8 .opRw true (some (1, 64)) 8 .nextTick,
  ob 0x9010 0x9010 0x06 0x06 .u8 .opRw true (some (1, 32)) 16 .nextTick,
  ob 0x9011 0x9011 0x01 0x01 .u8 .opRw false (some (1, 64)) 64 .nextTick,
  ob 0x9011 0x9011 0x02 0x02 .u8 .pilotRw false (some (1, 64)) 64 .nextTick,
  ob 0x9012 0x9012 0x01 0x01 .u8 .opRw true (some (70, 105)) 100 .nextTick,
  ob 0x9012 0x9012 0x02 0x02 .u8 .opRw true (some (90, 115)) 110 .nextTick,
  ob 0x9012 0x9012 0x03 0x03 .u8 .opRw true (some (1, 32)) 8 .nextTick,
  ob 0x9012 0x9012 0x04 0x04 .u8 .opRw true (some (1, 32)) 4 .nextTick,
  ob 0x9013 0x9013 0x01 0x01 .u8 .opRw true (some (10, 49)) 25 .nextTick,
  ob 0x9020 0x9020 0x01 0x01 .u8 .r false none 64 .none,
  ob 0x9020 0x9020 0x02 0x06 .u8 .r false none 64 .none,
  ob 0x9020 0x9020 0x07 0x07 .u16 .r false none 0 .none,
  ob 0x9020 0x9020 0x08 0x08 .u64 .r false none 0 .none,
  ob 0x9020 0x9020 0x09 0x09 .i16 .r false none 0 .none,
  ob 0x9020 0x9020 0x0A 0x0A (.octets 32) .r false none 0 .none,
  ob 0x9021 0x9021 0x01 0x05 .u64 .r false none 0 .none,
  ob 0x9021 0x9021 0x06 0x0A .u64 .r false none 0 .none,
  ob 0x9021 0x9021 0x0B 0x0B .u64 .r false none 0 .none]

/-- Part 7 of the object tables, in the order of the chapters. -/
def objPart7 : List ObjDesc := [
  ob 0x9021 0x9021 0x0C 0x0C .u32 .r true none 0 .none,
  ob 0x9022 0x9022 0x01 0x01 .domainAny .r false none 0 .none,
  ob 0x9030 0x9030 0x01 0x01 .domainAny .r false none 0 .none,
  ob 0x9040 0x9040 0x01 0x01 .u8 .r false none 0 .none,
  ob 0x9040 0x9040 0x02 0x02 .u8 .opW false none 0 .immediate,
  ob 0x9040 0x9040 0x03 0x03 .u16 .opRw true (some (1, 65535)) 4 .nextTick,
  ob 0x9040 0x9040 0x04 0x04 .u64 .r false none 0 .none,
  ob 0x9040 0x9040 0x05 0x05 .u64 .r false none 0 .none,
  ob 0x9041 0x9041 0x01 0x40 .u32 .opRw true none 0 .nextTick,
  ob 0x9042 0x9042 0x01 0x40 .i16 .r false none 0 .none,
  ob 0x9043 0x9043 0x01 0x20 .u64 .opRw true none 0 .nextTick,
  ob 0x9044 0x9044 0x01 0x01 .u32 .r false none 0 .none,
  ob 0x9045 0x9045 0x01 0x01 .u16 .opRw true (some (100, 10000)) 1000 .nextReset,
  ob 0x9045 0x9045 0x02 0x02 .u16 .opRw true (some (20, 1000)) 100 .nextReset,
  ob 0x8010 0x8010 0x01 0x01 (.octets 32) .r false none 0 .none,
  ob 0x8010 0x8010 0x02 0x02 (.octets 32) .r false none 0 .none,
  ob 0x8010 0x8010 0x03 0x03 (.octets 0) .r false none 0 .none,
  ob 0x8010 0x8010 0x04 0x04 (.octets 65) .r false none 0 .none,
  ob 0x8011 0x8011 0x01 0x01 .domainAny .vOpW false none 0 .nextReset,
  ob 0x8011 0x8011 0x02 0x05 (.octets 32) .r false none 0 .none,
  ob 0x8011 0x8011 0x06 0x09 .u32 .r true none 0 .none,
  ob 0x8011 0x8011 0x0A 0x0A .u8 .ownerW false none 0 .immediate,
  ob 0x8030 0x8030 0x01 0x01 (.domain 129) .installerW false none 0 .immediate,
  ob 0x8030 0x8030 0x02 0x02 (.octets 32) .r true none 0 .none,
  ob 0x8030 0x8030 0x03 0x03 (.octets 32) .r false none 0 .none,
  ob 0x8040 0x8040 0x01 0x01 (.domain 160) .ownerW false none 0 .immediate,
  ob 0x8040 0x8040 0x02 0x02 (.domain 32) .ownerW false none 0 .immediate,
  ob 0x8040 0x8040 0x03 0x03 .u16 .r false none 0 .none,
  ob 0x8040 0x8040 0x04 0x04 (.octets 32) .r false none 0 .none,
  ob 0x8041 0x8042 0x01 0x80 (.octets 160) .r true none 0 .none,
  ob 0x8050 0x8050 0x01 0x01 .u16 .opRw true (some (10, 3600)) 60 .immediate,
  ob 0x8050 0x8050 0x02 0x02 .u8 .r false none 0 .none,
  ob 0x8070 0x8070 0x01 0x01 (.domain 32) .anyW false none 0 .nextTick,
  ob 0x8070 0x8070 0x02 0x02 .domainAny .rSession false none 0 .none,
  ob 0x8080 0x8080 0x01 0x01 .u64 .r false none 0 .none,
  ob 0x8080 0x8080 0x02 0x02 .u64 .r false none 0 .none,
  ob 0x8090 0x8090 0x01 0x01 (.domain 6) .ownerW false none 0 .nextTick,
  ob 0x8090 0x8090 0x02 0x02 (.domain 6) .ownerW false none 0 .nextTick,
  ob 0x8091 0x8092 0x01 0x80 (.octets 6) .r true none 0 .none,
  ob 0x6000 0x63FF 0x1A 0x1A .u32 .opRw true (some (0, 65536)) 0 .nextTick]

/-- Part 8 of the object tables, in the order of the chapters. -/
def objPart8 : List ObjDesc := [
  ob 0x6000 0x63FF 0x1B 0x1B .domainAny .tnOpR false none 0 .none,
  ob 0x1000 0x1000 0x01 0x01 .u32 .r false none 0xb12000a .none,
  ob 0x1000 0x1000 0x02 0x02 (.octets 16) .r false none 0 .none,
  ob 0x1000 0x1000 0x03 0x03 .u8 .r false none 0 .none,
  ob 0x1000 0x1000 0x04 0x04 .u16 .r false none 1 .none,
  ob 0x1001 0x1001 0x01 0x02 (.octets 17) .opRw true none 0 .nextReset,
  ob 0x1001 0x1001 0x03 0x03 .u16 .opRw true (some (1024, 65535)) 50100 .nextReset,
  ob 0x1002 0x1002 0x01 0x01 .u64 .r false none 0 .none,
  ob 0x1002 0x1002 0x02 0x02 .bool .ownerW true none 0 .nextTick,
  ob 0x1003 0x1003 0x01 0x01 .u16 .r false none 0 .none,
  ob 0x1003 0x1003 0x02 0x02 .u32 .r false none 0 .none,
  ob 0x1003 0x1003 0x03 0x03 .bool .ownerW false none 0 .nextReset,
  ob 0xA000 0xA000 0x01 0x01 .bool .anyW false none 0 .nextTick,
  ob 0xA000 0xA000 0x02 0x02 .domainAny .rSession false none 0 .none,
  ob 0xA001 0xA001 0x01 0x01 .u64 .r false none 0 .none,
  ob 0xA001 0xA001 0x02 0x02 .u64 .r false none 0 .none,
  ob 0xA001 0xA001 0x03 0x03 .u64 .r false none 0 .none,
  ob 0xA001 0xA001 0x04 0x04 .u64 .r false none 0 .none,
  ob 0xA001 0xA001 0x05 0x05 .u64 .r false none 0 .none,
  ob 0xA001 0xA001 0x06 0x06 .u64 .r false none 0 .none,
  ob 0xA001 0xA001 0x07 0x07 .u64 .r false none 0 .none,
  ob 0xF001 0xF001 0x01 0x01 .u64 .opRw false none 0 .immediate,
  ob 0xF001 0xF001 0x02 0x02 (.octets 524288) .opR false none 0 .none,
  ob 0xF001 0xF001 0x03 0x03 .u8 .opR false none 0 .none,
  ob 0xF070 0xF070 0x01 0x01 .u16 .voRw false none 0 .immediate,
  ob 0xF070 0xF070 0x02 0x02 (.octets 238336) .voR false none 0 .none,
  ob 0xF070 0xF070 0x03 0x03 (.octets 245760) .voR false none 0 .none,
  ob 0x1004 0x1004 0x01 0x01 .u8 .r false none 0 .none,
  ob 0x1004 0x1004 0x02 0x02 .u8 .r false none 0 .none,
  ob 0x1004 0x1004 0x03 0x03 .bool .opRw false none 0 .nextTick,
  ob 0x1004 0x1004 0x04 0x04 .bool .r true none 0 .none,
  ob 0x1004 0x1004 0x05 0x05 .u8 .r false none 0 .none,
  ob 0x1004 0x1004 0x06 0x06 .u32 .r false none 0 .none,
  ob 0x1005 0x1005 0x01 0x01 .bool .opW false none 0 .immediate,
  ob 0x1005 0x1005 0x02 0x02 .u16 .opW false none 0 .immediate,
  ob 0x1005 0x1005 0x03 0x03 .u8 .opW false (some (0, 103)) 0 .immediate,
  ob 0x1011 0x1011 0x42 0x42 .u64 .opRw true none 0 .nextReset,
  ob 0x1011 0x1011 0x43 0x43 .u64 .opRw true none 0 .nextReset,
  ob 0x9046 0x9046 0x01 0x01 .u16 .r false none 0 .none,
  ob 0x9046 0x9046 0x02 0x02 (.octets 14) .r false none 0 .none]

/-- Part 9 of the object tables, in the order of the chapters. -/
def objPart9 : List ObjDesc := [
  ob 0x3046 0x3046 0x01 0x40 (.octets 36) .r false none 0 .none,
  ob 0xF020 0xF063 0x01 0x10 .u64 .vooR false none 0 .none]

/-- Every row of the object tables. -/
def objTable : List ObjDesc :=
  objPart0 ++ objPart1 ++ objPart2 ++ objPart3 ++ objPart4 ++ objPart5 ++ objPart6 ++ objPart7 ++ objPart8 ++ objPart9

/-! ### Keys: index·256 + subindex of each object, or of the first of a series -/

/-- 0x2010:01 TickPeriodNs. -/
def oTickPeriodNs : Nat := 0x201001

/-- 0x2010:02 TickPeriodFracNum. -/
def oTickPeriodFracNum : Nat := 0x201002

/-- 0x2010:03 TickPeriodFracDen. -/
def oTickPeriodFracDen : Nat := 0x201003

/-- 0x2010:04 TickEpochNs. -/
def oTickEpochNs : Nat := 0x201004

/-- 0x2010:05 TickBaseNo. -/
def oTickBaseNo : Nat := 0x201005

/-- 0x2010:06 TickRegridNo. -/
def oTickRegridNo : Nat := 0x201006

/-- 0x2010:07 TickPendingValid. -/
def oTickPendingValid : Nat := 0x201007

/-- 0x2011:01 TickAdmitNs. -/
def oTickAdmitNs : Nat := 0x201101

/-- 0x2011:02 TickLateBp. -/
def oTickLateBp : Nat := 0x201102

/-- 0x2011:03 TickCheckBp. -/
def oTickCheckBp : Nat := 0x201103

/-- 0x2011:04 TickAdmitFractionBp. -/
def oTickAdmitFractionBp : Nat := 0x201104

/-- 0x2012:01 TickSourceMask. -/
def oTickSourceMask : Nat := 0x201201

/-- 0x2012:03 TickSyncWindowNs. -/
def oTickSyncWindowNs : Nat := 0x201203

/-- 0x2012:04 TickSlewMaxPpm. -/
def oTickSlewMaxPpm : Nat := 0x201204

/-- 0x2012:05 TickHoldoverLimitMs. -/
def oTickHoldoverLimitMs : Nat := 0x201205

/-- 0x2012:06 TickLockThresholdNs. -/
def oTickLockThresholdNs : Nat := 0x201206

/-- 0x2013:01–04 SyncPinFunction0–3. -/
def oSyncPinFunction : Nat := 0x201301

/-- 0x2013:05 SyncOutPulseNs. -/
def oSyncOutPulseNs : Nat := 0x201305

/-- 0x2020:01 TickNo. -/
def oTickNo : Nat := 0x202001

/-- 0x2020:02 TickSourceState. -/
def oTickSourceState : Nat := 0x202002

/-- 0x2020:03 TickSourceActive. -/
def oTickSourceActive : Nat := 0x202003

/-- 0x2020:04 TickPhaseErrorNs. -/
def oTickPhaseErrorNs : Nat := 0x202004

/-- 0x2020:05 TickLengthNs. -/
def oTickLengthNs : Nat := 0x202005

/-- 0x2020:06 TickLateCount. -/
def oTickLateCount : Nat := 0x202006

/-- 0x2020:07 TickSlipCount. -/
def oTickSlipCount : Nat := 0x202007

/-- 0x2020:08 SyncMissedCount. -/
def oSyncMissedCount : Nat := 0x202008

/-- 0x2020:09 SyncOutOfWindowCount. -/
def oSyncOutOfWindowCount : Nat := 0x202009

/-- 0x4020:01 GriddleSatTileCount. -/
def oGriddleSatTileCount : Nat := 0x402001

/-- 0x4020:02 GriddleBoundLapsedCount. -/
def oGriddleBoundLapsedCount : Nat := 0x402002

/-- 0x4020:03 GriddleRebaseCount. -/
def oGriddleRebaseCount : Nat := 0x402003

/-- 0x4020:04 DrainClipCount. -/
def oDrainClipCount : Nat := 0x402004

/-- 0x4020:05 DrainGroupCount. -/
def oDrainGroupCount : Nat := 0x402005

/-- 0x4020:06 DrainExactGroupCount. -/
def oDrainExactGroupCount : Nat := 0x402006

/-- 0x4010:01 SaveSlotCount. -/
def oSaveSlotCount : Nat := 0x401001

/-- 0x4021:01 CheckCompareCount. -/
def oCheckCompareCount : Nat := 0x402101

/-- 0x4021:02 CheckFailCount. -/
def oCheckFailCount : Nat := 0x402102

/-- 0x4021:03 CheckNaCount. -/
def oCheckNaCount : Nat := 0x402103

/-- 0x4021:04 SpillPassCount. -/
def oSpillPassCount : Nat := 0x402104

/-- 0x4021:05 PauseSaveCount. -/
def oPauseSaveCount : Nat := 0x402105

/-- 0x4021:06 PlaneSkipCount. -/
def oPlaneSkipCount : Nat := 0x402106

/-- 0x4021:07 PauseDeferredCount. -/
def oPauseDeferredCount : Nat := 0x402107

/-- 0x4021:08 PrecisionDistressCount. -/
def oPrecisionDistressCount : Nat := 0x402108

/-- 0x4021:09 AdaptiveA4StepTicks. -/
def oAdaptiveA4StepTicks : Nat := 0x402109

/-- 0xF010:01 DebugMode. -/
def oDebugMode : Nat := 0xF01001

/-- 0x4012:01 GateMissLimitBp. -/
def oGateMissLimitBp : Nat := 0x401201

/-- 0x4012:02 GateOffTicks. -/
def oGateOffTicks : Nat := 0x401202

/-- 0x4022:01 SparseSxdSegmentCount. -/
def oSparseSxdSegmentCount : Nat := 0x402201

/-- 0x4022:02 SparseSxsSegmentCount. -/
def oSparseSxsSegmentCount : Nat := 0x402202

/-- 0x4022:03 SparseDenseChoiceCount. -/
def oSparseDenseChoiceCount : Nat := 0x402203

/-- 0x4022:04 MatchRowOverflowCount. -/
def oMatchRowOverflowCount : Nat := 0x402204

/-- 0x4022:05 MatchSetOverflowCount. -/
def oMatchSetOverflowCount : Nat := 0x402205

/-- 0x4022:06 SparseMetaCount. -/
def oSparseMetaCount : Nat := 0x402206

/-- 0x4022:07 GatePredictedBlockCount. -/
def oGatePredictedBlockCount : Nat := 0x402207

/-- 0x4022:08 GateActiveBlockCount. -/
def oGateActiveBlockCount : Nat := 0x402208

/-- 0x4022:09 GateMakeUpBlockCount. -/
def oGateMakeUpBlockCount : Nat := 0x402209

/-- 0x4022:0A GateWastedBlockCount. -/
def oGateWastedBlockCount : Nat := 0x40220A

/-- 0x4022:0B GateOffCount. -/
def oGateOffCount : Nat := 0x40220B

/-- 0x4023:01 WhiskProgramBlockCount. -/
def oWhiskProgramBlockCount : Nat := 0x402301

/-- 0x4023:02 WhiskClipStepCount. -/
def oWhiskClipStepCount : Nat := 0x402302

/-- 0x4023:03 WhiskEmptyCount. -/
def oWhiskEmptyCount : Nat := 0x402303

/-- 0x4023:04 WhiskTableEdgeCount. -/
def oWhiskTableEdgeCount : Nat := 0x402304

/-- 0x4023:05 WhiskCheckCount. -/
def oWhiskCheckCount : Nat := 0x402305

/-- 0x4023:06 FusedNarrowCount. -/
def oFusedNarrowCount : Nat := 0x402306

/-- 0x5030:01 KvPoolPagesCfg. -/
def oKvPoolPagesCfg : Nat := 0x503001

/-- 0x5030:02 KvPoolPages. -/
def oKvPoolPages : Nat := 0x503002

/-- 0x5030:03 KvPagesFree. -/
def oKvPagesFree : Nat := 0x503003

/-- 0x5030:04 KvPagesReserved. -/
def oKvPagesReserved : Nat := 0x503004

/-- 0x5030:05 KvTableMiB. -/
def oKvTableMiB : Nat := 0x503005

/-- 0x5031:01 SpecRejectRounds. -/
def oSpecRejectRounds : Nat := 0x503101

/-- 0x5031:02 SpecAcceptRounds. -/
def oSpecAcceptRounds : Nat := 0x503102

/-- 0x5031:03 SpecOffTicks. -/
def oSpecOffTicks : Nat := 0x503103

/-- 0x5038:01 KvAppendCount. -/
def oKvAppendCount : Nat := 0x503801

/-- 0x5038:02 KvEvictCount. -/
def oKvEvictCount : Nat := 0x503802

/-- 0x5038:03 KvPageFreeCount. -/
def oKvPageFreeCount : Nat := 0x503803

/-- 0x5038:04 KvPoolDeferCount. -/
def oKvPoolDeferCount : Nat := 0x503804

/-- 0x5038:05 KvVClipCount. -/
def oKvVClipCount : Nat := 0x503805

/-- 0x5038:06 KvMetaCount. -/
def oKvMetaCount : Nat := 0x503806

/-- 0x5038:07 KvCompactPageCount. -/
def oKvCompactPageCount : Nat := 0x503807

/-- 0x5038:08 SpecRoundCount. -/
def oSpecRoundCount : Nat := 0x503808

/-- 0x5038:09 SpecAllRejectCount. -/
def oSpecAllRejectCount : Nat := 0x503809

/-- 0x5038:0A SpecAcceptedTokenCount. -/
def oSpecAcceptedTokenCount : Nat := 0x50380A

/-- 0x4013:01 PrefetchDepthSteps. -/
def oPrefetchDepthSteps : Nat := 0x401301

/-- 0x4024:01 TileEccCorrectedCount. -/
def oTileEccCorrectedCount : Nat := 0x402401

/-- 0x4024:02 TileEccUncorrectableCount. -/
def oTileEccUncorrectableCount : Nat := 0x402402

/-- 0x4024:03 TileScrubSweepCount. -/
def oTileScrubSweepCount : Nat := 0x402403

/-- 0x4024:04 HopperFullStallCycles. -/
def oHopperFullStallCycles : Nat := 0x402404

/-- 0x4024:05 HopperEmptyStallCycles. -/
def oHopperEmptyStallCycles : Nat := 0x402405

/-- 0x4024:06 HopperBindWaitCount. -/
def oHopperBindWaitCount : Nat := 0x402406

/-- 0x4024:07 TileStoreHardCount. -/
def oTileStoreHardCount : Nat := 0x402407

/-- 0x3040:01 IngotCapacitySectors. -/
def oIngotCapacitySectors : Nat := 0x304001

/-- 0x3040:02 IngotFreeSectors. -/
def oIngotFreeSectors : Nat := 0x304002

/-- 0x3040:03 IngotLargestFreeRun. -/
def oIngotLargestFreeRun : Nat := 0x304003

/-- 0x3040:04 IngotSparesLeftMin. -/
def oIngotSparesLeftMin : Nat := 0x304004

/-- 0x3040:05 IngotMaxSectorWrites. -/
def oIngotMaxSectorWrites : Nat := 0x304005

/-- 0x3040:06 CastStagingEntries. -/
def oCastStagingEntries : Nat := 0x304006

/-- 0x3041:01 CastOpen. -/
def oCastOpen : Nat := 0x304101

/-- 0x3041:02 CastStagingBase. -/
def oCastStagingBase : Nat := 0x304102

/-- 0x3041:03 CastStagingHead. -/
def oCastStagingHead : Nat := 0x304103

/-- 0x3041:04 CastStagingTail. -/
def oCastStagingTail : Nat := 0x304104

/-- 0x3041:05 CastAbort. -/
def oCastAbort : Nat := 0x304105

/-- 0x3041:06 CastSession. -/
def oCastSession : Nat := 0x304106

/-- 0x3041:07 CastLastResult. -/
def oCastLastResult : Nat := 0x304107

/-- 0x3041:08 CastAdopt. -/
def oCastAdopt : Nat := 0x304108

/-- 0x3041:09 CastDelete. -/
def oCastDelete : Nat := 0x304109

/-- 0x3041:0A CastProgressSectors. -/
def oCastProgressSectors : Nat := 0x30410A

/-- 0x3042:01–40 CastState0–63. -/
def oCastState : Nat := 0x304201

/-- 0x3043:01–40 CastPointer0–63. -/
def oCastPointer : Nat := 0x304301

/-- 0x3044:01–40 CastPinCount0–63. -/
def oCastPinCount : Nat := 0x304401

/-- 0x3045:01 PatrolRateMBps. -/
def oPatrolRateMBps : Nat := 0x304501

/-- 0x3045:02 RefreshBits. -/
def oRefreshBits : Nat := 0x304502

/-- 0x3045:03 RepairLimitTicks. -/
def oRepairLimitTicks : Nat := 0x304503

/-- 0x3048:01 IngotCorrectedBlockCount. -/
def oIngotCorrectedBlockCount : Nat := 0x304801

/-- 0x3048:02 IngotReadRetryCount. -/
def oIngotReadRetryCount : Nat := 0x304802

/-- 0x3048:03 IngotUncorrectableCount. -/
def oIngotUncorrectableCount : Nat := 0x304803

/-- 0x3048:04 IngotCrcCount. -/
def oIngotCrcCount : Nat := 0x304804

/-- 0x3048:05 IngotTritCodeCount. -/
def oIngotTritCodeCount : Nat := 0x304805

/-- 0x3048:06 SectorRemapCount. -/
def oSectorRemapCount : Nat := 0x304806

/-- 0x3048:07 SectorRefreshCount. -/
def oSectorRefreshCount : Nat := 0x304807

/-- 0x3048:08 SectorRepairCount. -/
def oSectorRepairCount : Nat := 0x304808

/-- 0x3048:09 PatrolSweepCount. -/
def oPatrolSweepCount : Nat := 0x304809

/-- 0x3050:01 VariantPoolMiB. -/
def oVariantPoolMiB : Nat := 0x305001

/-- 0x3050:02 VariantPoolFreeMiB. -/
def oVariantPoolFreeMiB : Nat := 0x305002

/-- 0x3051:01 VariantLoad. -/
def oVariantLoad : Nat := 0x305101

/-- 0x3051:02 VariantSession. -/
def oVariantSession : Nat := 0x305102

/-- 0x3051:03 VariantLastResult. -/
def oVariantLastResult : Nat := 0x305103

/-- 0x3051:04 VariantAbort. -/
def oVariantAbort : Nat := 0x305104

/-- 0x3051:05 VariantDelete. -/
def oVariantDelete : Nat := 0x305105

/-- 0x3051:06 VariantLoadProgress. -/
def oVariantLoadProgress : Nat := 0x305106

/-- 0x3060:01–0x3063:80 VariantState0–511. -/
def oVariantState : Nat := 0x306001

/-- 0x3064:01–0x3067:80 VariantPinCount0–511. -/
def oVariantPinCount : Nat := 0x306401

/-- 0x3068:01–0x306F:80 VariantPointer0–1023. -/
def oVariantPointer : Nat := 0x306801

/-- 0x3058:01 VariantLoadCount. -/
def oVariantLoadCount : Nat := 0x305801

/-- 0x3058:02 FollowRepinCount. -/
def oFollowRepinCount : Nat := 0x305802

/-- 0x4025:01 SieveChangeCount. -/
def oSieveChangeCount : Nat := 0x402501

/-- 0x4025:02 SieveRecordCount. -/
def oSieveRecordCount : Nat := 0x402502

/-- 0x4025:03 SieveRawBypassCount. -/
def oSieveRawBypassCount : Nat := 0x402503

/-- 0x4025:04 SieveStallCycles. -/
def oSieveStallCycles : Nat := 0x402504

/-- 0x4025:05 SieveTableWaitCycles. -/
def oSieveTableWaitCycles : Nat := 0x402505

/-- 0x4025:06 SieveCheckCount. -/
def oSieveCheckCount : Nat := 0x402506

/-- 0x3010:01 DramCapacityMiB. -/
def oDramCapacityMiB : Nat := 0x301001

/-- 0x3010:02 DramLiveFrames. -/
def oDramLiveFrames : Nat := 0x301002

/-- 0x3010:03 DramReserveChannels. -/
def oDramReserveChannels : Nat := 0x301003

/-- 0x3010:04 DramReserveLeft. -/
def oDramReserveLeft : Nat := 0x301004

/-- 0x3010:05 ChannelMapCount. -/
def oChannelMapCount : Nat := 0x301005

/-- 0x3010:06 ChannelMapList. -/
def oChannelMapList : Nat := 0x301006

/-- 0x3011:01 ChannelRetryLimit. -/
def oChannelRetryLimit : Nat := 0x301101

/-- 0x3011:02 ChannelUeLimit. -/
def oChannelUeLimit : Nat := 0x301102

/-- 0x3011:03 MapOutCopyMBps. -/
def oMapOutCopyMBps : Nat := 0x301103

/-- 0x3011:04 DramScrubMinutes. -/
def oDramScrubMinutes : Nat := 0x301104

/-- 0x3011:05 ChannelMapOut. -/
def oChannelMapOut : Nat := 0x301105

/-- 0x3012:01–0C StackTempC0–11. -/
def oStackTempC : Nat := 0x301201

/-- 0x3012:11–1C StackThermalState0–11. -/
def oStackThermalState : Nat := 0x301211

/-- 0x3013:01–0x3015:80 ChannelState0–383. -/
def oChannelState : Nat := 0x301301

/-- 0x3018:01 DramEccCorrectedCount. -/
def oDramEccCorrectedCount : Nat := 0x301801

/-- 0x3018:02 DramEccUncorrectableCount. -/
def oDramEccUncorrectableCount : Nat := 0x301802

/-- 0x3018:03 DramParityRetryCount. -/
def oDramParityRetryCount : Nat := 0x301803

/-- 0x3018:04 DramLostLineCount. -/
def oDramLostLineCount : Nat := 0x301804

/-- 0x3018:05 DramRestoredLineCount. -/
def oDramRestoredLineCount : Nat := 0x301805

/-- 0x3018:06 ChannelMapOutCount. -/
def oChannelMapOutCount : Nat := 0x301806

/-- 0x3018:07 StackCriticalCount. -/
def oStackCriticalCount : Nat := 0x301807

/-- 0x3018:08 DramDeadReadCount. -/
def oDramDeadReadCount : Nat := 0x301808

/-- 0x3020:01 KeepWaysMax. -/
def oKeepWaysMax : Nat := 0x302001

/-- 0x3028:01 PantryHitCount. -/
def oPantryHitCount : Nat := 0x302801

/-- 0x3028:02 PantryMissCount. -/
def oPantryMissCount : Nat := 0x302802

/-- 0x3028:03 PantryEccCorrectedCount. -/
def oPantryEccCorrectedCount : Nat := 0x302803

/-- 0x3028:04 PantryWayDisableCount. -/
def oPantryWayDisableCount : Nat := 0x302804

/-- 0x3028:05 PantryAtomicCount. -/
def oPantryAtomicCount : Nat := 0x302805

/-- 0x3028:06 PantryReduceCount. -/
def oPantryReduceCount : Nat := 0x302806

/-- 0x6000 + n:20 PantryQuotaKiB. -/
def oPantryQuotaKiB : Nat := 0x600020

/-- 0x6000 + n:21 PantryUseKiB. -/
def oPantryUseKiB : Nat := 0x600021

/-- 0x6000 + n:01–04 SubRingBase0–3. -/
def oSubRingBase : Nat := 0x600001

/-- 0x6000 + n:05–08 SubRingEntries0–3. -/
def oSubRingEntries : Nat := 0x600005

/-- 0x6000 + n:09 CplRingBase. -/
def oCplRingBase : Nat := 0x600009

/-- 0x6000 + n:0A CplRingEntries. -/
def oCplRingEntries : Nat := 0x60000A

/-- 0x6000 + n:0B RingState. -/
def oRingState : Nat := 0x60000B

/-- 0x6000 + n:0C RingFaultLimit. -/
def oRingFaultLimit : Nat := 0x60000C

/-- 0x6000 + n:0D TenantFaultCount. -/
def oTenantFaultCount : Nat := 0x60000D

/-- 0x6000 + n:0E RingResume. -/
def oRingResume : Nat := 0x60000E

/-- 0x6000 + n:0F TenantReset. -/
def oTenantReset : Nat := 0x60000F

/-- 0x6000 + n:10 NoticeTarget. -/
def oNoticeTarget : Nat := 0x600010

/-- 0x6000 + n:1C–1F RingSuspendCause0–3. -/
def oRingSuspendCause : Nat := 0x60001C

/-- 0x5040:01 ScratchPoolMiB. -/
def oScratchPoolMiB : Nat := 0x504001

/-- 0x5040:02 ScratchFreeMiB. -/
def oScratchFreeMiB : Nat := 0x504002

/-- 0x5040:03 RequestsInFlight. -/
def oRequestsInFlight : Nat := 0x504003

/-- 0x5048:01 RequestRefusedCount. -/
def oRequestRefusedCount : Nat := 0x504801

/-- 0x5048:02 RequestHeldCount. -/
def oRequestHeldCount : Nat := 0x504802

/-- 0x5048:03 RingSuspendCount. -/
def oRingSuspendCount : Nat := 0x504803

/-- 0x5048:04 TenantResetCount. -/
def oTenantResetCount : Nat := 0x504804

/-- 0x5010:01 StreamIngotShareBpc. -/
def oStreamIngotShareBpc : Nat := 0x501001

/-- 0x5010:02 DenseStagingBpc. -/
def oDenseStagingBpc : Nat := 0x501002

/-- 0x5011:01 BudgetWindowTicks. -/
def oBudgetWindowTicks : Nat := 0x501101

/-- 0x5011:02 DrrQuantumCycles. -/
def oDrrQuantumCycles : Nat := 0x501102

/-- 0x5011:03 PassPauseSlackCycles. -/
def oPassPauseSlackCycles : Nat := 0x501103

/-- 0x5011:04 SparseHeaderLimit. -/
def oSparseHeaderLimit : Nat := 0x501104

/-- 0x5018:01 AdmitCount. -/
def oAdmitCount : Nat := 0x501801

/-- 0x5018:02 AdmitDeferredCount. -/
def oAdmitDeferredCount : Nat := 0x501802

/-- 0x5018:03 BudgetDeferCount. -/
def oBudgetDeferCount : Nat := 0x501803

/-- 0x5018:04 OversizeAdmitCount. -/
def oOversizeAdmitCount : Nat := 0x501804

/-- 0x5018:05 DeadlineMissCount. -/
def oDeadlineMissCount : Nat := 0x501805

/-- 0x5018:06 LiveWaitTicks. -/
def oLiveWaitTicks : Nat := 0x501806

/-- 0x5018:07 LateMarkPauseCount. -/
def oLateMarkPauseCount : Nat := 0x501807

/-- 0x5018:08 StepsInFlight. -/
def oStepsInFlight : Nat := 0x501808

/-- 0x6000 + n:11 TenantWeight. -/
def oTenantWeight : Nat := 0x600011

/-- 0x6000 + n:12 TenantTokenBudget. -/
def oTenantTokenBudget : Nat := 0x600012

/-- 0x6000 + n:13 TenantTokensLeft. -/
def oTenantTokensLeft : Nat := 0x600013

/-- 0x6000 + n:14–17 TenantDeficit0–3. -/
def oTenantDeficit : Nat := 0x600014

/-- 0x1010:01 ChipId. -/
def oChipId : Nat := 0x101001

/-- 0x1010:02 PilotListenPort. -/
def oPilotListenPort : Nat := 0x101002

/-- 0x1011:01–10 PortMode0–15. -/
def oPortMode : Nat := 0x101101

/-- 0x1011:11–20 PortState0–15. -/
def oPortState : Nat := 0x101111

/-- 0x1011:21–30 PortWidth0–15. -/
def oPortWidth : Nat := 0x101121

/-- 0x1011:31–40 PortRttNs0–15. -/
def oPortRttNs : Nat := 0x101131

/-- 0x1011:41 LaneUncorrLimit. -/
def oLaneUncorrLimit : Nat := 0x101141

/-- 0x1012:01–08 VcCredits0–7. -/
def oVcCredits : Nat := 0x101201

/-- 0x1012:09–0E VcWeight2–7. -/
def oVcWeight : Nat := 0x101209

/-- 0x1013:01 FlowStoreMiB. -/
def oFlowStoreMiB : Nat := 0x101301

/-- 0x1013:02 FlowWindowBursts. -/
def oFlowWindowBursts : Nat := 0x101302

/-- 0x1013:03 FlowTimeoutUs. -/
def oFlowTimeoutUs : Nat := 0x101303

/-- 0x1014:01 CollectiveTimeoutTicks. -/
def oCollectiveTimeoutTicks : Nat := 0x101401

/-- 0x1015:01–40 CollectiveGroup0–63. -/
def oCollectiveGroup : Nat := 0x101501

/-- 0x1016:01–40 IngestChannel0–63. -/
def oIngestChannel : Nat := 0x101601

/-- 0x1016:41 IngestUdpPort. -/
def oIngestUdpPort : Nat := 0x101641

/-- 0x1017:01–40 NoticeDest0–63. -/
def oNoticeDest : Nat := 0x101701

/-- 0x1019:01–10 LinkWindow0–15. -/
def oLinkWindow : Nat := 0x101901

/-- 0x1100:01–0x111F:80 RouteEntry0–4095. -/
def oRouteEntry : Nat := 0x110001

/-- 0x1120:01–0x113F:80 PeerRights0–4095. -/
def oPeerRights : Nat := 0x112001

/-- 0x1018:01–0C LinkCrcErrorCount … NoticeSentCount. -/
def oLinkCounter : Nat := 0x101801

/-- 0x6000 + n:18 PutWindowBase. -/
def oPutWindowBase : Nat := 0x600018

/-- 0x6000 + n:19 PutWindowBytes. -/
def oPutWindowBytes : Nat := 0x600019

/-- 0x7010:01 GriddleMap. -/
def oGriddleMap : Nat := 0x701001

/-- 0x7010:02 DenseSparesLeft. -/
def oDenseSparesLeft : Nat := 0x701002

/-- 0x7010:03 StreamSparesLeft. -/
def oStreamSparesLeft : Nat := 0x701003

/-- 0x7010:04 GriddleOutMask. -/
def oGriddleOutMask : Nat := 0x701004

/-- 0x7010:05 SieveMap. -/
def oSieveMap : Nat := 0x701005

/-- 0x7011:01 UnitFaultLimit. -/
def oUnitFaultLimit : Nat := 0x701101

/-- 0x7011:02 ReplayLimit. -/
def oReplayLimit : Nat := 0x701102

/-- 0x7011:03 ThermalRecastTicks. -/
def oThermalRecastTicks : Nat := 0x701103

/-- 0x7011:04 HandoverTicks. -/
def oHandoverTicks : Nat := 0x701104

/-- 0x7011:05 WardMissTicks. -/
def oWardMissTicks : Nat := 0x701105

/-- 0x7020:01 FaultLog. -/
def oFaultLog : Nat := 0x702001

/-- 0x7021:01 RequestReplayCount. -/
def oRequestReplayCount : Nat := 0x702101

/-- 0x7021:02 SelfTestSliceCount. -/
def oSelfTestSliceCount : Nat := 0x702102

/-- 0x7021:03 GriddleSwapCount. -/
def oGriddleSwapCount : Nat := 0x702103

/-- 0x7021:04 TakeoverCount. -/
def oTakeoverCount : Nat := 0x702104

/-- 0x7021:05 ChipFaultCount. -/
def oChipFaultCount : Nat := 0x702105

/-- 0x7021:06 CollectiveDupDropCount. -/
def oCollectiveDupDropCount : Nat := 0x702106

/-- 0x7030:01 BuddyChipId. -/
def oBuddyChipId : Nat := 0x703001

/-- 0x7030:02 BuddyAltChipId. -/
def oBuddyAltChipId : Nat := 0x703002

/-- 0x7030:03 WardChipId. -/
def oWardChipId : Nat := 0x703003

/-- 0x7030:04 MirrorStorePages. -/
def oMirrorStorePages : Nat := 0x703004

/-- 0x7030:05 MirrorQuotaPages. -/
def oMirrorQuotaPages : Nat := 0x703005

/-- 0x7030:06 MirrorInputMiB. -/
def oMirrorInputMiB : Nat := 0x703006

/-- 0x7031:01 TakeoverStart. -/
def oTakeoverStart : Nat := 0x703101

/-- 0x7031:02 SpareList. -/
def oSpareList : Nat := 0x703102

/-- 0x7031:03 TakeoverRoutes. -/
def oTakeoverRoutes : Nat := 0x703103

/-- 0x7031:04 TakeoverState. -/
def oTakeoverState : Nat := 0x703104

/-- 0x7031:05 IdentityEpoch. -/
def oIdentityEpoch : Nat := 0x703105

/-- 0x7031:06 HandOver. -/
def oHandOver : Nat := 0x703106

/-- 0x9010:01 PowerCapW. -/
def oPowerCapW : Nat := 0x901001

/-- 0x9010:02 PowerCapWindowMs. -/
def oPowerCapWindowMs : Nat := 0x901002

/-- 0x9010:03 PowerCapMarginBp. -/
def oPowerCapMarginBp : Nat := 0x901003

/-- 0x9010:04 IssueStepUp. -/
def oIssueStepUp : Nat := 0x901004

/-- 0x9010:05 IssueLimitMin. -/
def oIssueLimitMin : Nat := 0x901005

/-- 0x9010:06 CriticalIssueLimit. -/
def oCriticalIssueLimit : Nat := 0x901006

/-- 0x9011:01 OperatorIssueLimit. -/
def oOperatorIssueLimit : Nat := 0x901101

/-- 0x9011:02 PilotIssueLimit. -/
def oPilotIssueLimit : Nat := 0x901102

/-- 0x9012:01 DieThrottleC. -/
def oDieThrottleC : Nat := 0x901201

/-- 0x9012:02 DieCriticalC. -/
def oDieCriticalC : Nat := 0x901202

/-- 0x9012:03 DieStepDown. -/
def oDieStepDown : Nat := 0x901203

/-- 0x9012:04 StackStepDown. -/
def oStackStepDown : Nat := 0x901204

/-- 0x9013:01 DroopThresholdMv. -/
def oDroopThresholdMv : Nat := 0x901301

/-- 0x9020:01 IssueLimit. -/
def oIssueLimit : Nat := 0x902001

/-- 0x9020:02–06 ReasonLimit0–4. -/
def oReasonLimit : Nat := 0x902002

/-- 0x9020:07 ChipPowerW. -/
def oChipPowerW : Nat := 0x902007

/-- 0x9020:08 ChipEnergyMj. -/
def oChipEnergyMj : Nat := 0x902008

/-- 0x9020:09 DieTempC. -/
def oDieTempC : Nat := 0x902009

/-- 0x9020:0A VoltageTableDigest. -/
def oVoltageTableDigest : Nat := 0x90200A

/-- 0x9021:01–05 ThrottleEpisodes0–4. -/
def oThrottleEpisodes : Nat := 0x902101

/-- 0x9021:06–0A ThrottleMs0–4. -/
def oThrottleMs : Nat := 0x902106

/-- 0x9021:0B DroopCount. -/
def oDroopCount : Nat := 0x90210B

/-- 0x9021:0C TripCount. -/
def oTripCount : Nat := 0x90210C

/-- 0x9022:01 DroopLog. -/
def oDroopLog : Nat := 0x902201

/-- 0x9030:01 ModelEnergy. -/
def oModelEnergy : Nat := 0x903001

/-- 0x9040:01 ChipState. -/
def oChipState : Nat := 0x904001

/-- 0x9040:02 ChipStateRequest. -/
def oChipStateRequest : Nat := 0x904002

/-- 0x9040:03 IdleEnterTicks. -/
def oIdleEnterTicks : Nat := 0x904003

/-- 0x9040:04 WakeCount. -/
def oWakeCount : Nat := 0x904004

/-- 0x9040:05 WakeRejectCount. -/
def oWakeRejectCount : Nat := 0x904005

/-- 0x9041:01–40 SensorConfig0–63. -/
def oSensorConfig : Nat := 0x904101

/-- 0x9042:01–40 SensorValue0–63. -/
def oSensorValue : Nat := 0x904201

/-- 0x9043:01–20 Threshold0–31. -/
def oThreshold : Nat := 0x904301

/-- 0x9044:01 ThresholdActive. -/
def oThresholdActive : Nat := 0x904401

/-- 0x9045:01 IslandWatchdogUs. -/
def oIslandWatchdogUs : Nat := 0x904501

/-- 0x9045:02 BoundaryGraceUs. -/
def oBoundaryGraceUs : Nat := 0x904502

/-- 0x8010:01 VendorKeyDigest. -/
def oVendorKeyDigest : Nat := 0x801001

/-- 0x8010:02 DeviceKeyDigest. -/
def oDeviceKeyDigest : Nat := 0x801002

/-- 0x8010:03 DeviceCert. -/
def oDeviceCert : Nat := 0x801003

/-- 0x8010:04 DevicePublicKey. -/
def oDevicePublicKey : Nat := 0x801004

/-- 0x8011:01 FirmwareStage. -/
def oFirmwareStage : Nat := 0x801101

/-- 0x8011:02–05 ImageDigest0–3. -/
def oImageDigest : Nat := 0x801102

/-- 0x8011:06–09 SecurityVersionMin0–3. -/
def oSecurityVersionMin : Nat := 0x801106

/-- 0x8011:0A RollbackCommit. -/
def oRollbackCommit : Nat := 0x80110A

/-- 0x8030:01 OwnerInstall. -/
def oOwnerInstall : Nat := 0x803001

/-- 0x8030:02 OwnerKeyDigest. -/
def oOwnerKeyDigest : Nat := 0x803002

/-- 0x8030:03 InstallNonce. -/
def oInstallNonce : Nat := 0x803003

/-- 0x8040:01 KeyAuthorise. -/
def oKeyAuthorise : Nat := 0x804001

/-- 0x8040:02 KeyRevoke. -/
def oKeyRevoke : Nat := 0x804002

/-- 0x8040:03 KeyTableCount. -/
def oKeyTableCount : Nat := 0x804003

/-- 0x8040:04 KeyTableDigest. -/
def oKeyTableDigest : Nat := 0x804004

/-- 0x8041:01–0x8042:80 KeyEntry0–255. -/
def oKeyEntry : Nat := 0x804101

/-- 0x8050:01 SessionIdleS. -/
def oSessionIdleS : Nat := 0x805001

/-- 0x8050:02 SessionsOpen. -/
def oSessionsOpen : Nat := 0x805002

/-- 0x8070:01 AttestNonce. -/
def oAttestNonce : Nat := 0x807001

/-- 0x8070:02 AttestReport. -/
def oAttestReport : Nat := 0x807002

/-- 0x8080:01 IsolationBlockCount. -/
def oIsolationBlockCount : Nat := 0x808001

/-- 0x8080:02 AuthFailCount. -/
def oAuthFailCount : Nat := 0x808002

/-- 0x8090:01 ShareGrant. -/
def oShareGrant : Nat := 0x809001

/-- 0x8090:02 ShareRevoke. -/
def oShareRevoke : Nat := 0x809002

/-- 0x8091:01–0x8092:80 ShareGrantEntry0–255. -/
def oShareGrantEntry : Nat := 0x809101

/-- 0x6000 + n:1A TenantMemPages. -/
def oTenantMemPages : Nat := 0x60001A

/-- 0x6000 + n:1B TenantFrameList. -/
def oTenantFrameList : Nat := 0x60001B

/-- 0x1000:01 PartCode. -/
def oPartCode : Nat := 0x100001

/-- 0x1000:02 SerialNumber. -/
def oSerialNumber : Nat := 0x100002

/-- 0x1000:03 DieStepping. -/
def oDieStepping : Nat := 0x100003

/-- 0x1000:04 DictFormat. -/
def oDictFormat : Nat := 0x100004

/-- 0x1001:01–02 MgAddress0–1. -/
def oMgAddress : Nat := 0x100101

/-- 0x1001:03 PuerelmUdpPort. -/
def oPuerelmUdpPort : Nat := 0x100103

/-- 0x1002:01 CoreWindowBase. -/
def oCoreWindowBase : Nat := 0x100201

/-- 0x1002:02 CoreOperatorRights. -/
def oCoreOperatorRights : Nat := 0x100202

/-- 0x1003:01 DictPendingCount. -/
def oDictPendingCount : Nat := 0x100301

/-- 0x1003:02 DictPendingBytes. -/
def oDictPendingBytes : Nat := 0x100302

/-- 0x1003:03 DictRestoreDefaults. -/
def oDictRestoreDefaults : Nat := 0x100303

/-- 0xA000:01 StatsSnapshotRequest. -/
def oStatsSnapshotRequest : Nat := 0xA00001

/-- 0xA000:02 StatsSnapshot. -/
def oStatsSnapshot : Nat := 0xA00002

/-- 0xA001:01 DictReadCount. -/
def oDictReadCount : Nat := 0xA00101

/-- 0xA001:02 DictWriteCount. -/
def oDictWriteCount : Nat := 0xA00102

/-- 0xA001:03 DictAbortCount. -/
def oDictAbortCount : Nat := 0xA00103

/-- 0xA001:04 DictApplyDroppedCount. -/
def oDictApplyDroppedCount : Nat := 0xA00104

/-- 0xA001:05 DictNvWriteCount. -/
def oDictNvWriteCount : Nat := 0xA00105

/-- 0xA001:06 PuerelmDropCount. -/
def oPuerelmDropCount : Nat := 0xA00106

/-- 0xA001:07 PuerelmRetryAnswerCount. -/
def oPuerelmRetryAnswerCount : Nat := 0xA00107

/-- 0xF001:01 TickRecordSelect. -/
def oTickRecordSelect : Nat := 0xF00101

/-- 0xF001:02 TickRecord. -/
def oTickRecord : Nat := 0xF00102

/-- 0xF001:03 TickRecordState. -/
def oTickRecordState : Nat := 0xF00103

/-- 0xF070:01 DebugSelect. -/
def oDebugSelect : Nat := 0xF07001

/-- 0xF070:02 DebugAccumulators. -/
def oDebugAccumulators : Nat := 0xF07002

/-- 0xF070:03 DebugSaveSlot. -/
def oDebugSaveSlot : Nat := 0xF07003

/-- 0x1004:01 BootStage. -/
def oBootStage : Nat := 0x100401

/-- 0x1004:02 BootFault. -/
def oBootFault : Nat := 0x100402

/-- 0x1004:03 ServeEnable. -/
def oServeEnable : Nat := 0x100403

/-- 0x1004:04 Surrendered. -/
def oSurrendered : Nat := 0x100404

/-- 0x1004:05 LastResetCause. -/
def oLastResetCause : Nat := 0x100405

/-- 0x1004:06 BootTimeMs. -/
def oBootTimeMs : Nat := 0x100406

/-- 0x1005:01 ChipReset. -/
def oChipReset : Nat := 0x100501

/-- 0x1005:02 PortReset. -/
def oPortReset : Nat := 0x100502

/-- 0x1005:03 EngineReset. -/
def oEngineReset : Nat := 0x100503

/-- 0x1011:42 LaneTxInvert. -/
def oLaneTxInvert : Nat := 0x101142

/-- 0x1011:43 LaneRxInvert. -/
def oLaneRxInvert : Nat := 0x101143

/-- 0x9046:01 AlertCause. -/
def oAlertCause : Nat := 0x904601

/-- 0x9046:02 RegulatorStatus0–6. -/
def oRegulatorStatus : Nat := 0x904602

/-- 0x3046:01–40 CastRoot0–63. -/
def oCastRoot : Nat := 0x304601

/-- 0xF020:01–0xF063:10 HopperState0–15. -/
def oHopperState : Nat := 0xF02001

end Sys2Proof.Machine
end

