-- ==== Sys2Proof/Machine/State.lean ====
section
/-! DEFINITION. The state of the block: every register, memory, queue, counter and mode the spec gives it, as plain
data, and the state right after power is applied. -/

namespace Sys2Proof.Machine

open Sys2Proof

/-- Why a command stops the machine with a fault. Every command of this block has an effect the spec gives or leaves
the state as it is, so none does. -/
inductive Fault where
  /-- Raised by no command: kept so that the type is not empty. Safe. -/
  | none
deriving DecidableEq, Repr

/-- Why a command has no meaning here. -/
inductive Refusal where
  /-- Raised by a dispatch arm whose command is not modelled. Safe: nothing can be proved of its effect. -/
  | notModelled (mnemonic : String)
deriving DecidableEq, Repr

/-! ### Time (chapter 1) -/

/-- How far the tick in progress has come: the admit window, past the admit mark, past the late mark, sealed at the
check mark (R34). -/
inductive Phase where
  | window
  | planned
  | late
  | sealed
deriving DecidableEq, Repr

/-- What the servo knows of one source: measurements in a row within the threshold, whether it is locked, when it last
measured, the boundaries it has missed in a row, and whether it delivers (R30, R31). -/
structure SourceTrack where
  good : Nat := 0
  locked : Bool := false
  lastNs : Nat := 0
  missed : Nat := 0
  seen : Bool := false
deriving DecidableEq, Repr

/-- What a PTP port has heard (R24): the priority vector of its master, the less the better; when its last Sync came; whether one
came; when a two-step Sync came that waits for its Follow_Up. -/
structure PtpPort where
  master : Nat := 0
  lastNs : Nat := 0
  heard : Bool := false
  waits : Option Nat := none
deriving DecidableEq, Repr

/-- Device time, the grid and its sources (R17 to R33). A tick may start before device time 0 (R18). `freq` is the correction of
the time counter's rate (R25), `changes` the count of changes of TickSourceState (R31). -/
structure TimeState where
  now : Nat := 0
  tickStart : Int := 0
  tickLen : Nat := 0
  tickNo : Nat := 0
  phase : Phase := .sealed
  lateEntry : Bool := false
  provisional : Bool := true
  placeDue : Bool := false
  stepDue : Option Int := none
  ptpRef : Int := 0
  ptpStepDue : Bool := false
  switchDue : Option Nat := none
  ptpPlaced : Bool := false
  slewLeft : Int := 0
  pend : Option (Nat × Nat × Nat) := none
  firstAdmit : Bool := false
  slipBar : Bool := false
  holdoverFrom : Option Nat := none
  ptp : SourceTrack := {}
  sync : SourceTrack := {}
  ptpPort : Nat := 0
  ports : List PtpPort := [{}, {}]
  peerDelay : List Nat := [0, 0]
  freq : Nat := 0
  changes : Nat := 0
deriving DecidableEq, Repr

/-! ### The dictionary (chapter 19) -/

/-- A write that waits for a boundary (R501, R506): its arrival number, the first tick whose boundary applies it. -/
structure Pending where
  key : Nat
  value : Bytes
  who : Principal
  ctx : AccessCtx
  due : Nat
  seq : Nat
deriving DecidableEq, Repr

/-- A copy of the NV dictionary region (R502). -/
structure NvCopy where
  seq : Nat := 0
  valid : Bool := true
  vals : SMap Bytes := []
deriving DecidableEq, Repr

/-- The objects an access context holds of its own (R522), and its segmented transfers (R512). -/
structure CtxObjs where
  recSel : Nat := 0
  dbgSel : Nat := 0
  nonce : Option Bytes := none
  report : Option Bytes := none
  snap : Option Bytes := none
  readCopy : Option (Nat × Bytes × Nat) := none
  xfer : Option (Nat × Nat × Bytes × Nat) := none
deriving DecidableEq, Repr

/-- The dictionary: values in force, pending writes, writes for the next reset, the two NV copies, the abort code with which
the last access was answered (R517), the access contexts, the tenant that a hart's tag register names (unlisted: DEVICE)
and the response that each hart's mailbox holds (R493, R515). -/
structure DictState where
  answer : Nat := 0
  vals : SMap Nat := []
  strs : SMap Bytes := []
  pending : List Pending := []
  nextSeq : Nat := 0
  nextReset : SMap Bytes := []
  restoreDefaults : Bool := false
  nvA : NvCopy := {}
  nvB : NvCopy := {}
  nvQueue : List (Nat × Bytes) := []
  ctxs : List (AccessCtx × CtxObjs) := []
  hartTags : SMap Nat := []
  mailboxes : SMap Bytes := []
deriving DecidableEq, Repr

/-! ### Start-up, chip states and pins (chapters 17, 20, 21) -/

/-- ChipState (R470); before start-up ends the part is booting, and with PORST_N low it is off. -/
inductive ChipSt where
  | active
  | idle
  | warmSpare
  | coldSpare
  | waking
  | failed
  | tripped
deriving DecidableEq, Repr

/-- What a start-up or spare exit in progress leads to (R526, R540). -/
inductive BootKind where
  | powerOn
  | chipReset
  | coldExit
  | coldToWarm
deriving DecidableEq, Repr

/-- Start-up state (R523 to R541). -/
structure BootState where
  porstN : Bool := false
  kind : BootKind := .powerOn
  running : Bool := false
  railOn : List Bool := List.replicate 7 false
  railGood : List Bool := List.replicate 7 false
  chip : ChipSt := .waking
  spareWanted : Option ChipSt := none
  exitFrom : Option ChipSt := none
  beganAt : Nat := 0
  idleBoundaries : Nat := 0
  engineGated : Bool := false
  wakeFor : Option Nat := none
  wakeNonces : List Nat := []
deriving DecidableEq, Repr

/-- Sideband pins and the JTAG port (R550 to R553). -/
structure PinState where
  tripN : Bool := true
  alertCause : Nat := 0
  regulator : List Nat := List.replicate 7 0
  jtag : JtagInstr := .idcode
deriving DecidableEq, Repr

/-! ### Power and the Pilot (chapters 16, 17) -/

/-- Power and thermal control (R441 to R457). Power samples are in 1/4 mW, those after the check mark apart; energy is in
2.5 nJ, one sample of 1/4 mW over 10 µs. -/
structure PowerState where
  samples : List Nat := []
  lateSamples : List Nat := []
  energy : Nat := 0
  episode : List (Option Nat) := List.replicate 5 none
  msRest : List Nat := List.replicate 5 0
  critical : List Bool := [false, false]
  dieTemp : Option Int := none
  railMv : List Nat := List.replicate 7 0
  domainOn : List Bool := List.replicate 48 false
  band : List Nat := List.replicate 48 0
  lowering : List Nat := []
  droopLog : List Bytes := []
  model : SMap Nat := []
deriving DecidableEq, Repr

/-- One sensor's filter (R460): its last raw samples, the IIR state, the last value, failed reads in a row. -/
structure Sensor where
  win : List Int := []
  y : Int := 0
  seen : Bool := false
  value : Int := 0
  fails : Nat := 0
deriving DecidableEq, Repr

/-- One threshold entry's dwell (R464). -/
structure ThreshSt where
  run : Nat := 0
  back : Nat := 0
  asserted : Bool := false
deriving DecidableEq, Repr

/-- The Pilot (R458 to R473). -/
structure PilotState where
  sensors : SMap Sensor := []
  thresh : SMap ThreshSt := []
  pilotLimit : Nat := 64
deriving DecidableEq, Repr

/-! ### The tick record (R47 to R51, R522) -/

/-- The record of the tick in progress, the entries decided after the seal, the last 64 records and the chain. -/
structure RecordState where
  entries : List Bytes := []
  next : List Bytes := []
  flags : Nat := 0
  nextFlags : Nat := 0
  lengthNs : Nat := 0
  srcState : Nat := 0
  limit : Nat := 64
  sealedNow : Bool := true
  ring : List (Nat × Bytes) := []
  prevDigest : Bytes := List.replicate 8 0
deriving DecidableEq, Repr

/-! ### Security (chapter 18) -/

/-- A Puerelm session (R485 to R487, R514). -/
structure Session where
  clientKey : Bytes
  nonceC : Bytes
  nonceD : Bytes
  clientEph : Bytes
  ephIx : Nat
  hash : Bytes
  challengedAt : Nat
  accepted : Bool
  who : Principal
  key : Bytes
  rxSeq : Nat
  txSeq : Nat
  cache : List (Nat × Bytes)
deriving DecidableEq, Repr

/-- Keys, sessions, images and grants (R474 to R495). -/
structure SecState where
  ownerKey : Option Bytes := none
  installNonce : Bytes := []
  keys : List Bytes := []
  highSerial : Nat := 0
  sessions : SMap Session := []
  imagesA : List Bytes := []
  imagesB : List Bytes := []
  runningB : List Bool := List.replicate 4 false
  measured : List Bytes := List.replicate 4 []
  measuredVer : List Nat := List.replicate 4 0
  voltageTable : Bytes := Config.voltageTable
  grants : List Bytes := []
deriving DecidableEq, Repr

/-! ### Faults and recasts (chapter 15) -/

/-- A hand-over in progress (R426): the tick whose record carries HANDOVER_LAST, and whether the chip goes to COLD_SPARE once
silent (R465). -/
structure HandOverSt where
  lastTick : Nat
  toCold : Bool := false
deriving DecidableEq, Repr

/-- The fault log, the unit fault windows, the maps of logical to physical units and the recasts to report. -/
structure FaultState where
  log : List Bytes := []
  silent : Bool := false
  failed : Bool := false
  planned : Option Nat := none
  handOver : Option HandOverSt := none
  charges : List (UnitKind × Nat × Nat) := []
  griddleMap : List (Option Nat) := (List.range 32).map some ++ (List.range 32).map (fun i => some (34 + i))
  spares : List Nat := [32, 33, 66, 67]
  retired : List Nat := []
  sieveStream : List Nat := List.range 32
  sieveDense : List Nat := [32, 33, 34, 35]
  sieveDue : List (Nat × Option Nat × Nat × Nat) := []
  recastDue : List Bytes := []
  criticalTicks : SMap Nat := []
deriving DecidableEq, Repr

/-! ### DRAM and the Pantry (chapter 11) -/

/-- The code words that encode no data (R309). -/
inductive BurstMark where
  | dead
  | lost
deriving DecidableEq, Repr

/-- A DRAM channel: its state (R318) and the times of its retries and uncorrectable reads (R313). -/
structure Chan where
  st : Nat := 0
  retries : List Nat := []
  ues : List Nat := []
deriving DecidableEq, Repr

/-- A line the Pantry holds: its line number, way, KEEP, dirty, and the tenant it is charged to (R323, R327). -/
structure PLine where
  line : Nat
  way : Nat
  keep : Bool
  dirty : Bool
  owner : Option Nat
deriving DecidableEq, Repr

/-- A Pantry set: its lines, least recently used first, the failures of its ways and the ways disabled (R326). -/
structure PSet where
  lines : List PLine := []
  fails : List (Nat × Nat) := []
  off : List Nat := []
deriving DecidableEq, Repr

/-- A map-out in progress (R316): the channel, and how many slices of its list have switched. -/
structure Migration where
  channel : Nat
  moved : Nat := 0
  ahead : List Nat := []
deriving DecidableEq, Repr

/-- A region of R528: its frame kind (R319), first frame, frames. -/
structure Region where
  kind : Nat
  lo : Nat
  n : Nat
deriving DecidableEq, Repr

/-- DRAM and the Pantry. `mem` is the one coherent content of device memory: an unlisted byte is zero. -/
structure DramState where
  mem : List Host.Cell := []
  marks : SMap BurstMark := []
  chans : SMap Chan := []
  map : List Nat := []
  flagged : List (Nat × Nat) := []
  migration : Option Migration := none
  regions : List Region := []
  tenantFrames : SMap (List (Nat × Nat)) := []
  freeFrames : List (Nat × Nat) := []
  kvBase : Nat := 0
  pantry : SMap PSet := []
  selfRefresh : Bool := false
deriving DecidableEq, Repr

/-! ### The Ingot Store (chapter 9) -/

/-- One of the two copies of a die's remap table, with its sequence number (R261). -/
structure RemapCopy where
  seq : Nat := 0
  map : SMap Nat := []
deriving DecidableEq, Repr

/-- An NV die: the two copies of its remap table, the write counts of physical sectors, the spares in use, the physical sectors
returned to the spare pool and those retired (R261). -/
structure NvDie where
  copyA : RemapCopy := {}
  copyB : RemapCopy := {}
  writes : SMap Nat := []
  taken : List Nat := []
  returned : List Nat := []
  retired : List Nat := []
deriving DecidableEq, Repr

/-- A cast slot (R266): state, manifest, first logical sector, its stored leaves, the DAMAGED sectors with the tick each
was found, its pins and whether the patrol has matched its root (R540). -/
structure CastSlot where
  state : Nat := 0
  manifest : Bytes := []
  first : Nat := 0
  leaves : List Bytes := []
  damaged : List (Nat × Nat) := []
  pins : Nat := 0
  patrolOk : Bool := false
deriving DecidableEq, Repr

/-- A cast session (R258 to R264). -/
structure CastSession where
  slot : Nat
  next : Nat := 0
  verifying : Bool := false
deriving DecidableEq, Repr

/-- A refresh or repair that switches at the next boundary (R272, R273). -/
structure RemapDue where
  sector : Nat
  phys : Nat
  repair : Bool
deriving DecidableEq, Repr

/-- The Ingot Store: sector contents by physical sector with each block's CRC and in-die code, dies, casts, the open session, the
refresh queue, the peers asked for each DAMAGED sector with whether an answer is awaited, and patrol. -/
structure IngotState where
  content : SMap Bytes := []
  checks : SMap (List (Nat × Nat)) := []
  dies : SMap NvDie := []
  casts : SMap CastSlot := []
  session : Option CastSession := none
  refreshQ : List Nat := []
  remapDue : List RemapDue := []
  asks : SMap (Nat × Bool) := []
  patrolAt : Nat := 0
deriving DecidableEq, Repr

/-! ### Variants and Sieves (chapter 10) -/

/-- A variant slot (R297): manifest, verified change list, segments, the directory of R283, the cost table of R286 as weight run
and Sieve term or changes, place in the pool, pins. -/
structure VarSlot where
  state : Nat := 0
  manifest : Bytes := []
  changes : Bytes := []
  segments : SMap Bytes := []
  dir : Bytes := []
  costs : List ((Nat × Nat) × Nat × Nat) := []
  base : Nat := 0
  bytes : Nat := 0
  pins : Nat := 0
  rebuilding : Bool := false
deriving DecidableEq, Repr

/-- A variant load session (R279): the slot, the change list's address and the tenant whose address it is, and whether
the mould pass is over. -/
structure VarSession where
  slot : Nat
  addr : Nat
  tenant : Option Nat
  moulded : Bool := false
deriving DecidableEq, Repr

/-- A Sieve table bank (R289): variant slot, segment, table generation, records queued that name it. -/
structure SieveBank where
  slot : Nat
  segment : Nat
  gen : Nat
  lens : List Nat
  refs : Nat
deriving DecidableEq, Repr

/-- A Sieve: its two banks, and its queue of decoded changes to the Merge: slot, segment, block, and each change's
position and direction (R294). -/
structure SieveSt where
  bankA : Option SieveBank := none
  bankB : Option SieveBank := none
  queue : List (Nat × Nat × Nat × List (Nat × Bool)) := []
  waitSince : Option Nat := none
deriving DecidableEq, Repr

/-- Variants and Sieves. -/
structure VarState where
  slots : SMap VarSlot := []
  session : Option VarSession := none
  sieves : SMap SieveSt := []
deriving DecidableEq, Repr

/-! ### KV pages and contexts (chapter 7) -/

/-- A written slot of a KV page (R202, R204): position, state code, score, K exponents, K and V elements. -/
structure KvSlot where
  pos : Nat
  st : Nat
  score : Nat
  kExp : List Int
  k : List Int
  v : List Int
deriving DecidableEq, Repr

/-- A KV page (R202, R203). FillCount is the number of slots listed; `vBase` is VExp as the last request that named the
context left it, which a rollback restores (R415); `laid` are the bytes of the page that a core's write has left unlike what the
fields give. -/
structure KvPage where
  ctx : Nat
  layer : Nat
  fmt : Fmt
  heads : Nat
  dim : Nat
  tenant : Nat
  frozen : Bool
  allocTick : Nat
  slots : List KvSlot
  vExp : List Int
  vBase : List Int
  laid : SMap Byte := []
deriving DecidableEq, Repr

/-- A context (R209, R210, R353): its descriptor's fields, its page tables by layer and its gate history. -/
structure KvCtx where
  tenant : Nat
  layers : Nat
  heads : Nat
  dim : Nat
  fmt : Fmt
  vHeadroom : Nat
  frozen : Bool
  prefixOf : Option Nat
  prefixPos : Nat
  keepLimit : Nat
  sink : Nat
  recent : Nat
  decay : Int
  specReq : Nat
  specWidth : Nat
  rejectRun : Nat
  acceptRun : Nat
  tableEntries : Nat
  nextPos : Nat
  specOffLeft : Nat
  tokenSeq : Nat
  tables : List (List (Nat × Bool))
  history : SMap (List Nat)
deriving DecidableEq, Repr

/-- The KV pool and the contexts. -/
structure KvState where
  pool : Nat := 0
  pages : SMap KvPage := []
  ctxs : SMap KvCtx := []
deriving DecidableEq, Repr

/-! ### Requests (chapters 12 and 13) -/

/-- A length-table entry (R213). -/
structure LenEntry where
  ctx : Nat
  role : Nat
  count : Nat
  start : Nat
  pair : Nat
deriving DecidableEq, Repr

/-- A binding entry (R349). -/
structure Binding where
  tensor : Nat
  addr : Nat
  bytes : Nat
  summary : Nat
deriving DecidableEq, Repr

/-- How far a unit has come; a draining one waits for the final drain of its last tile. -/
inductive UnitPhase where
  | ready
  | running
  | paused
  | held
  | draining
  | done
deriving DecidableEq, Repr

/-- A unit of a step placed on a Griddle (R365, R368): the FixedCycles it carries, the price of each of its passes, how
many of them have drained, its phase, the row tile and pass it stands at, its save slot with the tag it expects there (R113),
the block at which it continues, and, once resumed, the FixedCycles and the price of the pass it goes on with (R239). -/
structure UnitSt where
  step : Nat
  unit : Nat
  griddle : Nat
  fixed : Nat
  prices : List Nat
  done : Nat
  phase : UnitPhase
  tile : Nat
  pass : Nat
  saveSlot : Option Nat
  tag : Nat
  block : Nat
  again : Option (Nat × Nat)
deriving DecidableEq, Repr

/-- What one step of a request has done: the format it took at dispatch (R128), its tile flags and Whisk status, the
row exponents seen at its drains, the gate's predicted blocks and, by unit, its active and made-up blocks and the values
of h by neuron block and row, the rows of u by unit and neuron block (R153), the values that a KV append waits to write, the tick in which it last fed its tracker, and whether it has completed. -/
structure StepSt where
  fmt : Option Fmt := none
  flags : Nat := 0
  whisk : WStat := {}
  rowExps : SMap (Int × Int) := []
  predicted : List Nat := []
  active : SMap (List Nat) := []
  madeUp : SMap (List Nat) := []
  h : SMap (List (List (List OutVal))) := []
  ups : SMap (List RowAcc) := []
  kvVals : SMap (List OutVal) := []
  tracked : Option Nat := none
  complete : Bool := false
deriving DecidableEq, Repr

/-- A score contribution (R217): context, layer, page and slot as one key, query position, place in tile order, code. -/
structure Delta where
  ctx : Nat
  layer : Nat
  key : Nat
  pos : Nat
  order : Nat
  code : Nat
deriving DecidableEq, Repr

/-- A request slot (R345 to R386). -/
structure Request where
  tenant : Nat
  ring : Nat
  index : Nat
  desc : Bytes
  kvDesc : Bytes
  cast : Nat
  var : Option Nat
  entries : List LenEntry
  bindings : List Binding
  admitTick : Nat
  admitSeq : Nat
  price : Nat
  chain : Nat
  tokens : Nat
  oversize : Bool
  planCrc : Nat
  scratch : Option (Nat × Nat)
  reserved : List Nat
  units : List UnitSt
  steps : List StepSt
  status : Nat
  refused : Bool
  finished : Bool
  flags : Nat
  late : Bool
  held : Bool
  replays : Nat
  waitSector : List Nat
  fmts : List (Nat × Fmt)
  deltas : List Delta
  distress : Bool
  missed : Bool
  repinned : Bool
deriving DecidableEq, Repr

/-- A submission ring (R342 to R346, R358): the base and size under which it was first read, the indices last read and
taken, suspension, the ticks of its faults. -/
structure Ring where
  base : Nat := 0
  entries : Nat := 0
  producer : Nat := 0
  consumer : Nat := 0
  wasRead : Bool := false
  suspended : Bool := false
  cause : Nat := 0
  faults : List Nat := []
  blocked : Bool := false
deriving DecidableEq, Repr

/-- A tenant's completion ring (R346, R355), reset (R359), token balance (R371: the full budget where none is kept) and
deficits by class (R372). -/
structure TenantSt where
  cplBase : Nat := 0
  cplEntries : Nat := 0
  cplProducer : Nat := 0
  tokens : Option Int := none
  deficit : List Nat := [0, 0, 0, 0]
  resetting : Bool := false
  tail : List (Nat × Nat × Nat) := []
deriving DecidableEq, Repr

/-- The range tracker of a step (R129). -/
structure Tracker where
  total : Nat := 0
  unsafeA4 : Nat := 0
  unsafeA8 : Nat := 0
  least : Option Int := none
  eref : Int := 127
  choice : Fmt := .a8
  adaptive : Bool := false
  fixed : Fmt := .a8
  a4Limit : Nat := 0
  a8Limit : Nat := 0
  sat : Bool := false
  ran : Bool := false
  ranA4 : Bool := false
  noSummary : Bool := false
deriving DecidableEq, Repr

/-- The gate predictor's account of a step in a tick (R159): make-up blocks, active blocks, whether prediction is off and
for how many more ticks. -/
structure GateSt where
  makeUp : Nat := 0
  active : Nat := 0
  off : Bool := false
  offLeft : Nat := 0
deriving DecidableEq, Repr

/-- The scheduler: requests by slot, rings, tenants, loads, class pointers, staging, trackers and the commit sets. -/
structure SchedState where
  reqs : SMap Request := []
  rings : SMap Ring := []
  tenants : SMap TenantSt := []
  carry : List Nat := List.replicate 64 0
  load : List Nat := List.replicate 64 0
  staged : Nat := 0
  sieveLoad : List Nat := List.replicate 36 0
  ptr : List Nat := [0, 0, 0, 0]
  seq : Nat := 0
  lateHeld : List (Nat × Nat × Nat) := []
  commitSet : List Nat := []
  held : List (Nat × List Nat) := []
  trackers : SMap Tracker := []
  gates : SMap GateSt := []
  windowStart : Nat := 0
  windowTicks : Nat := 60
  headersRead : Bool := false
  serving : Bool := false
deriving DecidableEq, Repr

/-! ### Griddles and Tile Stores (chapters 3, 4, 8) -/

/-- A piece of an operand that a DMA producer gathers: unit, row tile, first block, blocks. -/
structure Piece where
  unit : Nat
  tile : Nat
  first : Nat
  blocks : Nat
deriving DecidableEq, Repr

/-- A Hopper (R233, R245); its size is 0 when unbound. `offset` counts the reads of the pattern in progress, `skip` the bursts Tail
has yet to move past once they are there (R236), `made` the bursts its producer has written and `src` what a DMA producer gathers in
order (R233), `fullSince` and `emptySince` the time to which its stalls are counted (R234), `port` and `exps` the column vectors and
source exponents that TRANSPOSED mode delivered last (R237). -/
structure Hopper where
  base : Nat := 0
  size : Nat := 0
  head : Nat := 0
  tail : Nat := 0
  bound : Bool := false
  slot : Nat := 0
  passesLeft : Nat := 0
  request : Nat := 0
  step : Nat := 0
  offset : Nat := 0
  skip : Nat := 0
  made : Nat := 0
  src : List Piece := []
  fullSince : Option Nat := none
  emptySince : Option Nat := none
  port : List (List Int) := []
  exps : List Int := []
deriving DecidableEq, Repr

/-- A Tile Store: its bursts (unlisted: zero) with the check bits of their eight words (R226; unlisted: those of zero words), poisoned
bursts, the times of recent correcting and zeroing write-backs, the scrubber's place, its Hoppers. -/
structure TileStore where
  bursts : SMap Bytes := []
  checks : SMap Bytes := []
  poison : List Nat := []
  errors : List (Nat × Nat) := []
  scrubAt : Nat := 0
  hoppers : List Hopper := List.replicate 16 {}
deriving DecidableEq, Repr

/-- What a Griddle works on: the unit with the row tile and pass it stands at, the tiles of that pass (one, but for the neuron
blocks of a gated step and the output tiles of a row tile), the column reference of bit-plane mode, the next block, whether the
pass waits for its drain or the tile for its final drain, what the pass has met of rebases, skipped planes and tiles whose
bound lapsed, not yet counted, the block and the tiles from which the pass began or went on, and the blocks that each tile of the
pass takes. -/
structure Tile where
  request : Nat
  step : Nat
  unit : Nat
  tile : Nat
  pass : Nat
  subs : List SubTile
  fref : Int
  block : Nat
  waitsDrain : Bool
  waitsFinal : Bool
  planes : Bool
  rebases : Nat
  skips : Nat
  lapses : Nat
  begunAt : Nat
  begun : List SubTile
  per : Nat
deriving DecidableEq, Repr

/-- The key of a segment of a tile: request, step, unit, tile, segment. -/
structure SegKey where
  request : Nat
  step : Nat
  unit : Nat
  tile : Nat
  seg : Nat
deriving DecidableEq, Repr

/-- A table bank of the match unit: the segment it was built for and each lane's table (R143). -/
structure MatchBank where
  key : SegKey
  lanes : List MTable
deriving DecidableEq, Repr

/-- A save slot (R113) with the unit that owns it. -/
structure SaveSlot where
  request : Nat
  step : Nat
  unit : Nat
  griddle : Nat
  subs : List SubTile
  fref : Int
  block : Nat
  tag : Nat
  per : Nat
deriving DecidableEq, Repr

/-- The engines, by physical unit for the Tile Stores and Whisks and by logical Griddle for the tiles in the array, those in the
drain latches (R81) and the match unit's two table banks; `overflow` lists the segments whose build was abandoned (R145). -/
structure EngineState where
  tiles : SMap Tile := []
  latches : SMap Tile := []
  banks : SMap (List MatchBank) := []
  stores : SMap TileStore := []
  whisks : SMap Whisk := []
  saves : SMap SaveSlot := []
  saveSeq : Nat := 0
  overflow : List SegKey := []
deriving DecidableEq, Repr

/-! ### Links (chapter 14) -/

/-- A port (R388 to R395): mode in force, state, width, bad lanes, LinkSeq counters, replay buffer with resends, send
credits by VC, credits to return, frames that wait for credit, DRR deficits. -/
structure Port where
  mode : Nat := 1
  st : Nat := 0
  width : Nat := 0
  bad : List Nat := []
  txSeq : Nat := 0
  rxSeq : Nat := 0
  nakSent : Bool := false
  ackDue : Bool := false
  replay : List (LinkFrame × Nat) := []
  credits : List Nat := List.replicate 8 0
  owed : List Nat := List.replicate 8 0
  waiting : List LinkFrame := []
  deficit : List Nat := List.replicate 8 0
deriving DecidableEq, Repr

/-- The sending side of a flow (R396). -/
structure FlowTx where
  next : Nat := 0
  unacked : List LinkFrame := []
  stalled : List LinkFrame := []
deriving DecidableEq, Repr

/-- The receiving side of a flow (R396). -/
structure FlowRx where
  next : Nat := 0
  nakSent : Bool := false
deriving DecidableEq, Repr

/-- An open collective instance at its destination (R400, R437): end address and LAST of each member. -/
structure CollInst where
  group : Nat
  instNo : Nat
  ends : List (Nat × Nat)
  lasts : List Nat
  deadline : Nat
  timedOut : Bool := false
deriving DecidableEq, Repr

/-- Links: ports, flows, collectives, ingest sequences, requests sent that wait for
their response. -/
structure LinkState where
  ports : SMap Port := []
  tx : SMap FlowTx := []
  rx : SMap FlowRx := []
  insts : List CollInst := []
  lastInst : SMap Nat := []
  ingestSeq : SMap Nat := []
  gets : List (Nat × Nat) := []
  nextTag : Nat := 0
deriving DecidableEq, Repr

/-! ### Mirror and takeover (chapter 15) -/

/-- An admission image (R428): the ADMIT entry's fields, whether that entry stands in a sealed record, and the tenant
memory that holds the tables and tensors. -/
structure ReplayImage where
  tick : Nat
  seq : Nat
  tenant : Nat
  ring : Nat
  index : Nat
  cast : Nat
  var : Option Nat
  planCrc : Nat
  inRecord : Bool
  desc : Bytes
  pieces : List (Nat × Bytes)
deriving DecidableEq, Repr

/-- What the commit payload holds of one request (R428): its tenant, its completion record, its token records, and whether
a notice is sent. -/
structure PayloadItem where
  tenant : Nat
  record : Bytes
  tokens : Bytes
  noticed : Bool
deriving DecidableEq, Repr

/-- A mirror as a spare holds it once copied (R433): contexts, pages, configuration writes, variants, admission images, the
last commit payload, the last sealed record, trackers, out mask, IdentityEpoch, the routes to write, and the EVICT entries of the
sealed records that the replay recomputes (R219). -/
structure MirrorImage where
  ctxs : SMap KvCtx := []
  pages : SMap KvPage := []
  config : List (Nat × Bytes) := []
  variants : SMap VarSlot := []
  images : List ReplayImage := []
  payload : List PayloadItem := []
  lastTick : Nat := 0
  lastDigest : Bytes := []
  trackers : SMap Tracker := []
  outMask : Nat := 0
  epoch : Nat := 0
  routes : Bytes := []
  evicts : List Bytes := []
deriving DecidableEq, Repr, Inhabited

/-- Mirror and takeover. As ward: the ticks whose messages wait for their acknowledgement, each with its last FlowSeq,
whether the mirror goes to the alternate buddy, the admission images held, the REDUCE contributions that wait for them, the configuration writes to send, the KV pages as the
last message left them, where a snapshot is out to. As buddy: the mirror store's messages, the ward's records, the tick of its last complete message, the
probe sent, whether the ward is lost and its HANDOVER_LAST record seen, the place in SpareList and the nonce of the WAKE
that spare has not acknowledged. As spare: the mirror copied so far, its former ChipId, the replay set's slots, whether the mirror is restored, the
replay begun and an eviction found unlike the recorded one, and the image. -/
structure MirrorState where
  wait : List (Nat × Nat) := []
  toAlt : Bool := false
  imagesHeld : List (Nat × Nat × Bool) := []
  partsHeld : List (Nat × LinkFrame) := []
  config : List (Nat × Bytes) := []
  sentPages : SMap KvPage := []
  snapshotTo : Option Nat := none
  store : List Bytes := []
  records : List (Nat × Bytes) := []
  wardTick : Option Nat := none
  probeAt : Option Nat := none
  wardLost : Bool := false
  wardLastSeen : Bool := false
  spareIx : Nat := 0
  wakeNonce : Option Nat := none
  copied : List Bytes := []
  formerId : Nat := 0xFFFF
  replaySet : List Nat := []
  restored : Bool := false
  begun : Bool := false
  diverged : Bool := false
  image : MirrorImage := {}
deriving DecidableEq, Repr

/-! ### Outputs -/

/-- What the device sends out of itself. -/
inductive OutEvent where
  | frame (port : Nat) (f : LinkFrame)
  | idle (port : Nat)
  | puerelm (mgPort : Nat) (msg : Bytes)
  | udp (port : Nat) (dest : Bytes) (udpPort : Nat) (payload : Bytes)
  | avsWrite (rail mv : Nat)
  | pmbus (rail : Nat) (command : Nat) (data : Nat)
  | syncPulse (pin atNs lengthNs : Nat)
  | neighbourAdvert (port : Nat) (target : Bytes)
  | peerDelayResponse (port : Nat)
  | memData (data : Bytes)
  | atomicResult (old : Nat)
  | coreFault (misaligned : Bool)
  | notice (src : Nat) (cut : Bool) (payload : Bytes)
deriving DecidableEq, Repr

/-- The state of the block. -/
structure State where
  pending : List Instr := []
  time : TimeState := {}
  dict : DictState := {}
  boot : BootState := {}
  pins : PinState := {}
  power : PowerState := {}
  pilot : PilotState := {}
  record : RecordState := {}
  sec : SecState := {}
  faults : FaultState := {}
  dram : DramState := {}
  ingot : IngotState := {}
  vars : VarState := {}
  kv : KvState := {}
  sched : SchedState := {}
  engine : EngineState := {}
  links : LinkState := {}
  mirror : MirrorState := {}
  out : List OutEvent := []
  draws : Nat := 0
deriving DecidableEq, Repr

/-- The firmware copies A of a delivered part, by kind: all four pass R476. -/
def deliveredImages : List Bytes := (List.range 4).map Config.image

/-- The firmware copies B of a delivered part: none. -/
def absentImages : List Bytes := List.replicate 4 []

/-- The block as it is when its rails come up and PORST_N is low: a delivered part without casts, keys or dictionary
writes. -/
def State.reset : State := { sec := { imagesA := deliveredImages, imagesB := absentImages } }

end Sys2Proof.Machine
end

