-- ==== Sys2Proof/Machine/Ops.lean ====
section
/-! DEFINITION. The shared operations over the state: dictionary values, free values, time, record entries, the fault
log and outputs. -/

namespace Sys2Proof.Machine

open Sys2Proof

/-! ### Dictionary rows and numeric values -/

/-- The row of the object tables that covers an index and subindex (R518). -/
def objRow (idx sub : Nat) : Option ObjDesc :=
  objTable.find? (fun d => d.idxLo ≤ idx && idx ≤ d.idxHi && d.subLo ≤ sub && sub ≤ d.subHi)

/-- Whether any row has the index (R518). -/
def idxKnown (idx : Nat) : Bool := objTable.any (fun d => d.idxLo ≤ idx && idx ≤ d.idxHi)

/-- Subindex 0 of an index: the highest subindex in use (R496). -/
def highestSub (idx : Nat) : Nat :=
  objTable.foldl (fun m d => if d.idxLo ≤ idx ∧ idx ≤ d.idxHi then max m d.subHi else m) 0

/-- The default of a sensor configuration word (R462): median of three, IirShift 2 for temperatures and 0 for rails,
ENABLE. -/
def sensorDefault (n : Nat) : Nat := if 48 ≤ n ∧ n < 62 then 65 else 73

/-- The default of VcCredits v, and of VcWeight v (R393). -/
def vcDefault (key : Nat) : Nat :=
  ([256, 4096, 4096, 512, 3072, 3072, 256, 1024, 8, 2, 4, 2, 1, 4] : List Nat).getD (key - 0x101201) 0

/-- An object's default (R496); zero where the table names none. -/
def objDefault (key : Nat) : Nat :=
  if 0x904101 ≤ key ∧ key ≤ 0x904140 then sensorDefault (key - 0x904101)
  else if 0x101201 ≤ key ∧ key ≤ 0x10120E then vcDefault key
  else match objRow (key / 256) (key % 256) with
    | some d => d.dflt
    | none => 0

/-- The value in force of a numeric object. -/
def getO (s : State) (key : Nat) : Nat := sget (objDefault key) s.dict.vals key

/-- Put a numeric value in force. -/
def setO (s : State) (key v : Nat) : State :=
  { s with dict := { s.dict with vals := sset (objDefault key) s.dict.vals key v } }

/-- Count `n` more in a U64 counter, which wraps at its width. -/
def addO (s : State) (key n : Nat) : State := setO s key ((getO s key + n) % 2 ^ 64)

/-- Count one more. -/
def bump (s : State) (key : Nat) : State := addO s key 1

/-- A string object's value. -/
def getS (s : State) (key : Nat) : Bytes := sget [] s.dict.strs key

/-- Put a string value in force. -/
def setS (s : State) (key : Nat) (v : Bytes) : State :=
  { s with dict := { s.dict with strs := sset [] s.dict.strs key v } }

/-- Object `key` of tenant n: its table stands at index 0x6000 + n (R360). -/
def tkey (key n : Nat) : Nat := key + 256 * n

/-! ### Free values, outputs, time -/

/-- The next free value (a value the spec leaves open) and the state that has used it up. -/
def draw (s : State) : Nat × State := (Config.freeValue s.draws, { s with draws := s.draws + 1 })

/-- The next n free values. -/
def drawMany (n : Nat) (s : State) : List Nat × State :=
  ((List.range n).map (fun i => Config.freeValue (s.draws + i)), { s with draws := s.draws + n })

/-- The next free byte string of n bytes. -/
def drawBytes (n : Nat) (s : State) : Bytes × State :=
  ((List.range n).map (fun i => (Config.freeBytes s.draws n).getD i 0), { s with draws := s.draws + 1 })

/-- Send something out. -/
def emit (e : OutEvent) (s : State) : State := { s with out := s.out ++ [e] }

/-- The state at an instant `t` ns into the tick; time never runs backwards. -/
def atT (t : Nat) (s : State) : State :=
  { s with time := { s.time with now := max s.time.now (s.time.tickStart + t).toNat } }

/-- The arithmetic cycles of a span in nanoseconds, at 1.5 GHz. -/
def cyclesOf (ns : Nat) : Nat := 3 * ns / 2

/-- Cycles that something has stalled since the time to which its stall was counted. -/
def stallCycles (s : State) (since : Option Nat) : Nat := match since with
  | some a => cyclesOf (s.time.now - a)
  | none => 0

/-- The offset of now from the tick's starting boundary, as 32 bits. -/
def offsetNs (s : State) : Nat := (s.time.now - s.time.tickStart).toNat % 2 ^ 32

/-- The boundary that ends the tick in progress. -/
def nextBoundary (s : State) : Nat := (s.time.tickStart + s.time.tickLen).toNat

/-- Whether a time lies within a span of now. -/
def within (s : State) (t span : Nat) : Bool := s.time.now ≤ t + span

/-! ### Tick record entries (R47, R50) -/

/-- An entry: kind, flags 0, length, a reserved U32 of zero, and the body padded to a multiple of 8 (R47). -/
def entry (kind : Nat) (body : Bytes) : Bytes :=
  let n := 8 * ceilDiv body.length 8
  natLe 1 kind ++ [0] ++ natLe 2 (8 + n) ++ zeros 4 ++ padTo n body

/-- Write an entry to the record of the tick in progress, or to the next tick's when that record is sealed (R50). -/
def addEntry (e : Bytes) (s : State) : State :=
  if s.record.sealedNow then { s with record := { s.record with next := s.record.next ++ [e] } }
  else { s with record := { s.record with entries := s.record.entries ++ [e] } }

/-! ### The activity model (R441, R456) -/

/-- Activity coefficient i of the voltage table. -/
def coefficient (s : State) (i : Nat) : Nat := leNat ((s.sec.voltageTable.drop (896 + 4 * i)).take 4)

/-- Whether the chip is outside service: before the first admission, in DebugMode, or as a spare from WAKE until TakeoverState
reads SERVING. -/
def outsideService (s : State) : Bool := !s.time.firstAdmit || getO s oDebugMode == 1 || s.boot.wakeFor.isSome

/-- So many activities of a class on one physical unit, which the model numbers 65,536 · UnitKind + index. -/
def modelEnergy (unit cls n : Nat) (s : State) : State :=
  if !outsideService s then s
  else { s with power := { s.power with model := supd 0 s.power.model unit (· + coefficient s cls * n) } }

/-- The number under which the activity model keeps a unit. -/
def modelUnit (code index : Nat) : Nat := 65536 * code + index

/-! ### Faults (R411 to R413) -/

/-- The class of a fault code (R411, R412): 0 STEP, 1 UNIT, 2 PLANNED, 3 SILENT, 4 WARN. SELF_TEST_FAIL is UNIT for a
Griddle, Whisk, Tile Store or Sieve and SILENT otherwise. -/
def faultClass (code : Nat) (kind : UnitKind) : Nat :=
  if code < 0x0120 then 0
  else if code = 0x0120 then 1
  else if code = 0x0122 then
    match kind with
    | .griddle | .whisk | .tileStore | .sieve => 1
    | _ => 3
  else if code < 0x0130 then 4
  else if code < 0x0140 then 2
  else if code < 0x0146 then 3
  else 4

/-- UnitKind's code (R413). -/
def unitCode : UnitKind → Nat
  | .none => 0
  | .griddle => 1
  | .whisk => 2
  | .sieve => 3
  | .tileStore => 4
  | .pantrySlice => 5
  | .dramChannel => 6
  | .nvDie => 7
  | .linkPort => 8
  | .expediter => 9
  | .island => 10
  | .clockOrSupply => 11
  | .stack => 12

/-- A fault log entry of 32 bytes (R413). -/
def faultEntry (s : State) (code : Nat) (kind : UnitKind) (idx : Nat) (req : Option Nat) (detail : Nat) : Bytes :=
  natLe 2 code ++ natLe 1 (faultClass code kind) ++ natLe 1 (unitCode kind) ++ natLe 2 idx
    ++ natLe 2 (match req with | some r => r % 2 ^ 15 + 2 ^ 15 | none => 0)
    ++ natLe 8 s.time.tickNo ++ natLe 4 (offsetNs s) ++ natLe 12 detail

/-- Whether R411 charges a code to its unit: SAVE_TAG, CHECK_FAIL, WHISK_CHECK and SIEVE_CHECK (R416). -/
def faultCharges (code : Nat) (kind : UnitKind) : Bool :=
  kind != .none && (code == 0x0106 || code == 0x0110 || code == 0x0111 || code == 0x0112)

/-- The unit kind that a fault is charged to: a Whisk's faults count against its Griddle (R411). -/
def chargedKind : UnitKind → UnitKind
  | .whisk => .griddle
  | k => k

/-- Charge a unit with a fault, keeping the charges of the last 1,000 ms (R416). -/
def chargeUnit (kind : UnitKind) (idx : Nat) (s : State) : State :=
  let old := s.faults.charges.filter (fun c => within s c.2.2 1000000000)
  { s with faults := { s.faults with charges := old ++ [(chargedKind kind, idx, s.time.now)] } }

/-- Charged faults of a unit within the last 1,000 ms (R416). -/
def unitCharges (s : State) (kind : UnitKind) (idx : Nat) : Nat :=
  (s.faults.charges.filter (fun c => c.1 == chargedKind kind && c.2.1 == idx && within s c.2.2 1000000000)).length

/-- Write a fault log entry; the last 256 stay (R413). -/
def logFault (e : Bytes) (s : State) : State :=
  let log := s.faults.log ++ [e]
  { s with faults := { s.faults with log := log.drop (log.length - 256) } }

/-- What a fault's class asks for at once: a SILENT fault stops admission and commits (R425), a PLANNED fault asks for a
hand-over (R426). -/
def faultActs (cls code : Nat) (s : State) : State := match cls with
  | 3 => { s with faults := { s.faults with silent := true } }
  | 2 => { s with faults := { s.faults with planned := s.faults.planned.orElse (fun _ => some code) } }
  | _ => s

/-- Raise a fault: write its log entry, charge its unit, and note what its class asks for. -/
def raiseFault (code : Nat) (kind : UnitKind) (idx : Nat) (req : Option Nat) (detail : Nat) (s : State) : State :=
  let s := logFault (faultEntry s code kind idx req detail) s
  faultActs (faultClass code kind) code (if faultCharges code kind then chargeUnit kind idx s else s)

/-- Whether the chip still admits and commits: no SILENT fault, not FAILED, not TRIPPED (R425, R451). -/
def alive (s : State) : Bool :=
  !s.faults.silent && !s.faults.failed && s.boot.chip != .failed && s.boot.chip != .tripped && s.boot.porstN

/-- A RECAST entry for the next boundary (R424). -/
def recastEntry (kind cause old new offset detail : Nat) : Bytes :=
  entry 0x0D (natLe 1 kind ++ [0] ++ natLe 2 cause ++ natLe 2 old ++ natLe 2 new ++ natLe 4 offset ++ natLe 4 detail)

/-- Report a recast at the next boundary (R424). -/
def recast (kind cause old new detail : Nat) (s : State) : State :=
  { s with faults := { s.faults with recastDue := s.faults.recastDue ++
    [recastEntry kind cause old new (offsetNs s) detail] } }

/-! ### Access contexts (R522) -/

/-- The objects of an access context. -/
def ctxGet (s : State) (c : AccessCtx) : CtxObjs :=
  match s.dict.ctxs.find? (fun e => e.1 == c) with
  | some e => e.2
  | none => {}

/-- Change the objects of an access context. -/
def ctxMod (c : AccessCtx) (f : CtxObjs → CtxObjs) (s : State) : State :=
  let v := f (ctxGet s c)
  let rest := s.dict.ctxs.filter (fun e => e.1 != c)
  { s with dict := { s.dict with ctxs := if v = {} then rest else rest ++ [(c, v)] } }

/-- A context ends with its session (R522). -/
def ctxDrop (c : AccessCtx) (s : State) : State :=
  { s with dict := { s.dict with ctxs := s.dict.ctxs.filter (fun e => e.1 != c) } }

end Sys2Proof.Machine
end

