-- ==== Sys2Proof/Machine/Flags.lean ====
section
/-! DEFINITION. The flags that several meanings set: those of the tick record's header and the causes of PILOT_ALERT_N (R48,
R551, R556). The flags of tiles, Whisks and requests stand with the formats that carry them. -/

namespace Sys2Proof.Machine

open Sys2Proof

/-- Set a flag of the record header (R48) of the tick in progress, or of the next where that record is sealed. -/
def recFlag (bit : Nat) (s : State) : State :=
  let f := fun v => if v / 2 ^ bit % 2 = 1 then v else v + 2 ^ bit
  if s.record.sealedNow then { s with record := { s.record with nextFlags := f s.record.nextFlags } }
  else { s with record := { s.record with flags := f s.record.flags } }

/-- Set or clear a bit of AlertCause; PILOT_ALERT_N is low while any is set (R551, R556). -/
def setAlert (bit : Nat) (on : Bool) (s : State) : State :=
  let v := s.pins.alertCause
  let had := v / 2 ^ bit % 2 == 1
  let w := if on && !had then v + 2 ^ bit else if !on && had then v - 2 ^ bit else v
  { s with pins := { s.pins with alertCause := w } }

/-- PILOT_ALERT_N: low while any alert cause is set (R551). -/
def alertN (s : State) : Bool := s.pins.alertCause == 0

end Sys2Proof.Machine
end

