-- ==== Sys2Proof/Machine/Access.lean ====
section
/-! DEFINITION. Access to the dictionary: abort codes, the rights of each principal, the checks of a write up to its
range, pending writes, and the answer of an access (R496 to R508, R517). -/

namespace Sys2Proof.Machine

open Sys2Proof

/-! ### Abort codes (R517) -/

/-- OK. -/
def abOk : Nat := 0
/-- OBJECT_UNKNOWN. -/
def abObject : Nat := 0x00010001
/-- SUBINDEX_UNKNOWN. -/
def abSubindex : Nat := 0x00010002
/-- ACCESS_DENIED. -/
def abDenied : Nat := 0x00010003
/-- TYPE_LENGTH. -/
def abLength : Nat := 0x00010004
/-- VALUE_RANGE. -/
def abRange : Nat := 0x00010005
/-- RESOURCE_IN_USE. -/
def abInUse : Nat := 0x00010006
/-- STATE_CONFLICT. -/
def abState : Nat := 0x00010007
/-- ACCESS_PENDING. -/
def abPending : Nat := 0x00010008
/-- BUSY. -/
def abBusy : Nat := 0x00010009
/-- TRANSFER_FORM. -/
def abTransfer : Nat := 0x0001000A
/-- NV_FAULT. -/
def abNvFault : Nat := 0x0001000B
/-- AUTH_FAILED. -/
def abAuth : Nat := 0x0001000C
/-- SESSION_LIMIT. -/
def abSessions : Nat := 0x0001000D
/-- SIGNATURE_INVALID. -/
def abSignature : Nat := 0x00020001
/-- OWNER_INSTALLED. -/
def abOwner : Nat := 0x00020002
/-- KEY_TABLE_FULL. -/
def abKeysFull : Nat := 0x00020003
/-- MEM_SHORT. -/
def abMemShort : Nat := 0x00020004
/-- CAST_FORM. -/
def abCastForm : Nat := 0x00030001
/-- CAST_SLOTS_FULL. -/
def abCastSlots : Nat := 0x00030002
/-- CAST_NO_SPACE. -/
def abCastSpace : Nat := 0x00030003
/-- CAST_STATE. -/
def abCastState : Nat := 0x00030004
/-- CAST_MISMATCH. -/
def abCastMismatch : Nat := 0x00030005
/-- CAST_IN_USE. -/
def abCastInUse : Nat := 0x00030006
/-- STEPREF_CLASH. -/
def abStepRef : Nat := 0x00030007
/-- TRACKER_FULL. -/
def abTracker : Nat := 0x00030008
/-- VARIANT_FORM. -/
def abVarForm : Nat := 0x00040001
/-- VARIANT_BASE. -/
def abVarBase : Nat := 0x00040002
/-- VARIANT_SLOTS_FULL. -/
def abVarSlots : Nat := 0x00040003
/-- LENGTH_RANGE. -/
def abLengthRange : Nat := 0x00040004
/-- VARIANT_STATE. -/
def abVarState : Nat := 0x00040005
/-- VARIANT_MISMATCH. -/
def abVarMismatch : Nat := 0x00040006
/-- VARIANT_IN_USE. -/
def abVarInUse : Nat := 0x00040007

/-! ### Principals and keys (R482, R498) -/

/-- The code of a principal (R498). -/
def whoCode : Principal → Nat
  | .vendor => 0
  | .owner => 1
  | .operator => 2
  | .tenant _ => 3
  | .pilot => 4
  | .cores => 5
  | .installer => 6
  | .neighbour _ => 7

/-- The tenant number of a TENANT principal; 0 for any other. -/
def whoTenant : Principal → Nat
  | .tenant n => n
  | _ => 0

/-- The authorised key record of a public key (R482). -/
def keyRecord (s : State) (key : Bytes) : Option Bytes := s.sec.keys.find? (fun r => r.take 65 == key)

/-- Kind of a key record. -/
def recKind (r : Bytes) : Nat := byteAt r 65

/-- Subject of a key record. -/
def recSubject (r : Bytes) : Nat := fld r 66 2

/-- Rights of a key record: 0 SESSION, 1 SIGN_CAST, 2 SIGN_VARIANT, 3 WAKE. -/
def recRight (r : Bytes) (bit : Nat) : Bool := bits (fld r 68 4) bit 1 == 1

/-- Whether the key of an access's session holds a signer's right. -/
def signerOf (s : State) (a : Access) (bit : Nat) : Bool := match a.ctx with
  | .session id => match sfind s.sec.sessions id with
    | some x => match keyRecord s x.clientKey with
      | some r => recKind r == 2 && recRight r bit
      | none => false
    | none => false
  | _ => false

/-- OWNER, OPERATOR, or CORES while CoreOperatorRights is 1 (R499). -/
def opLike (s : State) (a : Access) : Bool := match a.who with
  | .owner => true
  | .operator => true
  | .cores => getO s oCoreOperatorRights == 1
  | _ => false

/-- The owner, the operator or tenant n. -/
def tnLike (a : Access) (n : Nat) : Bool := match a.who with
  | .owner => true
  | .operator => true
  | .tenant t => t == n
  | _ => false

/-- Whether a notation grants a read (R499). -/
def mayRead (s : State) (a : Access) (k : AccessKind) (idx : Nat) : Bool := match k with
  | .r | .opRw | .voRw | .pilotRw | .rSession | .opSignerRw => true
  | .opR => opLike s a
  | .tnRw | .tnOpR => tnLike a (idx - 0x6000) || a.who == .cores
  | .voR => a.who == .vendor || a.who == .owner
  | .vooR => a.who == .vendor || a.who == .owner || a.who == .operator
  | .opW | .tnW | .ownerW | .vOpW | .installerW | .anyW | .opDictW | .opSignerW | .opPilotW => false

/-- Whether a notation grants a write (R499). -/
def mayWrite (s : State) (a : Access) (k : AccessKind) (idx : Nat) : Bool := match k with
  | .r | .opR | .tnOpR | .voR | .rSession | .vooR => false
  | .opRw | .opW => opLike s a
  | .tnRw | .tnW => tnLike a (idx - 0x6000)
  | .ownerW => a.who == .owner
  | .voRw => a.who == .vendor || a.who == .owner
  | .vOpW => a.who == .vendor || a.who == .owner || a.who == .operator
  | .pilotRw => a.who == .pilot
  | .installerW => a.who == .installer
  | .anyW => (match a.who with | .neighbour _ => false | _ => true)
  | .opDictW => a.who == .owner || a.who == .operator || (match a.who with | .neighbour _ => true | _ => false)
  | .opPilotW => opLike s a || a.who == .pilot
  | .opSignerW | .opSignerRw => opLike s a || (match a.who with
      | .tenant _ => signerOf s a (if idx < 0x3050 then 1 else 2)
      | _ => false)

/-- Whether the chip is in a spare state (R470). -/
def isSpare (s : State) : Bool := s.boot.chip == .warmSpare || s.boot.chip == .coldSpare

/-- What R467 serves in a spare state, with the write that leaves it (R540). -/
def spareAllows (write : Bool) (key : Nat) : Bool :=
  let idx := key / 256
  if write then key == oChipStateRequest
  else idx == 0x2020 || idx == 0x3042 || idx == 0x3046 || key == 0x703104 || (0x9040 ≤ idx && idx ≤ 0x9044)

/-- Whether start-up stands stopped at a stage that failed (R533). -/
def bootStopped (s : State) : Bool := s.boot.chip == .failed && getO s oBootFault != 0

/-- What R533 serves while start-up is stopped. -/
def stoppedAllows (s : State) (a : Access) (write : Bool) (key : Nat) : Bool :=
  let idx := key / 256
  if write then key == oChipReset
    || (key == oFirmwareStage && (getO s oBootFault == 3 || getO s oBootFault == 4) && (a.who == .vendor || a.who == .owner))
  else idx == 0x1000 || idx == 0x1004 || (0x9040 ≤ idx && idx ≤ 0x9044)

/-- The objects a neighbour reads (R500). -/
def neighbourReads (key : Nat) : Bool :=
  let idx := key / 256
  (0x1000 ≤ idx && idx ≤ 0x101F) || idx == 0x2020 || idx == 0x3042 || idx == 0x3046 || key == 0x703104 || key == 0x904001

/-- The RouteEntry of a chip number. -/
def routeKey (chip : Nat) : Nat := 256 * (0x1100 + chip / 128) + 1 + chip % 128

/-- The restrictions of R500 on top of the notation. -/
def restricted (s : State) (a : Access) (write : Bool) (key : Nat) : Bool :=
  let idx := key / 256
  (match a.who with
    | .installer => !(if write then key == oOwnerInstall else
        (0x1000 ≤ idx && idx ≤ 0x10FF) || (0x8000 ≤ idx && idx ≤ 0x80FF))
    | _ => false)
  || (isSpare s && !spareAllows write key)
  || (bootStopped s && !stoppedAllows s a write key)
  || (match a.who with
    | .tenant n => (0x6000 ≤ idx && idx ≤ 0x63FF && idx != 0x6000 + n) || 0xF000 ≤ idx
        || (0x8030 ≤ idx && idx ≤ 0x809F && key != oAttestNonce && key != oAttestReport)
    | _ => false)
  || (match a.who with
    | .neighbour c => !(if write then key == oTakeoverStart || key == routeKey c else neighbourReads key)
    | _ => false)
  || ((key == oDebugAccumulators || key == oDebugSaveSlot) && getO s oDebugMode != 1)

/-- Checks 1 and 2 of R504, for a read or a write. With PORST_N low the part serves no access (DESIGN CHOICE). -/
def accessAbort (s : State) (a : Access) (write : Bool) (idx sub : Nat) : Nat :=
  if ¬ s.boot.porstN then abDenied
  else match objRow idx sub with
  | none =>
    if ¬ idxKnown idx then abObject
    else if sub = 0 ∧ ¬ write then (if restricted s a false (256 * idx) then abDenied else abOk)
    else if sub = 0 then abDenied
    else abSubindex
  | some d =>
    if (if write then mayWrite s a d.acc idx else mayRead s a d.acc idx) ∧ ¬ restricted s a write (256 * idx + sub) then abOk
    else abDenied

/-- The bytes a fixed-size type takes (R496). -/
def typeWidth : OType → Option Nat
  | .bool => some 1
  | .u8 => some 1
  | .i8 => some 1
  | .u16 => some 2
  | .i16 => some 2
  | .u32 => some 4
  | .i32 => some 4
  | .u64 => some 8
  | .i64 => some 8
  | .octets _ => none
  | .domain n => some n
  | .domainAny => none

/-- Check 3 of R504 (R497). -/
def lengthOk (t : OType) (v : Bytes) : Bool := match t with
  | .octets m => v.length ≤ m
  | _ => match typeWidth t with
    | some w => v.length == w
    | none => true

/-- A numeric value as its type reads it. -/
def typeInt (t : OType) (v : Bytes) : Int := match t with
  | .i8 => toSigned 8 (leNat v)
  | .i16 => toSigned 16 (leNat v)
  | .i32 => toSigned 32 (leNat v)
  | .i64 => toSigned 64 (leNat v)
  | _ => leNat v

/-- Whether a type holds a number. -/
def isNum : OType → Bool
  | .octets _ => false
  | .domain _ => false
  | .domainAny => false
  | _ => true

/-- The range part of check 4 of R504. -/
def rangeOk (d : ObjDesc) (v : Bytes) : Bool :=
  if ¬ isNum d.typ then true
  else (d.typ != .bool || leNat v ≤ 1) && (match d.range with
    | some (lo, hi) => lo ≤ typeInt d.typ v && typeInt d.typ v ≤ hi
    | none => true)

/-- Checks 1 to 4 of R504, but for the relations of the object's chapter. -/
def gate (s : State) (a : Access) (key : Nat) (v : Bytes) : Nat :=
  match accessAbort s a true (key / 256) (key % 256) with
  | 0 => match objRow (key / 256) (key % 256) with
    | some d => if ¬ lengthOk d.typ v then abLength else if ¬ rangeOk d v then abRange else abOk
    | none => abObject
  | e => e

/-! ### Answers and pending writes (R501, R503, R508) -/

/-- Answer an access with an abort code, counting it (R521). -/
def answer (code : Nat) (s : State) : State :=
  let s := { s with dict := { s.dict with answer := code } }
  if code = 0 then s else bump s oDictAbortCount

/-- Answer a write, counting it. -/
def answerWrite (r : Nat × State) : State := answer r.1 (bump r.2 oDictWriteCount)

/-- A write whose NV write fails is refused with NV_FAULT and leaves everything as it was (R502): of the writes that reach NV before
they are answered, each counts there. -/
def nvAnswer (a : Access) (s : State) (r : Nat × State) : Nat × State :=
  if a.nvFails ∧ r.1 = abOk ∧ getO r.2 oDictNvWriteCount ≠ getO s oDictNvWriteCount then (abNvFault, s) else r

/-- The tick whose starting boundary applies a write accepted now (R42). -/
def dueTick (s : State) : Nat :=
  (s.time.tickNo + (if s.time.phase == .sealed then 2 else 1)) % 2 ^ 64

/-- Room for a pending write (R508). -/
def pendingRoom (s : State) (v : Bytes) : Bool :=
  let mine := s.dict.pending.filter (fun p => p.due == dueTick s)
  mine.length < 1024 && sumN (mine.map (fun p => p.value.length)) + v.length ≤ 262144

/-- Objects that every access context holds for itself and writes for a boundary (R490, R521, R522). -/
def perContext (key : Nat) : Bool := key == oAttestNonce || key == oStatsSnapshotRequest

/-- Whether a pending write is of the object that this access writes. -/
def sameObject (a : Access) (key : Nat) (q : Pending) : Bool := q.key == key && (!perContext key || q.ctx == a.ctx)

/-- Put a write among the pending ones; it withdraws an earlier one of the same object (R501). -/
def addPending (a : Access) (key : Nat) (v : Bytes) (s : State) : State :=
  let p : Pending := ⟨key, v, a.who, a.ctx, dueTick s, s.dict.nextSeq⟩
  { s with dict := { s.dict with
    pending := s.dict.pending.filter (fun q => !sameObject a key q) ++ [p]
    nextSeq := s.dict.nextSeq + 1 } }

/-- Whether an object is persistent. -/
def isPersistent (key : Nat) : Bool := match objRow (key / 256) (key % 256) with
  | some d => d.persistent
  | none => false

/-- Keep an accepted persistent write for the next mirror message (R428). -/
def noteConfig (key : Nat) (v : Bytes) (s : State) : State :=
  if isPersistent key && getO s oBuddyChipId != 0xFFFF then
    { s with mirror := { s.mirror with config := s.mirror.config ++ [(key, v)] } }
  else s

/-- The state without the pending writes of the object that an access writes. -/
def withoutOwn (a : Access) (key : Nat) (s : State) : State :=
  { s with dict := { s.dict with pending := s.dict.pending.filter (fun q => !sameObject a key q) } }

/-- Make a checked write pending, or refuse it with BUSY (R504, check 7). -/
def makePending (a : Access) (key : Nat) (v : Bytes) (s : State) : Nat × State :=
  if pendingRoom (withoutOwn a key s) v then (abOk, noteConfig key v (addPending a key v s)) else (abBusy, s)

/-- The value an object will have once its pending write applies. -/
def pendingValue (s : State) (key : Nat) : Option Bytes := (s.dict.pending.find? (fun p => p.key == key)).map (·.value)

/-- A numeric object's value under the pending writes. -/
def nextO (s : State) (key : Nat) : Nat := match pendingValue s key with
  | some v => leNat v
  | none => getO s key

/-- Write a value to both forms in force: numbers to the values, strings to the strings. -/
def putValue (key : Nat) (v : Bytes) (s : State) : State :=
  match objRow (key / 256) (key % 256) with
  | some d => if isNum d.typ then setO s key (leNat v) else setS s key v
  | none => s

/-- Write a value to the NV region: the copy with the lower sequence number takes it (R502). -/
def nvStore (key : Nat) (v : Bytes) (s : State) : State :=
  let cur := if s.dict.nvA.seq < s.dict.nvB.seq then s.dict.nvB else s.dict.nvA
  let new : NvCopy := { cur with seq := cur.seq + 1, valid := true, vals := sput cur.vals key v }
  let d := if s.dict.nvA.seq < s.dict.nvB.seq then { s.dict with nvA := new } else { s.dict with nvB := new }
  bump { s with dict := d } oDictNvWriteCount

/-- Apply an immediate write: in force, and to NV where it is persistent. -/
def applyNow (key : Nat) (v : Bytes) (s : State) : State :=
  let s := putValue key v s
  if isPersistent key then nvStore key v s else s

end Sys2Proof.Machine
end

