-- ==== Sys2Proof/Machine/Crypto.lean ====
section
/-! DEFINITION. The digests, codes and signatures the spec names: SHA-256 (FIPS 180-4), HMAC-SHA-256, HKDF-SHA-256
(RFC 5869), CRC-32 and ECDSA on P-256 (R474, R485, R487, R392). -/

namespace Sys2Proof.Machine

open Sys2Proof

/-! ### SHA-256 (FIPS 180-4) -/

/-- The round constants, first half. -/
def shaKA : List Word := [
  0x428A2F98#32, 0x71374491#32, 0xB5C0FBCF#32, 0xE9B5DBA5#32, 0x3956C25B#32, 0x59F111F1#32,
  0x923F82A4#32, 0xAB1C5ED5#32, 0xD807AA98#32, 0x12835B01#32, 0x243185BE#32, 0x550C7DC3#32,
  0x72BE5D74#32, 0x80DEB1FE#32, 0x9BDC06A7#32, 0xC19BF174#32, 0xE49B69C1#32, 0xEFBE4786#32,
  0x0FC19DC6#32, 0x240CA1CC#32, 0x2DE92C6F#32, 0x4A7484AA#32, 0x5CB0A9DC#32, 0x76F988DA#32,
  0x983E5152#32, 0xA831C66D#32, 0xB00327C8#32, 0xBF597FC7#32, 0xC6E00BF3#32, 0xD5A79147#32,
  0x06CA6351#32, 0x14292967#32]

/-- The round constants, second half. -/
def shaKB : List Word := [
  0x27B70A85#32, 0x2E1B2138#32, 0x4D2C6DFC#32, 0x53380D13#32, 0x650A7354#32, 0x766A0ABB#32,
  0x81C2C92E#32, 0x92722C85#32, 0xA2BFE8A1#32, 0xA81A664B#32, 0xC24B8B70#32, 0xC76C51A3#32,
  0xD192E819#32, 0xD6990624#32, 0xF40E3585#32, 0x106AA070#32, 0x19A4C116#32, 0x1E376C08#32,
  0x2748774C#32, 0x34B0BCB5#32, 0x391C0CB3#32, 0x4ED8AA4A#32, 0x5B9CCA4F#32, 0x682E6FF3#32,
  0x748F82EE#32, 0x78A5636F#32, 0x84C87814#32, 0x8CC70208#32, 0x90BEFFFA#32, 0xA4506CEB#32,
  0xBEF9A3F7#32, 0xC67178F2#32]

/-- The initial hash value. -/
def shaH0 : List Word := [
  0x6A09E667#32, 0xBB67AE85#32, 0x3C6EF372#32, 0xA54FF53A#32, 0x510E527F#32, 0x9B05688C#32,
  0x1F83D9AB#32, 0x5BE0CD19#32]

/-- A big-endian 32-bit word of a block. -/
def shaWord (b : Bytes) (i : Nat) : Word := BitVec.ofNat 32 (beNat (sub b (4 * i) 4))

/-- The padded message: a 1 bit, zeros, and the length in bits as 64 bits, big-endian. -/
def shaPad (m : Bytes) : Bytes :=
  m ++ [0x80#8] ++ zeros ((119 - m.length % 64) % 64) ++ natBe 8 (8 * m.length)

/-- The message schedule of 64 words, newest first while it is built. -/
def shaSchedule (b : Bytes) : List Word :=
  ((List.range 48).foldl (fun (w : List Word) _ =>
    let w2 := nth 0 w 1
    let w7 := nth 0 w 6
    let w15 := nth 0 w 14
    let w16 := nth 0 w 15
    let s1 := w2.rotateRight 17 ^^^ w2.rotateRight 19 ^^^ (w2 >>> 10)
    let s0 := w15.rotateRight 7 ^^^ w15.rotateRight 18 ^^^ (w15 >>> 3)
    (s1 + w7 + s0 + w16) :: w) ((List.range 16).map (shaWord b)).reverse).reverse

/-- The eight working variables. -/
structure ShaVars where
  a : Word
  b : Word
  c : Word
  d : Word
  e : Word
  f : Word
  g : Word
  h : Word
deriving DecidableEq, Repr

/-- One round. -/
def shaRound (v : ShaVars) (kw : Word × Word) : ShaVars :=
  let s1 := v.e.rotateRight 6 ^^^ v.e.rotateRight 11 ^^^ v.e.rotateRight 25
  let ch := (v.e &&& v.f) ^^^ (~~~v.e &&& v.g)
  let t1 := v.h + s1 + ch + kw.1 + kw.2
  let s0 := v.a.rotateRight 2 ^^^ v.a.rotateRight 13 ^^^ v.a.rotateRight 22
  let mj := (v.a &&& v.b) ^^^ (v.a &&& v.c) ^^^ (v.b &&& v.c)
  ⟨t1 + s0 + mj, v.a, v.b, v.c, v.d + t1, v.e, v.f, v.g⟩

/-- One block. -/
def shaBlock (h : List Word) (b : Bytes) : List Word :=
  let v0 : ShaVars := ⟨nth 0 h 0, nth 0 h 1, nth 0 h 2, nth 0 h 3, nth 0 h 4, nth 0 h 5, nth 0 h 6, nth 0 h 7⟩
  let v := ((shaKA ++ shaKB).zip (shaSchedule b)).foldl shaRound v0
  [v0.a + v.a, v0.b + v.b, v0.c + v.c, v0.d + v.d, v0.e + v.e, v0.f + v.f, v0.g + v.g, v0.h + v.h]

/-- The SHA-256 digest of a byte string, 32 bytes. -/
def sha256 (m : Bytes) : Bytes :=
  let p := shaPad m
  let h := (List.range (p.length / 64)).foldl (fun h i => shaBlock h (sub p (64 * i) 64)) shaH0
  h.flatMap (fun w => natBe 4 w.toNat)

/-- HMAC-SHA-256 under a key. -/
def hmac (key msg : Bytes) : Bytes :=
  let k := padTo 64 (if key.length > 64 then sha256 key else key)
  sha256 (k.map (· ^^^ 0x5C#8) ++ sha256 (k.map (· ^^^ 0x36#8) ++ msg))

/-- HKDF-SHA-256 of 32 bytes (RFC 5869): extract under the salt, then one block of expansion. -/
def hkdf (salt ikm info : Bytes) : Bytes := hmac (hmac salt ikm) (info ++ [1#8])

/-! ### CRC-32 of frames: the IEEE 802.3 polynomial, reflected, initial value and final XOR all ones -/

/-- One bit of the CRC-32. -/
def crc32Bit (c : BitVec 32) : BitVec 32 := if c.getLsbD 0 then (c >>> 1) ^^^ 0xEDB88320#32 else c >>> 1

/-- The CRC-32 of a byte string. -/
def crc32 (d : Bytes) : BitVec 32 :=
  ~~~(d.foldl (fun c b => (List.range 8).foldl (fun c _ => crc32Bit c) (c ^^^ b.setWidth 32)) 0xFFFFFFFF#32)

/-! ### ECDSA and ECDH on P-256 (R474) -/

/-- The field prime of P-256. -/
def p256P : Nat := 0xFFFFFFFF00000001000000000000000000000000FFFFFFFFFFFFFFFFFFFFFFFF

/-- The group order n of P-256. -/
def p256N : Nat := 0xFFFFFFFF00000000FFFFFFFFFFFFFFFFBCE6FAADA7179E84F3B9CAC2FC632551

/-- The curve coefficient b of P-256. -/
def p256B : Nat := 0x5AC635D8AA3A93E7B3EBBD55769886BC651D06B0CC53B0F63BCE3C3E27D2604B

/-- The base point of P-256. -/
def p256G : Option (Nat × Nat) := some
  (0x6B17D1F2E12C4247F8BCE6E563A440F277037D812DEB33A0F4A13945D898C296,
   0x4FE342E2FE1A7F9B8EE7EB4A7C0F9E162BCE33576B315ECECBB6406837BF51F5)

/-- b^e mod m, over the 256 bits of e. -/
def powMod (b e m : Nat) : Nat :=
  ((List.range 256).foldl (fun (x : Nat × Nat) i =>
    (if e / 2 ^ i % 2 = 1 then x.1 * x.2 % m else x.1, x.2 * x.2 % m)) (1, b % m)).1

/-- The inverse modulo a prime. -/
def invMod (a m : Nat) : Nat := powMod a (m - 2) m

/-- Subtraction modulo m. -/
def subMod (a b m : Nat) : Nat := (a + (m - b % m)) % m

/-- Addition of points; `none` is the point at infinity. -/
def ecAdd (x y : Option (Nat × Nat)) : Option (Nat × Nat) :=
  match x, y with
  | none, q => q
  | q, none => q
  | some (x1, y1), some (x2, y2) =>
    let p := p256P
    if x1 = x2 ∧ (y1 + y2) % p = 0 then none
    else
      let l := if x1 = x2 then subMod (3 * x1 * x1) 3 p * invMod (2 * y1 % p) p % p
        else subMod y2 y1 p * invMod (subMod x2 x1 p) p % p
      let x3 := subMod (l * l) (x1 + x2) p
      some (x3, subMod (l * subMod x1 x3 p) y1 p)

/-- Scalar multiplication, over the 256 bits of k. -/
def ecMul (k : Nat) (q : Option (Nat × Nat)) : Option (Nat × Nat) :=
  ((List.range 256).foldl (fun (x : Option (Nat × Nat) × Option (Nat × Nat)) i =>
    (if k / 2 ^ i % 2 = 1 then ecAdd x.1 x.2 else x.1, ecAdd x.2 x.2)) (none, q)).1

/-- A public key's point: 65 bytes, 0x04, X and Y, on the curve (R474). -/
def ecPoint (key : Bytes) : Option (Nat × Nat) :=
  let x := beNat (sub key 1 32)
  let y := beNat (sub key 33 32)
  let p := p256P
  if key.length = 65 ∧ byteAt key 0 = 4 ∧ x < p ∧ y < p
    ∧ y * y % p = (x * x * x + (p - 3) * x + p256B) % p then some (x, y) else none

/-- A point in the uncompressed form of R474. -/
def ecBytes : Option (Nat × Nat) → Bytes
  | some (x, y) => [4#8] ++ natBe 32 x ++ natBe 32 y
  | none => zeros 65

/-- Verify an ECDSA signature (64 bytes, r then s) over a message hashed once with SHA-256 (R474). -/
def ecdsaVerify (key msg sig : Bytes) : Bool :=
  match ecPoint key with
  | none => false
  | some q =>
    let n := p256N
    let r := beNat (sub sig 0 32)
    let s := beNat (sub sig 32 32)
    if sig.length ≠ 64 ∨ r = 0 ∨ r ≥ n ∨ s = 0 ∨ s ≥ n then false
    else
      let z := beNat (sha256 msg)
      let w := invMod s n
      match ecAdd (ecMul (z * w % n) p256G) (ecMul (r * w % n) (some q)) with
      | none => false
      | some (x, _) => x % n == r

/-- A key digest: the SHA-256 of the 65 bytes (R474). -/
def keyDigest (key : Bytes) : Bytes := sha256 key

end Sys2Proof.Machine
end

