-- ==== Sys2Proof/Machine/KvBytes.lean ====
section
/-! DEFINITION. What stands in device-private DRAM for KV state: a page's bytes, a context's descriptor and page tables, and its gate
histories (R155, R202 to R210, R225). A page is held as its fields; a byte that differs from what the fields give stands in `laid`. -/

namespace Sys2Proof.Machine

open Sys2Proof

/-! ### Pages (R202 to R204) -/

/-- ValidCount of a page (R203). -/
def validCount (p : KvPage) : Nat := (p.slots.filter (fun k => k.st != 0)).length

/-- Dimension groups of a KV head: ⌈d/60⌉. -/
def dimGroups (d : Nat) : Nat := ceilDiv d 60

/-- The header burst of a page (R203). -/
def pageHeader (n : Nat) (p : KvPage) : Bytes :=
  withCrc (natLe 4 n ++ natLe 2 p.ctx ++ natLe 1 p.layer ++ natLe 1 (if p.fmt = .a4 then 2 else 1)
    ++ natLe 1 p.slots.length ++ natLe 1 (validCount p) ++ natLe 1 p.heads ++ natLe 1 p.dim
    ++ natLe 4 (p.tenant + (if p.frozen then 1024 else 0)) ++ natLe 8 p.allocTick ++ zeros 38)

/-- The values of a slot: K from its start, V from byte 1,024 (R202). -/
def slotValues (f : Fmt) (k : KvSlot) : Bytes :=
  let pack := fun (l : List Int) => padTo 1024 (if f = .a4 then nibPack l else l.map i8)
  pack k.k ++ pack k.v

/-- The metadata of a page, bytes 64 to 4,351 (R202); VExp bytes past the page's elements hold their default −128. -/
def pageMeta (p : KvPage) : Bytes :=
  let slot := fun (i : Nat) => p.slots[i]?
  let pos := ((List.range 60).map (fun i => natLe 4 (match slot i with | some k => k.pos | none => 0))).flatten
  let st := (List.range 15).map (fun b => BitVec.ofNat 8 (sumN ((List.range 4).map (fun j =>
    (match slot (4 * b + j) with | some k => k.st | none => 0) * 4 ^ j))))
  let score := ((List.range 60).map (fun i => natLe 2 (match slot i with | some k => k.score | none => 0))).flatten
  let kexp := ((List.range 60).map (fun i => padTo 32 (match slot i with
    | some k => k.kExp.map i8
    | none => []))).flatten
  let vexp := (p.vExp.map i8 ++ List.replicate (1024 - p.vExp.length) (0x80 : Byte)).take 1024
  pos ++ st ++ [0] ++ score ++ zeros 72 ++ kexp ++ vexp ++ zeros 896

/-- The CRC of a values line (R58, R202). -/
def lineCrc (b : Bytes) : Nat := (crc16 b).toNat

/-- The 131,072 bytes of a page as its fields give them (R202). -/
def pageFields (n : Nat) (p : KvPage) : Bytes :=
  let vals := padTo 122880 ((p.slots.map (slotValues p.fmt)).flatten)
  let crcs := ((List.range 1920).map (fun l => natLe 2 (lineCrc (sub vals (64 * l) 64)))).flatten
  pageHeader n p ++ pageMeta p ++ crcs ++ vals

/-- Bytes with others laid over them from an offset. -/
def laidOver (m : SMap Byte) (bs : Bytes) : Bytes := bs.mapIdx (fun i b => (sfind m i).getD b)

/-- The 131,072 bytes of a page. -/
def pageBytes (n : Nat) (p : KvPage) : Bytes :=
  if p.laid.isEmpty then pageFields n p else laidOver p.laid (pageFields n p)

/-- `n` signed elements in a page's format from byte `off`. -/
def pageElems (f : Fmt) (b : Bytes) (off n : Nat) : List Int :=
  (List.range n).map (if f = .a4 then nibAt (b.drop off) else i8At (b.drop off))

/-- Slot i of a page's bytes. -/
def slotOf (f : Fmt) (heads dim : Nat) (b : Bytes) (i : Nat) : KvSlot :=
  { pos := fld b (64 + 4 * i) 4
    st := byteAt b (304 + i / 4) / 4 ^ (i % 4) % 4
    score := fld b (320 + 2 * i) 2
    kExp := (List.range (heads * dimGroups dim)).map (fun j => i8At b (512 + 32 * i + j))
    k := pageElems f b (8192 + 2048 * i) (heads * dim)
    v := pageElems f b (9216 + 2048 * i) (heads * dim) }

/-- The fields that a page's bytes hold (R202, R203). -/
def pageRead (b : Bytes) (p : KvPage) : KvPage :=
  let f : Fmt := if byteAt b 7 = 2 then .a4 else .a8
  let heads := byteAt b 10
  let dim := byteAt b 11
  { p with
    ctx := fld b 4 2 % 16384
    layer := byteAt b 6
    fmt := f
    heads := heads
    dim := dim
    tenant := fld b 12 2 % 1024
    frozen := byteAt b 13 / 4 % 2 == 1
    allocTick := fld b 16 8
    slots := (List.range (min 60 (byteAt b 8))).map (slotOf f heads dim b)
    vExp := (List.range (heads * dim)).map (fun j => i8At b (2432 + j)) }

/-- The bytes at which two strings of one length differ, as the first has them. -/
def bytesApart (a b : Bytes) : SMap Byte :=
  ((a.zip b).zipIdx).filterMap (fun x => if x.1.1 = x.1.2 then none else some (x.2, x.1.1))

/-- A page after a core's write of bytes at an offset: its fields as the bytes now give them, and what they do not give. -/
def pageStore (n : Nat) (p : KvPage) (off : Nat) (d : Bytes) : KvPage :=
  let old := pageBytes n p
  let b := old.take off ++ d ++ old.drop (off + d.length)
  let q := pageRead b p
  { q with laid := bytesApart b (pageFields n q) }

/-- Whether byte `a` of a page is of slot `i`: its position, state, score, exponents, values or the CRCs of its lines. -/
def ofSlot (i a : Nat) : Bool :=
  (64 ≤ a && a < 304 && (a - 64) / 4 == i) || a == 304 + i / 4 || (320 ≤ a && a < 440 && (a - 320) / 2 == i)
    || (512 ≤ a && a < 2432 && (a - 512) / 32 == i) || (4352 ≤ a && a < 8192 && (a - 4352) / 64 == i)
    || (8192 ≤ a && (a - 8192) / 2048 == i)

/-- The bytes laid over a page that a device write of it leaves: the header and the changed slots are written anew (R203, R205,
R208). -/
def laidLeft (p q : KvPage) : SMap Byte :=
  p.laid.filter (fun e => 64 ≤ e.1 && !((List.range 60).any (fun i => ofSlot i e.1 && p.slots[i]? != q.slots[i]?)))

/-- A page as the device writes it again. -/
def pageWrite (f : KvPage → KvPage) (p : KvPage) : KvPage :=
  let q := f p
  { q with laid := laidLeft p q }

/-! ### Descriptors, page tables and histories (R155, R209, R210, R225) -/

/-- A bit field of a descriptor. -/
def putBits (lo v : Nat) : Nat := v * 2 ^ lo

/-- The 64 bytes of a context's KV descriptor (R209). -/
def ctxDescriptor (id : Nat) (c : KvCtx) : Bytes :=
  natLe 64 (id % 16384 + putBits 16 c.tenant + putBits 32 c.layers + putBits 48 c.heads + putBits 56 c.dim
    + putBits 64 (if c.fmt = .a4 then 2 else 1) + putBits 66 c.vHeadroom + putBits 69 (if c.frozen then 1 else 0)
    + putBits 70 (if c.prefixOf.isSome then 1 else 0) + putBits 80 (c.prefixOf.getD 0) + putBits 96 c.prefixPos
    + putBits 128 c.keepLimit + putBits 160 c.sink + putBits 176 c.recent + putBits 192 (ofSigned 16 c.decay)
    + putBits 208 c.specReq + putBits 212 c.specWidth + putBits 216 c.rejectRun + putBits 220 c.acceptRun
    + putBits 224 c.tableEntries + putBits 256 c.nextPos + putBits 288 c.specOffLeft)

/-- A page-table entry: PageNo in [20:0], SHARED in [21] (R210). -/
def tableEntry (e : Nat × Bool) : Bytes := natLe 4 (e.1 + (if e.2 then 2 ^ 21 else 0))

/-- Bytes of a context's page tables (R210, R225). -/
def ctxTableBytes (c : KvCtx) : Nat := 4 * c.layers * c.tableEntries

/-- Byte `o` of a context's page tables, layer by layer. -/
def tableByte (c : KvCtx) (o : Nat) : Byte :=
  let per := 4 * max 1 c.tableEntries
  match (nth [] c.tables (o / per))[o % per / 4]? with
  | some e => (tableEntry e).getD (o % 4) 0
  | none => 0

/-- The context whose page tables hold byte `o` of the area, and the byte of them: the tables stand in order of ContextId (log 91). -/
def tableOwner : SMap KvCtx → Nat → Option (KvCtx × Nat)
  | [], _ => none
  | e :: es, o => if o < ctxTableBytes e.2 then some (e.2, o) else tableOwner es (o - ctxTableBytes e.2)

/-- Byte `o` of the KV_TABLE frames: descriptors at 64·ContextId, then the area of page tables (R225). -/
def kvTableByte (k : KvState) (o : Nat) : Byte :=
  if o < 64 * 16384 then
    match sfind k.ctxs (o / 64) with
    | some c => (ctxDescriptor (o / 64) c).getD (o % 64) 0
    | none => 0
  else match tableOwner k.ctxs (o - 64 * 16384) with
    | some x => tableByte x.1 x.2
    | none => 0

/-- Byte `o` of the HISTORY frames: 16 bytes per context and layer, a bit per neuron block; a layer with no history predicts all
(R155). -/
def historyByte (k : KvState) (o : Nat) : Byte :=
  match sfind k.ctxs (o / 4096) with
  | none => 0
  | some c => match sfind c.history (o % 4096 / 16) with
    | none => 0xFF
    | some l => BitVec.ofNat 8 (sumN ((List.range 8).map (fun j => if l.contains (8 * (o % 16) + j) then 2 ^ j else 0)))

end Sys2Proof.Machine
end

