-- ==== Sys2Proof/Machine/RegionBytes.lean ====
section
/-! DEFINITION. The bytes of the structures that the device keeps in regions of its own DRAM: save slots, the tick-record ring, the
segments of variants (R49, R112, R113, R283, R558). -/

namespace Sys2Proof.Machine

open Sys2Proof

/-! ### Save slots (R113) -/

/-- A signed number in so many bytes. -/
def intLe (n : Nat) (i : Int) : Bytes := natLe n (ofSigned (8 * n) i)

/-- The layout of a save slot (R113): accumulators, check accumulators, references, status, next block, tag. -/
def saveBytes (t : SubTile) (block tag : Nat) : Bytes :=
  padTo 230400 ((t.rows.map (fun r => (r.acc.map (intLe 4)).flatten)).flatten)
    ++ padTo 7680 ((t.rows.map (fun r => (r.chk.map (intLe 4)).flatten)).flatten)
    ++ padTo 240 ((t.rows.map (fun r => intLe 1 r.eref)).flatten)
    ++ natLe 4 t.status.toWord ++ natLe 4 block ++ natLe 8 tag

/-- The tile of a pass that stands in the array: the one that takes the next block, or the last. -/
def subNow (subs : List SubTile) (block per : Nat) : SubTile := nth ⟨{}, []⟩ subs (min (block / max 1 per) (subs.length - 1))

/-- The 245,760 bytes of a save slot that holds a tile. -/
def saveSlotBytes (v : SaveSlot) : Bytes :=
  padTo 245760 (saveBytes (subNow v.subs v.block v.per) v.block v.tag ++ intLe 1 v.fref)

/-! ### What stands at an offset of a region -/

/-- The bytes that stand at offset `o` of the tick-record ring, up to the end of their record: record n in place n mod 64 (R49, R558;
log 69). -/
def recordAt (s : State) (o : Nat) : Bytes :=
  match s.record.ring.find? (fun r => r.1 % 64 == o / 524288) with
  | some r => r.2.drop (o % 524288)
  | none => []

/-- The bytes that stand at offset `o` of the save slots, up to the end of their slot (R112, R558). -/
def saveAt (s : State) (o : Nat) : Bytes :=
  match sfind s.engine.saves (o / 245760) with
  | some v => (saveSlotBytes v).drop (o % 245760)
  | none => []

/-- Bytes a segment takes in the pool: it is 64-byte aligned (R283). -/
def segRoom (seg : Bytes) : Nat := 64 * ceilDiv seg.length 64

/-- The segments of a variant as they lie one after the other in its run of the pool (R283). -/
def segRun (v : VarSlot) : Bytes := v.segments.flatMap (fun e => padTo (segRoom e.2) e.2)

/-- The bytes that stand at offset `o` of the variant pool, up to the end of their variant's segments (R283; log 91). -/
def variantBytesAt (s : State) (o : Nat) : Bytes :=
  match s.vars.slots.find? (fun e => e.2.base ≤ o && decide (o < e.2.base + e.2.bytes)) with
  | some e => (segRun e.2).drop (o - e.2.base)
  | none => []

end Sys2Proof.Machine
end

