-- ==== Sys2Proof/Machine/Memory.lean ====
section
/-! DEFINITION. Device memory: frames and their kinds, tenant translation, the coherent content, the Pantry's lines,
and the accesses of cores, engines and links (R305 to R308, R322 to R330, R342, R492, R493). -/

namespace Sys2Proof.Machine

open Sys2Proof

/-! ### Content -/

/-- A byte of device memory; an unlisted byte is zero (R528 zeroes every live frame). -/
def memByte (m : List Host.Cell) (a : Nat) : Byte := sget 0 m a

/-- The `n` bytes from address `a`. -/
def memGet (m : List Host.Cell) (a n : Nat) : Bytes :=
  let part := m.filter (fun c => a ≤ c.1 && c.1 < a + n)
  (List.range n).map (fun i => sget 0 part (a + i))

/-- The listed cells of bytes stored from address `a`. -/
def memCells : Nat → Bytes → List Host.Cell
  | _, [] => []
  | a, b :: bs => if b = 0 then memCells (a + 1) bs else (a, b) :: memCells (a + 1) bs

/-- Memory with bytes stored from address `a`, in its canonical form. -/
def memPut (m : List Host.Cell) (a : Nat) (bs : Bytes) : List Host.Cell :=
  m.filter (fun c => c.1 < a) ++ memCells a bs ++ m.filter (fun c => a + bs.length ≤ c.1)

/-- The canonical form: addresses strictly rising, no entry equal to what an unlisted address reads as. -/
abbrev Memory.wf (m : List Host.Cell) : Prop := swf (0 : Byte) m

/-! ### Frames (R306 to R308, R492) -/

/-- The frame of a device address. -/
def frameOf (a : Nat) : Nat := a / 2097152

/-- Whether every byte of an access lies in a live frame (R307). -/
def liveRange (s : State) (a n : Nat) : Bool := a + n ≤ 2097152 * getO s oDramLiveFrames

/-- Whether a frame lies in one of a list of runs. -/
def inRuns (rs : List (Nat × Nat)) (f : Nat) : Bool := rs.any (fun r => r.1 ≤ f && f < r.1 + r.2)

/-- The tenant that owns a frame of kind TENANT. -/
def frameTenant (s : State) (f : Nat) : Option Nat :=
  match s.dram.tenantFrames.find? (fun e => inRuns e.2 f) with
  | some e => some e.1
  | none => none

/-- The kind of a frame (R319): 0 FREE where no region holds it. -/
def frameKind (s : State) (f : Nat) : Nat :=
  match s.dram.regions.find? (fun r => r.lo ≤ f && f < r.lo + r.n) with
  | some r => r.kind
  | none => if (frameTenant s f).isSome then 2 else 0

/-- The first device address of the region of a kind. -/
def regionBase (s : State) (kind : Nat) : Nat :=
  match s.dram.regions.find? (fun r => r.kind == kind) with
  | some r => r.lo * 2097152
  | none => 0

/-- The bytes of the region of a kind. -/
def regionBytes (s : State) (kind : Nat) : Nat :=
  match s.dram.regions.find? (fun r => r.kind == kind) with
  | some r => r.n * 2097152
  | none => 0

/-- The n-th frame of a list of runs. -/
def runsNth : List (Nat × Nat) → Nat → Option Nat
  | [], _ => none
  | r :: rs, i => if i < r.2 then some (r.1 + i) else runsNth rs (i - r.2)

/-- A tenant's frames. -/
def tenantRuns (s : State) (n : Nat) : List (Nat × Nat) := sget [] s.dram.tenantFrames n

/-- The device address of a tenant address (R492). -/
def translate (s : State) (n a : Nat) : Option Nat :=
  match runsNth (tenantRuns s n) (a / 2097152) with
  | some f => some (f * 2097152 + a % 2097152)
  | none => none

/-- Whether a run of tenant addresses translates; a run of no bytes always does (R15, R350). -/
def translates (s : State) (n a len : Nat) : Bool :=
  len == 0 || decide (a + len ≤ 2097152 * sumN ((tenantRuns s n).map (·.2)))

/-- The pieces of a run of tenant addresses that lie in one frame: device address and length. -/
def tenantPieces (s : State) (n : Nat) : Nat → Nat → Nat → List (Nat × Nat)
  | 0, _, _ => []
  | fuel + 1, a, len =>
    if len = 0 then []
    else
      let k := min len (2097152 - a % 2097152)
      match translate s n a with
      | some d => (d, k) :: tenantPieces s n fuel (a + k) (len - k)
      | none => []

/-! ### The Pantry's lines (R322 to R327) -/

/-- The slice of a line address (R322). -/
def pantrySlice (a : Nat) : Nat :=
  let x := [bits a 7 6, bits a 13 6, bits a 19 6, bits a 25 6, bits a 31 6, bits a 37 6, bits a 43 5]
  x.foldl Nat.xor 0

/-- The key of a slice's set. -/
def setKey (slice set : Nat) : Nat := slice * 2048 + set

/-- The set of an address. -/
def setOf (a : Nat) : Nat := setKey (pantrySlice a) (bits a 13 11)

/-- The page number of an address in the frames of the KV pages (R211). -/
def pageNoOf (s : State) (a : Nat) : Nat := (a - s.dram.kvBase) / 131072 + 1

/-- The tenant a line is charged to: the owner of its TENANT or KV frame, none for the device (R327). -/
def chargeTenant (s : State) (a : Nat) : Option Nat :=
  match frameTenant s (frameOf a) with
  | some n => some n
  | none =>
    if frameKind s (frameOf a) = 3 then (sfind s.kv.pages (pageNoOf s a)).map (·.tenant) else none

/-- The lines charged to a tenant. -/
def tenantLines (s : State) (n : Nat) : Nat :=
  s.dram.pantry.foldl (fun c e => c + (e.2.lines.filter (fun l => l.owner == some n)).length) 0

/-- Where a line stands in its set. -/
def lineAt (p : PSet) (line : Nat) : Option PLine := p.lines.find? (fun l => l.line == line)

/-- Drop a line from its set. -/
def dropLine (p : PSet) (line : Nat) : PSet := { p with lines := p.lines.filter (fun l => l.line != line) }

/-- The lowest way of a set that is neither disabled nor holds a line. -/
def freeWay (p : PSet) : Option Nat :=
  (List.range 16).find? (fun w => !p.off.contains w && !p.lines.any (fun l => l.way == w))

/-- The line an allocation replaces (R323, R327): the tenant's own at its quota, the least recently used KEEP line where
the set may take no more, else nothing while a way is free, else the least recently used line without KEEP, else the
least recently used. -/
def victim (p : PSet) (own : Option Nat) (keepFull : Bool) : Option PLine :=
  match own with
  | some n => p.lines.find? (fun l => l.owner == some n)
  | none =>
    if keepFull then p.lines.find? (·.keep)
    else if (freeWay p).isSome then none
    else match p.lines.find? (fun l => !l.keep) with
      | some l => some l
      | none => p.lines.head?

/-- Allocate a line in its set: the replaced line leaves (its content stands in memory already), the new line is the
most recently used. Nothing is allocated where no way can take it. -/
def allocLine (s : State) (p : PSet) (line : Nat) (keep dirty : Bool) : PSet :=
  let owner := chargeTenant s (line * 128)
  let atQuota := match owner with
    | some n => decide (getO s (tkey oPantryQuotaKiB n) * 8 ≤ tenantLines s n)
    | none => false
  let keepFull := keep && decide (getO s oKeepWaysMax ≤ (p.lines.filter (·.keep)).length)
  let v := victim p (if atQuota then owner else none) keepFull
  let none' := match owner with
    | some n => getO s (tkey oPantryQuotaKiB n) == 0
    | none => false
  if none' || (atQuota && v.isNone) then p
  else
    let p := match v with
      | some l => dropLine p l.line
      | none => p
    match freeWay p with
    | some w => { p with lines := p.lines ++ [⟨line, w, keep, dirty, owner⟩] }
    | none => p

/-- One access to a line under a hint (R323 to R325): a STREAM access, and a LAST read, whose line is dropped again, allocate nothing on a
miss. -/
def touchLine (hint : Hint) (write : Bool) (line : Nat) (s : State) : State :=
  let k := setOf (line * 128)
  let p := sget {} s.dram.pantry k
  let s := modelEnergy (modelUnit 5 (pantrySlice (line * 128))) 4 1 s
  match lineAt p line with
  | some l =>
    let p := dropLine p line
    let p := { p with lines := p.lines ++ [{ l with dirty := l.dirty || write }] }
    bump { s with dram := { s.dram with pantry := sset {} s.dram.pantry k p } } oPantryHitCount
  | none =>
    let s := bump s oPantryMissCount
    if hint = .stream ∨ hint = .last then s
    else
      let p := allocLine s p line (hint == .keep) write
      { s with dram := { s.dram with pantry := sset {} s.dram.pantry k p } }

/-- The lines an access covers. -/
def linesOf (a n : Nat) : List Nat :=
  if n = 0 then [] else (List.range ((a + n - 1) / 128 - a / 128 + 1)).map (· + a / 128)

/-- The bursts an access covers. -/
def burstsOf (a n : Nat) : List Nat :=
  if n = 0 then [] else (List.range ((a + n - 1) / 64 - a / 64 + 1)).map (· + a / 64)

/-- LAST on a write is NORMAL (R324). -/
def writeHint (h : Hint) : Hint := if h = .last then .normal else h

/-- A LAST read drops its line and marks both its bursts DEAD (R325). -/
def killLine (line : Nat) (s : State) : State :=
  let k := setOf (line * 128)
  let p := dropLine (sget {} s.dram.pantry k) line
  let marks := sput (sput s.dram.marks (2 * line) .dead) (2 * line + 1) .dead
  { s with dram := { s.dram with pantry := sset {} s.dram.pantry k p, marks := marks } }

/-! ### What stands at device addresses -/

/-- Bytes of one burst, and what plain memory holds of the burst past them. -/
def overMem (s : State) (a : Nat) (l : Bytes) : Bytes :=
  let x := l.take 64
  x ++ (memGet s.dram.mem a 64).drop x.length

/-- The bytes of one burst: of a KV page, of the KV tables, of the histories, of a structure of the device, or of plain memory. -/
def burstView (s : State) (b : Nat) : Bytes :=
  let a := 64 * b
  match frameKind s (frameOf a) with
  | 3 => match sfind s.kv.pages (pageNoOf s a) with
    | some p => sub (pageBytes (pageNoOf s a) p) ((a - s.dram.kvBase) % 131072) 64
    | none => memGet s.dram.mem a 64
  | 4 => (List.range 64).map (fun i => kvTableByte s.kv (a - regionBase s 4 + i))
  | 5 => overMem s a (recordAt s (a - regionBase s 5))
  | 6 => overMem s a (variantBytesAt s (a - regionBase s 6))
  | 8 => overMem s a (saveAt s (a - regionBase s 8))
  | 9 => (List.range 64).map (fun i => historyByte s.kv (a - regionBase s 9 + i))
  | _ => memGet s.dram.mem a 64

/-- Whether an address lies in frames whose content is held as other state of the device: KV, records, variants, save slots,
histories. -/
def ownFrames (s : State) (b : Nat) : Bool := [3, 4, 5, 6, 8, 9].contains (frameKind s (frameOf (64 * b)))

/-- The bytes that stand at a run of device addresses. -/
def devGet (s : State) (a n : Nat) : Bytes :=
  if (burstsOf a n).any (ownFrames s) then sub ((burstsOf a n).flatMap (burstView s)) (a % 64) n
  else memGet s.dram.mem a n

/-- Store bytes within one burst of such frames: into the KV page that stands there, or into memory where none does. Descriptors, page
tables, histories, records, save slots and variants are the device's own, and such a write leaves them (log 91). -/
def ownPut (s : State) (a : Nat) (d : Bytes) : State :=
  let plain := { s with dram := { s.dram with mem := memPut s.dram.mem a d } }
  match frameKind s (frameOf a) with
  | 3 =>
    let n := pageNoOf s a
    if shas s.kv.pages n then
      { s with kv := { s.kv with pages := smod s.kv.pages n (fun p => pageStore n p ((a - s.dram.kvBase) % 131072) d) } }
    else plain
  | k => if [4, 5, 6, 8, 9].contains k then s else plain

/-- Store bytes at a run of device addresses. -/
def devPut (a : Nat) (bs : Bytes) (s : State) : State :=
  if (burstsOf a bs.length).any (ownFrames s) then
    (burstsOf a bs.length).foldl (fun s b =>
      let lo := max a (64 * b)
      ownPut s lo (sub bs (lo - a) (64 * b + 64 - lo))) s
  else { s with dram := { s.dram with mem := memPut s.dram.mem a bs } }

/-! ### Reads and writes of device addresses -/

/-- What an access to memory can find. -/
inductive MemFault where
  | notLive
  | dead (burst : Nat)
  | lost (burst : Nat)
deriving DecidableEq, Repr

/-- Whether the Pantry holds the line of a burst, so that what the array holds does not matter (R305). -/
def pantryHolds (s : State) (b : Nat) : Bool := (lineAt (sget {} s.dram.pantry (setOf (64 * b))) (b / 2)).isSome

/-- What stands in the way of a read (R307, R311, R325). -/
def readFault (s : State) (a n : Nat) : Option MemFault :=
  if ¬ liveRange s a n then some .notLive
  else (burstsOf a n).findSome? (fun b => match sfind s.dram.marks b with
    | none => none
    | some k => if pantryHolds s b then none else match k with
      | .dead => some (MemFault.dead b)
      | .lost => some (MemFault.lost b))

/-- Read bytes under a hint through the Pantry. -/
def memRead (hint : Hint) (a n : Nat) (s : State) : Except MemFault Bytes × State :=
  match readFault s a n with
  | some f => (.error f, s)
  | none =>
    let d := devGet s a n
    let s := (linesOf a n).foldl (fun s l => touchLine hint false l s) s
    let s := if hint = .last then (linesOf a n).foldl (fun s l => killLine l s) s else s
    (.ok d, s)

/-- A write to a marked burst clears its mark; the bytes of the burst that the write leaves are free values, since a
marked burst encodes no data (R309). -/
def unmark (b : Nat) (s : State) : State :=
  match sfind s.dram.marks b with
  | some _ =>
    if pantryHolds s b then { s with dram := { s.dram with marks := sdel s.dram.marks b } } else
    let r := drawBytes 64 s
    devPut (64 * b) r.1 { r.2 with dram := { r.2.dram with marks := sdel r.2.dram.marks b } }
  | none => s

/-- Write bytes of live memory under a hint through the Pantry; a write outside live frames has no effect (R307). -/
def memWrite (hint : Hint) (a : Nat) (bs : Bytes) (s : State) : State :=
  if bs = [] ∨ ¬ liveRange s a bs.length then s
  else
    let s := (burstsOf a bs.length).foldl (fun s b => unmark b s) s
    let s := devPut a bs s
    (linesOf a bs.length).foldl (fun s l => touchLine (writeHint hint) true l s) s

/-- Read tenant addresses (R342, R492): none where they do not translate or cannot be read. -/
def tenantRead (hint : Hint) (n a len : Nat) (s : State) : Except MemFault Bytes × State :=
  if ¬ translates s n a len then (.error .notLive, s)
  else (tenantPieces s n (len / 2097152 + 2) a len).foldl (fun r p =>
    match r.1 with
    | .error e => (.error e, r.2)
    | .ok d => match memRead hint p.1 p.2 r.2 with
      | (.ok d', s) => (.ok (d ++ d'), s)
      | (.error e, s) => (.error e, s)) (.ok [], s)

/-- Write tenant addresses. -/
def tenantWrite (hint : Hint) (n a : Nat) (bs : Bytes) (s : State) : State :=
  if ¬ translates s n a bs.length then s
  else ((tenantPieces s n (bs.length / 2097152 + 2) a bs.length).foldl (fun r p =>
    (memWrite hint p.1 (r.2.take p.2) r.1, r.2.drop p.2)) (s, bs)).1

/-- Whether the memory controllers let a tag reach an address (R493). -/
def tagAllows (s : State) (tag : MemTag) (a n : Nat) : Bool := match tag with
  | .device => true
  | .tenant t => (burstsOf a n).all (fun b => frameTenant s (frameOf (64 * b)) == some t)

/-! ### Pantry operations (R328) -/

/-- The bytes an atomic's operand takes. -/
def atomicWidth (code : Nat) : Nat := match code with
  | 4 => 8
  | 5 => 64
  | 6 => 2
  | _ => 4

/-- The new value of an atomic's target and the value it returns (R328): `old` is the target, little-endian. -/
def atomicValue (code : Nat) (old v cmp : Nat) (burst oldBytes : Bytes) : Bytes :=
  match code with
  | 0 => natLe 4 (old + v)
  | 1 => natLe 4 (ofSigned 32 (max (toSigned 32 old) (toSigned 32 v)))
  | 2 => natLe 4 (ofSigned 32 (min (toSigned 32 old) (toSigned 32 v)))
  | 3 => natLe 4 v
  | 4 => if old = cmp then natLe 8 v else natLe 8 old
  | 5 => ((List.range 16).map (fun i => natLe 4 (fld oldBytes (4 * i) 4 + fld burst (4 * i) 4))).flatten
  | _ => natLe 2 (l16Add old v).1

/-- A Pantry atomic or reduction at a device address: refused without effect when not aligned or not readable; else the
target's line is allocated and the new value stored. Answers the old value. -/
def atomicOp (code : Nat) (keep : Bool) (a v cmp : Nat) (burst : Bytes) (s : State) : Option Nat × State :=
  let w := atomicWidth code
  if a % w ≠ 0 then (none, s)
  else
    let h : Hint := if keep then .keep else .normal
    match readFault s a w with
    | some _ => (none, s)
    | none =>
      let d := devGet s a w
      let s := memWrite h a (atomicValue code (leNat d) v cmp burst d) s
      (some (leNat d), bump s (if code = 5 then oPantryReduceCount else oPantryAtomicCount))

end Sys2Proof.Machine
end

