-- ==== Sys2Proof/Machine/LinkOps.lean ====
section
/-! DEFINITION. Byari frames and their transport: the frame's bytes, ports and credits, hop sequence and replay buffer,
flows and routes (R388 to R397, R401). -/

namespace Sys2Proof.Machine

open Sys2Proof

/-! ### Opcodes (R393, R394) -/

/-- ACK. -/
def opAck : Nat := 0x00
/-- NAK. -/
def opNak : Nat := 0x01
/-- FLOW_ACK. -/
def opFlowAck : Nat := 0x03
/-- FLOW_NAK. -/
def opFlowNak : Nat := 0x04
/-- FLOW_SYNC. -/
def opFlowSync : Nat := 0x05
/-- LATE. -/
def opLate : Nat := 0x08
/-- WAKE. -/
def opWake : Nat := 0x09
/-- PUT. -/
def opPut : Nat := 0x10
/-- SLOT_PUT. -/
def opSlotPut : Nat := 0x11
/-- GET. -/
def opGet : Nat := 0x12
/-- GET_DATA. -/
def opGetData : Nat := 0x13
/-- REDUCE. -/
def opReduce : Nat := 0x14
/-- ATOMIC. -/
def opAtomic : Nat := 0x15
/-- ATOMIC_RESP. -/
def opAtomicResp : Nat := 0x16
/-- MIRROR_KV. -/
def opMirrorKv : Nat := 0x18
/-- MIRROR_RECORD. -/
def opMirrorRecord : Nat := 0x19
/-- NOTICE. -/
def opNotice : Nat := 0x1A
/-- DICT. -/
def opDict : Nat := 0x1B
/-- DICT_RESP. -/
def opDictResp : Nat := 0x1C

/-- The virtual channel of an opcode; none for a code that R394 does not list. -/
def opVc (op : Nat) : Option Nat := match op with
  | 0x00 | 0x01 | 0x03 | 0x04 | 0x05 | 0x08 | 0x09 => some 0
  | 0x18 | 0x19 => some 1
  | 0x14 => some 2
  | 0x15 => some 3
  | 0x10 | 0x11 | 0x1A => some 4
  | 0x13 => some 5
  | 0x12 | 0x1B => some 6
  | 0x16 | 0x1C => some 7
  | _ => none

/-- Whether an opcode is sequenced (R394). -/
def opSequenced (op : Nat) : Bool := 0x10 ≤ op

/-- The PeerRights bit an opcode needs; none for opcodes that need no right (R398). -/
def opRight (op space : Nat) : Option Nat := match op with
  | 0x18 | 0x19 => some 0
  | 0x14 => some 2
  | 0x10 | 0x11 => if space = 1 then some 3 else some 2
  | 0x12 => if space = 2 ∨ space = 3 then some 1 else some 0
  | 0x15 => some 4
  | 0x1B => some 5
  | 0x09 => some 6
  | _ => none

/-! ### Frames as bytes (R392) -/

/-- Payload bursts of a frame. -/
def fBursts (f : LinkFrame) : Nat := f.payload.length / 64

/-- Bytes 0 to 61 of a header. -/
def headBytes (f : LinkFrame) : Bytes :=
  natLe 1 f.opcode ++ natLe 1 (f.vc + (if f.lastFrame then 8 else 0) + (if f.signal then 16 else 0))
    ++ natLe 2 (fBursts f) ++ natLe 2 f.linkSeq ++ natLe 2 f.linkAck ++ natLe 2 f.destChip ++ natLe 2 f.srcChip
    ++ natLe 4 f.flowSeq ++ natLe 2 f.creditBursts ++ natLe 6 (f.creditVc + 8 * f.hops + 256 * f.space + 1024 * f.tenant)
    ++ natLe 8 f.address ++ natLe 8 f.operand ++ natLe 8 f.operand2 ++ natLe 8 f.tag ++ zeros 6

/-- A header with its Hop fields zero: what the CRC-32 covers of it, since a forwarding chip rewrites the Hop fields and
passes the trailer through unchanged (R392). -/
def hoplessHead (f : LinkFrame) : Bytes :=
  headBytes { f with linkSeq := 0, linkAck := 0, creditBursts := 0, creditVc := 0, hops := 0 } ++ zeros 2

/-- The trailer: the CRC-32 and four zero bytes. -/
def trailer (f : LinkFrame) : Bytes := natLe 4 (crc32 (hoplessHead f ++ f.payload)).toNat ++ zeros 4

/-- The bytes of a frame. -/
def frameBytes (f : LinkFrame) : Bytes :=
  headBytes f ++ natLe 2 (crc16 (headBytes f)).toNat ++ f.payload ++ trailer f

/-- A frame's fields from its bytes, unchecked. -/
def frameFields (b : Bytes) : LinkFrame :=
  let c := fld b 18 6
  { opcode := byteAt b 0
    vc := byteAt b 1 % 8
    lastFrame := bits (byteAt b 1) 3 1 == 1
    signal := bits (byteAt b 1) 4 1 == 1
    linkSeq := fld b 4 2 % 4096
    linkAck := fld b 6 2 % 4096
    destChip := fld b 8 2
    srcChip := fld b 10 2
    flowSeq := fld b 12 4
    creditBursts := fld b 16 2
    creditVc := c % 8
    hops := bits c 3 5
    space := bits c 8 2
    tenant := bits c 10 10
    address := fld b 24 8
    operand := fld b 32 8
    operand2 := fld b 40 8
    tag := fld b 48 8
    payload := sub b 64 (64 * fld b 2 2) }

/-- Whether HeaderCrc matches. -/
def headCrcOk (b : Bytes) : Bool := (crc16 (b.take 62)).toNat == fld b 62 2

/-- A frame from its bytes: none where a CRC, the length or the trailer's zeros do not match (R392, R395). -/
def frameDecode (b : Bytes) : Option LinkFrame :=
  let f := frameFields b
  if 72 ≤ b.length ∧ fld b 2 2 ≤ 64 ∧ b.length = 72 + 64 * fld b 2 2 ∧ headCrcOk b
      ∧ b.drop (64 + 64 * fld b 2 2) = trailer f then some f else none

/-- An empty frame of an opcode to a chip. -/
def newFrame (s : State) (op dest : Nat) : LinkFrame :=
  { opcode := op
    vc := (opVc op).getD 0
    lastFrame := false
    signal := false
    linkSeq := 0
    linkAck := 0
    destChip := dest
    srcChip := getO s oChipId
    flowSeq := 0
    creditBursts := 0
    creditVc := 0
    hops := 15
    space := 0
    tenant := 0
    address := 0
    operand := 0
    operand2 := 0
    tag := 0
    payload := [] }

/-- Bytes padded to whole bursts. -/
def toBursts (b : Bytes) : Bytes := padTo (64 * ceilDiv b.length 64) b

/-! ### Ports (R388, R390, R393) -/

/-- A port. -/
def portGet (s : State) (p : Nat) : Port := sget {} s.links.ports p

/-- Change a port. -/
def portMod (p : Nat) (f : Port → Port) (s : State) : State :=
  { s with links := { s.links with ports := supd {} s.links.ports p f } }

/-- Count in the link counter i, 1 LinkCrcErrorCount to 12 NoticeSentCount (R407). -/
def linkBump (i : Nat) (s : State) : State := bump s (oLinkCounter + i - 1)

/-- The weight of a VC of 2 to 7. -/
def vcWeight (s : State) (vc : Nat) : Nat := getO s (oVcWeight + vc - 2)

/-- Whether a port carries Byari frames of an opcode: UP or DEGRADED in BYARI mode, or LISTEN for control frames and
responses (R391, R405). -/
def carries (p : Port) (op : Nat) : Bool :=
  p.mode == 1 && (p.st == 2 || p.st == 3 || (p.st == 4 && (op < 0x10 || op == opDictResp)))

/-- The bursts a frame costs. -/
def frameCost (f : LinkFrame) : Nat := fBursts f + 2

/-- Hop frames, which take no credit: ACK and NAK. -/
def hopFrame (f : LinkFrame) : Bool := f.opcode ≤ 1

/-- Bytes that stand in a replay buffer. -/
def replayBytes (p : Port) : Nat := sumN (p.replay.map (fun r => 72 + r.1.payload.length))

/-- Whether a port can send a frame now: credit, and room in the replay buffer for a sequenced frame (R393, R395). -/
def canSend (p : Port) (f : LinkFrame) : Bool :=
  carries p f.opcode && (hopFrame f || decide (frameCost f ≤ nth 0 p.credits f.vc))
    && (!opSequenced f.opcode || (p.replay.length < 2048 && replayBytes p + 72 + f.payload.length ≤ 524288))

/-- The credits a frame returns: those owed on the lowest VC that is owed any. -/
def owedVc (p : Port) : Option Nat := p.owed.findIdx? (fun n => n != 0)

/-- Put a frame on the wire of a port: its Hop fields are set, credits are spent, a sequenced frame enters the replay
buffer. -/
def wire (n : Nat) (f : LinkFrame) (s : State) : State :=
  let p := portGet s n
  let seq := opSequenced f.opcode
  let f := { f with linkSeq := if seq then p.txSeq else 0, linkAck := (p.rxSeq + 4095) % 4096 }
  let f := match owedVc p with
    | some v => { f with creditBursts := min 65535 (nth 0 p.owed v), creditVc := v }
    | none => { f with creditBursts := 0, creditVc := 0 }
  let s := portMod n (fun p => { p with
    txSeq := if seq then (p.txSeq + 1) % 4096 else p.txSeq
    replay := if seq then p.replay ++ [(f, 0)] else p.replay
    credits := if hopFrame f then p.credits else updNth p.credits f.vc (· - frameCost f)
    owed := match owedVc p with
      | some v => updNth p.owed v (· - f.creditBursts)
      | none => p.owed
    ackDue := false }) s
  emit (.frame n f) (modelEnergy (modelUnit 8 n) 7 (fBursts f) s)

/-- The next waiting frame a port sends: CONTROL first, then MIRROR, then VCs 2 to 7 by deficit round robin, with the
deficits after it (R393). -/
def nextWaiting (s : State) (p : Port) : Option (LinkFrame × List Nat) :=
  let head := fun (v : Nat) => (p.waiting.find? (fun f => f.vc == v)).bind (fun f => if canSend p f then some f else none)
  match head 0 with
  | some f => some (f, p.deficit)
  | none => match head 1 with
    | some f => some (f, p.deficit)
    | none =>
      let hs := (List.range 6).filterMap (fun i => (head (i + 2)).map (fun f => (i + 2, f)))
      match hs with
      | [] => none
      | _ =>
        let need := fun (x : Nat × LinkFrame) => ceilDiv (frameCost x.2 - nth 0 p.deficit x.1) (max 1 (vcWeight s x.1))
        let rounds := (hs.map need).foldl min (need (hs.headD (0, newFrame s 0 0)))
        let d := hs.foldl (fun d x => updNth d x.1 (· + rounds * vcWeight s x.1)) p.deficit
        match hs.find? (fun x => decide (frameCost x.2 ≤ nth 0 d x.1)) with
        | some x => some (x.2, updNth d x.1 (· - frameCost x.2))
        | none => none

/-- Remove the first frame equal to one. -/
def dropFirst (f : LinkFrame) : List LinkFrame → List LinkFrame
  | [] => []
  | g :: r => if g = f then r else g :: dropFirst f r

/-- Send what a port's waiting frames and credits allow. -/
def drainPort (n : Nat) : Nat → State → State
  | 0, s => s
  | k + 1, s =>
    if s.faults.failed then s
    else match nextWaiting s (portGet s n) with
      | none => s
      | some (f, d) =>
        drainPort n k (wire n f (portMod n (fun p => { p with waiting := dropFirst f p.waiting, deficit := d }) s))

/-- Offer a frame to a port: it waits there until credit and priority let it leave (R378, R393). -/
def offer (n : Nat) (f : LinkFrame) (s : State) : State :=
  let s := portMod n (fun p => { p with waiting := p.waiting ++ [f] }) s
  drainPort n ((portGet s n).waiting.length) s

/-! ### Routes (R397) -/

/-- Whether a port is DOWN or carries no Byari frame. -/
def portUp (s : State) (n : Nat) : Bool :=
  let p := portGet s n
  p.mode == 1 && (p.st == 1 || p.st == 2 || p.st == 3)

/-- The port to a chip: the primary, or the alternate while the primary is DOWN. -/
def routePort (s : State) (chip : Nat) : Option Nat :=
  let e := getO s (routeKey chip)
  let pr := bits e 0 4
  let al := bits e 4 4
  if bits e 8 1 = 1 ∧ portUp s pr then some pr
  else if bits e 9 1 = 1 ∧ portUp s al then some al
  else none

/-- Send a frame towards its destination: in a spare state through the listen port (R405); without a route it is dropped and
counted in RemoteDeniedCount. A chip without a ChipId sends none (R532). -/
def routeFrame (f : LinkFrame) (s : State) : State :=
  if getO s oChipId = 0xFFFF then s
  else if isSpare s then offer (getO s oPilotListenPort) f s
  else match routePort s f.destChip with
    | some p => offer p f s
    | none => linkBump 6 s

/-! ### Flows (R396) -/

/-- The key of a flow with a chip on a VC. -/
def flowKey (chip vc : Nat) : Nat := 8 * chip + vc

/-- The sending side of a flow. -/
def txGet (s : State) (k : Nat) : FlowTx := sget {} s.links.tx k

/-- Change the sending side of a flow. -/
def txMod (k : Nat) (f : FlowTx → FlowTx) (s : State) : State :=
  { s with links := { s.links with tx := supd {} s.links.tx k f } }

/-- The receiving side of a flow. -/
def rxGet (s : State) (k : Nat) : FlowRx := sget {} s.links.rx k

/-- Change the receiving side of a flow. -/
def rxMod (k : Nat) (f : FlowRx → FlowRx) (s : State) : State :=
  { s with links := { s.links with rx := supd {} s.links.rx k f } }

/-- Bursts that stand unacknowledged in a flow. -/
def flowBursts (t : FlowTx) : Nat := sumN (t.unacked.map fBursts)

/-- Bytes in the flow store. -/
def storeBytes (s : State) : Nat :=
  sumN (s.links.tx.map (fun e => sumN (e.2.unacked.map (fun f => 72 + f.payload.length))))

/-- Whether a flow and the store have room for a frame. -/
def flowRoom (s : State) (t : FlowTx) (f : LinkFrame) : Bool :=
  flowBursts t + fBursts f ≤ getO s oFlowWindowBursts
    && storeBytes s + 72 + f.payload.length ≤ 1048576 * getO s oFlowStoreMiB

/-- Number a frame and send it. -/
def flowPush (f : LinkFrame) (s : State) : State :=
  let k := flowKey f.destChip f.vc
  let f := { f with flowSeq := (txGet s k).next }
  routeFrame f (txMod k (fun t => { t with
    next := (t.next + 1) % 2 ^ 32
    unacked := t.unacked ++ [f] }) s)

/-- Send a sequenced frame on its flow, or stall it until the flow's window and the store have room. -/
def flowSend (f : LinkFrame) (s : State) : State :=
  let k := flowKey f.destChip f.vc
  let t := txGet s k
  if t.stalled = [] ∧ flowRoom s t f then flowPush f s
  else txMod k (fun t => { t with stalled := t.stalled ++ [f] }) s

/-- Send stalled frames of a flow while they fit. -/
def flowDrain (k : Nat) : Nat → State → State
  | 0, s => s
  | n + 1, s => match (txGet s k).stalled with
    | [] => s
    | f :: r =>
      if flowRoom s (txGet s k) f then flowDrain k n (flowPush f (txMod k (fun t => { t with stalled := r }) s)) else s

/-- Whether sequence number a is at most b, modulo 2^32. -/
def seqLe (a b : Nat) : Bool := (b + 2 ^ 32 - a) % 2 ^ 32 < 2 ^ 31

/-- Send a list of frames, in order. -/
def sendAll (fs : List LinkFrame) (s : State) : State := fs.foldl (fun s f => flowSend f s) s

/-- Bytes cut into frames of an opcode to a chip, the last with LAST set as asked. -/
def cutFrames (s : State) (op dest : Nat) (lastSet : Bool) (b : Bytes) : List LinkFrame :=
  let b := toBursts b
  let n := max 1 (ceilDiv b.length 4096)
  (List.range n).map (fun i => { newFrame s op dest with
    payload := sub b (4096 * i) 4096
    operand := 4096 * i
    lastFrame := lastSet && i + 1 == n })

/-- The FlowSeq that the next frame of a flow takes once the stalled ones have left. -/
def flowNext (s : State) (k : Nat) : Nat := ((txGet s k).next + (txGet s k).stalled.length) % 2 ^ 32

/-! ### LATE (R401) -/

/-- The members of a collective group. -/
def groupMembers (s : State) (g : Nat) : List Nat :=
  let b := getS s (oCollectiveGroup + g)
  (List.range (b.length / 2)).map (fun i => fld b (2 * i) 2)

/-- The groups with an open instance that this chip is a member of. -/
def openGroups (s : State) : List Nat :=
  ((s.links.insts.map (·.group)).eraseDups).filter (fun g => (groupMembers s g).contains (getO s oChipId))

/-- Send a LATE frame to every other member of each group with an open instance that this chip contributes to. -/
def sendLate (cause delay : Nat) (s : State) : State :=
  (openGroups s).foldl (fun s g =>
    ((groupMembers s g).filter (· != getO s oChipId)).foldl (fun s c =>
      linkBump 7 (routeFrame { newFrame s opLate c with
        operand := s.time.tickNo
        operand2 := g + 65536 * delay + 4294967296 * cause } s)) s) s

/-- The chip that the mirror goes to: the buddy, or the alternate buddy once it has acknowledged a snapshot (R427, R430). -/
def mirrorTo (s : State) : Nat := if s.mirror.toAlt then getO s oBuddyAltChipId else getO s oBuddyChipId

end Sys2Proof.Machine
end

