-- ==== Sys2Proof/Machine/Kv.lean ====
section
/-! DEFINITION. KV pages and contexts: packing of output groups, appends, clearing and rollback, the KV work of a commit,
speculation widths, compaction and context creation (R97 to R99, R177, R202 to R224, R415). -/

namespace Sys2Proof.Machine

open Sys2Proof

/-! ### Output values and their packing (R97, R177) -/

/-- Requantize a group of integers of one exponent, or of several aligned to their least (R97 to R99). -/
def packInts (q : Nat) (draw : Nat → Nat) (l : List (Int × Int)) : DrainOut :=
  let es := (l.filter (fun x => x.1 != 0)).map (·.2)
  let e := match es with
    | [] => (l.headD (0, 0)).2
    | x :: xs => xs.foldl min x
  drainGroup q e draw (l.map (fun x => x.1 * 2 ^ (x.2 - e).toNat))

/-- Pack one group of output values. -/
def packVals (q : Nat) (draw : Nat → Nat) (l : List OutVal) : DrainOut :=
  if l.any (fun v => match v with | .log _ => true | _ => false) then
    packL16 q draw (l.map (fun v => match v with | .log c => c | .int _ _ => none))
  else packInts q draw (l.map (fun v => match v with | .int a e => (a, e) | .log _ => (0, 0)))

/-! ### Pages (R202 to R208) -/

/-- A page of KV. -/
def pageGet (s : State) (n : Nat) : Option KvPage := sfind s.kv.pages n

/-- Change a page: the device writes its header and the slots that change anew. -/
def pageMod (n : Nat) (f : KvPage → KvPage) (s : State) : State :=
  { s with kv := { s.kv with pages := smod s.kv.pages n (pageWrite f) } }

/-- A context. -/
def kvCtx (s : State) (c : Nat) : Option KvCtx := sfind s.kv.ctxs c

/-- Change a context. -/
def kvCtxMod (c : Nat) (f : KvCtx → KvCtx) (s : State) : State :=
  { s with kv := { s.kv with ctxs := smod s.kv.ctxs c f } }

/-- A cleared slot (R208): State, Score, exponents and values go, Pos stays. -/
def KvSlot.clear (k : KvSlot) : KvSlot :=
  { k with
    st := 0
    score := 0
    kExp := k.kExp.map (fun _ => 0)
    k := k.k.map (fun _ => 0)
    v := k.v.map (fun _ => 0) }

/-! ### The pool (R211) -/

/-- Page numbers that requests hold reserved. -/
def reservedPages (s : State) : List Nat := (s.sched.reqs.map (fun e => e.2.reserved)).flatten

/-- Pages of the pool in force: the lesser of KvPoolPages and MirrorQuotaPages where a buddy is configured (R427). -/
def poolPages (s : State) : Nat :=
  if getO s oBuddyChipId = 0xFFFF then s.kv.pool else min s.kv.pool (getO s oMirrorQuotaPages)

/-- Free pages: neither in use nor reserved. -/
def freePages (s : State) : Nat := poolPages s - s.kv.pages.length - (reservedPages s).length

/-- The lowest numbers from `k` up that are not in use; `fuel` bounds the numbers looked at. -/
def freeNums (used : Nat → Bool) : Nat → Nat → Nat → List Nat
  | 0, _, _ => []
  | f + 1, want, k =>
    if want = 0 then []
    else if used k then freeNums used f want (k + 1)
    else k :: freeNums used f (want - 1) (k + 1)

/-- The lowest `n` page numbers that are free. -/
def takePages (s : State) (n : Nat) : List Nat :=
  let res := reservedPages s
  freeNums (fun k => shas s.kv.pages k || res.contains k) (n + s.kv.pages.length + res.length) n 1

/-- The last own page of a layer. -/
def lastOwn (c : KvCtx) (layer : Nat) : Option Nat :=
  ((nth [] c.tables layer).filter (fun e => !e.2)).getLast?.map (·.1)

/-- Pages that `count` appends to a layer could open (R211). -/
def pagesNeeded (s : State) (c : KvCtx) (layer count : Nat) : Nat :=
  let fill := match (lastOwn c layer).bind (pageGet s) with
    | some p => p.slots.length
    | none => 60
  ceilDiv (count - (60 - fill)) 60

/-- A new empty page of a context's layer. -/
def newPage (s : State) (id : Nat) (c : KvCtx) (layer : Nat) : KvPage :=
  { ctx := id
    layer := layer
    fmt := c.fmt
    heads := c.heads
    dim := c.dim
    tenant := c.tenant
    frozen := c.frozen
    allocTick := s.time.tickNo
    slots := []
    vExp := List.replicate (c.heads * c.dim) (-128)
    vBase := List.replicate (c.heads * c.dim) (-128) }

/-- Add a page to a layer's table. -/
def tableAdd (layer page : Nat) (c : KvCtx) : KvCtx :=
  { c with tables := updNth c.tables layer (fun t => t ++ [(page, false)]) }

/-- A page that enters a table is written whole, which clears what marks its bursts carry (R309; log 91). -/
def freshMarks (n : Nat) (s : State) : State :=
  let b := (s.dram.kvBase + (n - 1) * 131072) / 64
  { s with dram := { s.dram with marks := s.dram.marks.filter (fun m => m.1 < b || b + 2048 ≤ m.1) } }

/-! ### Appends (R205, R206) -/

/-- An empty slot of a page at a position, TENTATIVE. -/
def freshSlot (p : KvPage) (pos : Nat) : KvSlot :=
  ⟨pos, 3, 0, List.replicate (p.heads * dimGroups p.dim) 0, List.replicate (p.heads * p.dim) 0,
    List.replicate (p.heads * p.dim) 0⟩

/-- The slot of the last own page that holds a position, if the row is already there. -/
def slotAt (s : State) (c : KvCtx) (layer pos : Nat) : Option (Nat × Nat) :=
  (((nth [] c.tables layer).filter (fun e => !e.2)).reverse.findSome? (fun e =>
    match pageGet s e.1 with
    | some p => (p.slots.findIdx? (fun k => k.pos == pos && k.st == 3)).map (fun i => (e.1, i))
    | none => none))

/-- Open the slot of a row (R205, steps 1 and 2): a page from the request's reservation where the last is full. The two
appends of a row, of its keys and of its values, share the slot. Answers page, slot and the reservation left. -/
def openSlot (id layer pos : Nat) (res : List Nat) (s : State) : Option (Nat × Nat) × List Nat × State :=
  match kvCtx s id with
  | none => (none, res, s)
  | some c =>
    match slotAt s c layer pos with
    | some x => (some x, res, s)
    | none =>
      let full := match (lastOwn c layer).bind (pageGet s) with
        | some p => decide (60 ≤ p.slots.length)
        | none => true
      let (page, res, s) := if full then
          match res with
          | n :: r =>
            let s := { s with kv := { s.kv with pages := sput s.kv.pages n (newPage s id c layer) } }
            let s := freshMarks n s
            (some n, r, kvCtxMod id (tableAdd layer n) s)
          | [] => (none, [], s)
        else (lastOwn c layer, res, s)
      match page with
      | none => (none, res, s)
      | some n =>
        let ix := match pageGet s n with
          | some p => p.slots.length
          | none => 0
        let s := pageMod n (fun p => { p with slots := p.slots ++ [freshSlot p pos] }) s
        (some (n, ix), res, bump s oKvAppendCount)

/-- Change a slot of a page. -/
def slotMod (page ix : Nat) (f : KvSlot → KvSlot) (s : State) : State :=
  pageMod page (fun p => { p with slots := updNth p.slots ix f }) s

/-- The K groups of a row: dimensions 60q to 60q + 59 of one head each (R205). -/
def kGroups (heads dim : Nat) : List (Nat × Nat) :=
  ((List.range heads).map (fun h => (List.range (dimGroups dim)).map (fun q =>
    (h * dim + 60 * q, min 60 (dim - 60 * q))))).flatten

/-- Write the keys of a row into its slot (R205, steps 3 and 4). Answers the drained groups. -/
def appendK (page ix : Nat) (q : Nat) (draw : Nat → Nat) (vals : List OutVal) (s : State) : List DrainOut × State :=
  match pageGet s page with
  | none => ([], s)
  | some p =>
    let gs := (kGroups p.heads p.dim).map (fun g =>
      packVals q (fun j => draw (g.1 + j)) ((vals.drop g.1).take g.2))
    (gs, slotMod page ix (fun k => { k with kExp := gs.map (·.exp), k := (gs.map (·.elems)).flatten }) s)

/-- The least exponent at which one value fits ±Q under R97; none for a zero. -/
def fitExp (q : Nat) : OutVal → Option Int
  | .int v e => if v = 0 then none else some (e + drainShift v.natAbs q 1024 (-128 - e))
  | .log (some c) =>
    if l16IsZero c then none
    else if l16IsInf c then some 127
    else some (l16Shift (l16Mag c) q 512 (-128))
  | .log none => none

/-- A V value rounded to its page's exponent (R206): the element, and whether it clipped. -/
def roundV (q : Nat) (vexp : Int) (draw : Nat) : OutVal → Int × Bool
  | .int v e =>
    let s := vexp - e
    let o := if s ≤ 0 then v * 2 ^ (-s).toNat else
      let k := s.toNat
      let x := if k ≤ 64 then draw / 2 ^ (64 - k) else draw * 2 ^ (k - 64)
      (v + x).fdiv (2 ^ k)
    (clamp (-(q : Int)) q o, decide (q < o.natAbs))
  | .log none => (0, false)
  | .log (some c) =>
    let o := (ltoiAt c vexp 2 (draw / 2 ^ 32)).1
    (clamp (-(q : Int)) q o, decide (q < o.natAbs))

/-- The exponent of one (head, dimension) of a page after a drain's rows (R206): set by the first non-zero values. -/
def vexpAfter (q headroom : Nat) (old : Int) (vals : List OutVal) : Int :=
  if old ≠ -128 then old
  else match vals.filterMap (fitExp q) with
    | [] => -128
    | x :: xs => clamp (-127) 127 (xs.foldl max x + headroom)

/-- Write the values of a drain's rows into their slots (R206): per page, the exponents that are unset are fixed from
the drain's rows first. Answers the count of clips. -/
def appendV (q : Nat) (draw : Nat → Nat → Nat) (rows : List (Nat × Nat × List OutVal)) (s : State) : Nat × State :=
  let pages := (rows.map (·.1)).eraseDups
  let s := pages.foldl (fun s n =>
    match pageGet s n with
    | none => s
    | some p =>
      let mine := rows.filter (fun r => r.1 == n)
      let h := match kvCtx s p.ctx with | some c => c.vHeadroom | none => 0
      pageMod n (fun p => { p with vExp := p.vExp.mapIdx (fun j e =>
        vexpAfter q h e (mine.map (fun r => nth (OutVal.int 0 0) r.2.2 j))) }) s) s
  (rows.zipIdx).foldl (fun st ri =>
    let r := ri.1
    match pageGet st.2 r.1 with
    | none => st
    | some p =>
      let outs := (p.vExp.zip (r.2.2)).mapIdx (fun j x =>
        if x.1 = -128 then ((0 : Int), false) else roundV q x.1 (draw ri.2 j) x.2)
      (st.1 + (outs.filter (·.2)).length,
        slotMod r.1 r.2.1 (fun k => { k with v := outs.map (·.1) }) st.2)) (0, s)

/-! ### Clearing, rollback, commit (R208, R216, R415) -/

/-- The own pages of a context's layer. -/
def ownPages (c : KvCtx) (layer : Nat) : List Nat :=
  ((nth [] c.tables layer).filter (fun e => !e.2)).map (·.1)

/-- All own pages of a context. -/
def allOwn (c : KvCtx) : List Nat := ((List.range c.tables.length).map (ownPages c)).flatten

/-- Change every slot of a context's own pages. -/
def slotsMap (id : Nat) (f : KvSlot → KvSlot) (s : State) : State :=
  match kvCtx s id with
  | some c => (allOwn c).foldl (fun s n => pageMod n (fun p => { p with slots := p.slots.map f }) s) s
  | none => s

/-- Clear the TENTATIVE slots of a context (R216). -/
def clearTentative (id : Nat) (s : State) : State := slotsMap id (fun k => if k.st = 3 then k.clear else k) s

/-- Roll a context back to before the request (R415): slots it appended go, exponents it fixed are unset, pages it opened
return to its reservation. Answers those pages. -/
def rollbackCtx (id : Nat) (s : State) : List Nat × State :=
  match kvCtx s id with
  | none => ([], s)
  | some c =>
    (allOwn c).foldl (fun r n =>
      match pageGet r.2 n with
      | none => r
      | some p =>
        let left := p.slots.filter (fun k => k.st != 3)
        if left.length = p.slots.length then r
        else if left.isEmpty then
          let s := { r.2 with kv := { r.2.kv with pages := sdel r.2.kv.pages n } }
          (r.1 ++ [n], kvCtxMod id (fun c => { c with tables := c.tables.map (fun t => t.filter (fun e => e.1 != n)) }) s)
        else (r.1, pageMod n (fun p => { p with slots := left, vExp := p.vBase }) r.2)) ([], s)

/-- Free a context's own pages whose ValidCount is 0 (R216, step 5). -/
def freeEmpty (id : Nat) (s : State) : State :=
  match kvCtx s id with
  | none => s
  | some c =>
    (allOwn c).foldl (fun s n =>
      match pageGet s n with
      | some p => if validCount p = 0 then
          let s := { s with kv := { s.kv with pages := sdel s.kv.pages n } }
          let s := kvCtxMod id (fun c => { c with tables := c.tables.map (fun t => t.filter (fun e => e.1 != n)) }) s
          bump s oKvPageFreeCount
        else s
      | none => s) s

/-- The LADD fold of a slot's deltas in tile order, those of query positions from P_acc on left out (R217). -/
def foldDeltas (ds : List Delta) (id layer key : Nat) (pacc : Option Nat) : Nat :=
  ((ds.filter (fun d => d.ctx == id && d.layer == layer && d.key == key && (match pacc with
    | some p => decide (d.pos < p)
    | none => true))).mergeSort (fun a b => a.order < b.order || (a.order == b.order && a.pos ≤ b.pos))).foldl
      (fun a d => (l16Add a d.code).1) 0

/-- Update the scores of a layer (R217). -/
def scoreLayer (id layer : Nat) (ds : List Delta) (pacc : Option Nat) (s : State) : State :=
  match kvCtx s id with
  | none => s
  | some c =>
    (ownPages c layer).foldl (fun s n => pageMod n (fun p => { p with slots := p.slots.mapIdx (fun i k =>
      if k.st = 1 then
        { k with score := (l16Add (l16Scl k.score c.decay).1 (foldDeltas ds id layer (64 * n + i) pacc)).1 }
      else k) }) s) s

/-- The own COMMITTED slots of a layer: page, slot index, position and score. -/
def committed (s : State) (c : KvCtx) (layer : Nat) : List (Nat × Nat × Nat × Nat) :=
  ((ownPages c layer).map (fun n => match pageGet s n with
    | some p => (p.slots.zipIdx.filter (fun x => x.1.st == 1)).map (fun x => (n, x.2, x.1.pos, x.1.score))
    | none => [])).flatten

/-- Whether one candidate is evicted before another: lower score by R75, then lower position (R218). -/
def evictBefore (a b : Nat × Nat × Nat × Nat) : Bool :=
  if l16Key a.2.2.2 = l16Key b.2.2.2 then a.2.2.1 ≤ b.2.2.1 else l16Key a.2.2.2 < l16Key b.2.2.2

/-- The EVICT entry (R219). -/
def evictEntry (id layer : Nat) (pos : List Nat) : Bytes :=
  let n := pos.length
  let body := natLe 2 id ++ natLe 1 layer ++ natLe 2 n ++ zeros 3 ++ (pos.map (natLe 4)).flatten
    ++ (if n % 2 = 1 then zeros 4 else [])
  entry 0x07 body

/-- The EVICT entry that a spare holds of the commit it replays (R219). -/
def heldEvict (s : State) (id layer : Nat) : Option Bytes :=
  if s.mirror.begun then s.mirror.image.evicts.find? (fun e => fld e 8 2 == id && byteAt e 10 == layer) else none

/-- Compare a replayed eviction with the entry held, which is then spent; a difference is a replay divergence (R219, R435). -/
def compareEvict (id layer : Nat) (mine : Option Bytes) (s : State) : State := match heldEvict s id layer with
  | none => s
  | some e => { s with mirror := { s.mirror with
      diverged := s.mirror.diverged || mine != some e
      image := { s.mirror.image with evicts := s.mirror.image.evicts.filter (· != e) } } }

/-- Evict from a layer down to KeepLimit (R218, R219). -/
def evictLayer (id layer nextPos : Nat) (s : State) : State :=
  match kvCtx s id with
  | none => s
  | some c =>
    let own := committed s c layer
    let excess := own.length - c.keepLimit
    if c.keepLimit = 0xFFFFFFFF ∨ excess = 0 then compareEvict id layer none s
    else
      let cand := own.filter (fun x => c.sink ≤ x.2.2.1 && x.2.2.1 + c.recent < nextPos)
      let go := (cand.mergeSort evictBefore).take excess
      let s := go.foldl (fun s x => bump (slotMod x.1 x.2.1 KvSlot.clear s) oKvEvictCount) s
      let e := evictEntry id layer ((go.map (·.2.2.1)).mergeSort (· ≤ ·))
      addEntry e (compareEvict id layer (some e) s)

/-! ### Speculative rounds (R221 to R224) -/

/-- The SPEC_WIDTH entry (R224). -/
def specEntry (id old new cause off : Nat) : Bytes :=
  entry 0x08 (natLe 2 id ++ natLe 1 (old + 16 * new) ++ natLe 1 cause ++ natLe 2 off ++ zeros 2)

/-- Change a context's SpecWidth with its entry. -/
def setWidth (id new cause off : Nat) (s : State) : State :=
  match kvCtx s id with
  | none => s
  | some c =>
    if c.specWidth = new then s
    else addEntry (specEntry id c.specWidth new cause off) (kvCtxMod id (fun c => { c with specWidth := new }) s)

/-- The number of leading draft tokens that the main model agrees with (R222). -/
def acceptedCount : List Nat → List Nat → Nat
  | d :: ds, m :: ms => if d = m then 1 + acceptedCount ds ms else 0
  | _, _ => 0

/-- The width state after a round that accepted a of w (R223). -/
def widthAfter (id a w : Nat) (s : State) : State :=
  match kvCtx s id with
  | none => s
  | some c =>
    let rej := if a = 0 then c.rejectRun + 1 else 0
    let acc := if a = 0 then 0 else if a = w then c.acceptRun + 1 else 0
    let s := if a = 0 then bump s oSpecAllRejectCount else s
    let halve := decide (getO s oSpecRejectRounds ≤ rej)
    let double := decide (getO s oSpecAcceptRounds ≤ acc)
    let s := kvCtxMod id (fun c => { c with
      rejectRun := if halve then 0 else rej
      acceptRun := if double then 0 else acc }) s
    if halve then
      let off := if c.specWidth / 2 = 0 then getO s oSpecOffTicks else 0
      let s := kvCtxMod id (fun c => { c with specOffLeft := if c.specWidth / 2 = 0 then off else c.specOffLeft }) s
      setWidth id (c.specWidth / 2) 0 off s
    else if double then setWidth id (min (2 * c.specWidth) c.specReq) 1 0 s
    else s

/-- SPEC_RESUME (R223, R224): SpecOffLeft has reached 0 while the width is 0, and the width is restored. -/
def doSpecResume (id : Nat) (s : State) : State :=
  match kvCtx s id with
  | some c => if c.specWidth = 0 ∧ c.specOffLeft = 0 ∧ c.specReq ≠ 0 then setWidth id c.specReq 2 0 s else s
  | none => s

/-- SPEC_RESUME. -/
def execSpecResume (id : Nat) (s : State) : Host.Outcome State Fault Refusal := .next (doSpecResume id s)

/-! ### Contexts (R209, R210, R348, R494) -/

/-- Read a KV descriptor as a new context of a tenant (R209). -/
def descCtx (tenant : Nat) (d : Bytes) : KvCtx :=
  let v := leNat (d.take 64)
  { tenant := tenant
    layers := bits v 32 9
    heads := bits v 48 8
    dim := bits v 56 8
    fmt := if bits v 64 2 = 2 then .a4 else .a8
    vHeadroom := bits v 66 3
    frozen := bits v 69 1 == 1
    prefixOf := if bits v 70 1 = 1 then some (bits v 80 14) else none
    prefixPos := bits v 96 32
    keepLimit := bits v 128 32
    sink := bits v 160 16
    recent := bits v 176 16
    decay := toSigned 16 (bits v 192 16)
    specReq := bits v 208 4
    specWidth := bits v 208 4
    rejectRun := 0
    acceptRun := 0
    tableEntries := bits v 224 32
    nextPos := bits v 96 32
    specOffLeft := 0
    tokenSeq := 0
    tables := List.replicate (bits v 32 9) []
    history := [] }

/-- The ContextId a descriptor names. -/
def descId (d : Bytes) : Nat := fld d 0 2 % 16384

/-- Whether a share grant lets tenant n use a frozen context of tenant m (R494). -/
def granted (s : State) (m ctx n : Nat) : Bool :=
  s.sec.grants.contains (natLe 2 m ++ natLe 2 ctx ++ natLe 2 n)

/-- The prefix of a new context is one it may share (R209, R494). -/
def prefixOk (s : State) (c : KvCtx) : Bool := match c.prefixOf with
  | none => true
  | some p => match kvCtx s p with
    | none => false
    | some q => q.frozen && q.layers == c.layers && q.heads == c.heads && q.dim == c.dim && q.fmt == c.fmt
        && c.prefixPos % 60 == 0 && c.prefixPos ≤ q.nextPos
        && (q.tenant == c.tenant || granted s q.tenant p c.tenant)

/-- The form checks of a new context (R209). -/
def ctxFormOk (s : State) (tenant : Nat) (d : Bytes) : Bool :=
  let v := leNat (d.take 64)
  let c := descCtx tenant d
  bits v 14 2 == 0 && bits v 26 6 == 0 && bits v 41 7 == 0 && bits v 71 9 == 0 && bits v 94 2 == 0 && bits v 304 208 == 0
    && (bits v 64 2 == 1 || bits v 64 2 == 2) && c.layers ≤ 256 && 1 ≤ c.heads && c.heads ≤ 32 && 1 ≤ c.dim && c.dim ≤ 240
    && c.heads * c.dim ≤ 1024 && c.heads * dimGroups c.dim ≤ 32
    && c.sink + c.recent ≤ c.keepLimit && -4096 ≤ c.decay && c.decay ≤ 0
    && 1 ≤ c.tableEntries && c.tableEntries ≤ 2097151
    && prefixOk s c

/-- The area of the KV tables region from which page tables are allocated: the region less 64 MiB of histories and the
descriptors of 64 bytes (R225). -/
def tableArea (s : State) : Nat := 1048576 * (getO s oKvTableMiB - 64) - 64 * 16384

/-- The contexts that outstanding CONTEXT_CREATE requests will create. -/
def comingCtxs (s : State) : List KvCtx :=
  (s.sched.reqs.filter (fun e => !e.2.refused && byteAt e.2.desc 0 == 1)).map (fun e => descCtx e.2.tenant e.2.kvDesc)

/-- Whether a context's tables fit the free space of the area (R348). -/
def ctxFits (s : State) (c : KvCtx) : Bool :=
  sumN (s.kv.ctxs.map (fun e => ctxTableBytes e.2)) + sumN ((comingCtxs s).map ctxTableBytes) + ctxTableBytes c ≤ tableArea s

/-- Create a context; its first entries name the prefix's pages (R210, R348). -/
def createCtx (id tenant : Nat) (d : Bytes) (s : State) : State :=
  let c := descCtx tenant d
  let tables := match c.prefixOf.bind (kvCtx s) with
    | some q => (List.range c.layers).map (fun l => ((nth [] q.tables l).take (c.prefixPos / 60)).map (fun e => (e.1, true)))
    | none => c.tables
  { s with kv := { s.kv with ctxs := sput s.kv.ctxs id { c with tables := tables } } }

/-- Whether another context shares a context's pages (R210). -/
def referenced (s : State) (id : Nat) : Bool :=
  s.kv.ctxs.any (fun e => e.2.prefixOf == some id) || (comingCtxs s).any (fun c => c.prefixOf == some id)

/-- Delete a context with its own pages and tables (R348). -/
def deleteCtx (id : Nat) (s : State) : State :=
  match kvCtx s id with
  | none => s
  | some c =>
    let own := allOwn c
    { s with kv := { s.kv with
      pages := s.kv.pages.filter (fun e => !own.contains e.1)
      ctxs := sdel s.kv.ctxs id } }

/-- Freeze a context and its pages (R348, R203). -/
def freezeCtx (id : Nat) (s : State) : State :=
  match kvCtx s id with
  | none => s
  | some c =>
    let s := (allOwn c).foldl (fun s n => pageMod n (fun p => { p with frozen := true }) s) s
    kvCtxMod id (fun c => { c with frozen := true }) s

/-! ### Compaction (R220) -/

/-- One V value moved to a larger exponent with the compaction's own draw. -/
def compactV (id pos j : Nat) (from' to' v : Int) : Int :=
  if from' = -128 ∨ to' = -128 ∨ to' ≤ from' then v
  else
    let d := dither64 (ditherKey id 0xFFFFFFFF 0) (ditherCtr pos j 0)
    (roundV 127 to' d (.int v from')).1

/-- The dense pages of a layer: 60 slots each, their exponents the largest of their sources (R220). -/
def compactPages (s : State) (id : Nat) (c : KvCtx) (layer : Nat) : List KvPage :=
  let src := ((ownPages c layer).filterMap (pageGet s)).map (fun p =>
    (p.slots.filter (fun k => k.st == 1)).map (fun k => (p.vExp, k)))
  let all := src.flatten
  (List.range (ceilDiv all.length 60)).map (fun i =>
    let part := (all.drop (60 * i)).take 60
    let vexp := (List.range (c.heads * c.dim)).map (fun j => (part.map (fun x => nth (-128) x.1 j)).foldl max (-128))
    { newPage s id c layer with
      vExp := vexp
      vBase := vexp
      slots := part.map (fun x => { x.2 with v := x.2.v.mapIdx (fun j v =>
        compactV id x.2.pos j (nth (-128) x.1 j) (nth (-128) vexp j) v) }) })

/-- Replace a layer's own pages by its dense ones, with page numbers from the reservation (R220). Answers what is left
of the reservation. -/
def compactLayer (id layer : Nat) (res : List Nat) (s : State) : List Nat × State :=
  match kvCtx s id with
  | none => (res, s)
  | some c =>
    let ps := compactPages s id c layer
    let old := ownPages c layer
    let nums := res.take ps.length
    let pages := (nums.zip ps).foldl (fun m x => sput m x.1 x.2) (s.kv.pages.filter (fun e => !old.contains e.1))
    let s := nums.foldl (fun s n => freshMarks n s) { s with kv := { s.kv with pages := pages } }
    let s := kvCtxMod id (fun c => { c with tables := updNth c.tables layer (fun t =>
      t.filter (·.2) ++ nums.map (fun n => (n, false))) }) s
    (res.drop ps.length, addO s oKvCompactPageCount ps.length)

end Sys2Proof.Machine
end

