-- ==== Sys2Proof/Machine/IngotOps.lean ====
section
/-! DEFINITION. The Ingot Store's operations: sectors and their remap, reads of a cast, the Merkle tree, manifests, and
the free runs of logical sectors (R247 to R261). -/

namespace Sys2Proof.Machine

open Sys2Proof

/-! ### Sectors (R247, R248, R261) -/

/-- Data sectors of the Store. -/
def ingotSectors : Nat := 4718592

/-- The die of a logical sector. -/
def dieOf (l : Nat) : Nat := l % 48

/-- A die's state. -/
def dieGet (s : State) (d : Nat) : NvDie := sget {} s.ingot.dies d

/-- Change a die's state. -/
def dieMod (d : Nat) (f : NvDie → NvDie) (s : State) : State :=
  { s with ingot := { s.ingot with dies := supd {} s.ingot.dies d f } }

/-- The remap table of a die in force: the copy written last (R261). -/
def remapOf (d : NvDie) : SMap Nat := if d.copyA.seq < d.copyB.seq then d.copyB.map else d.copyA.map

/-- The remap table with one entry changed, in the older of the two copies, under the next sequence number (R261). -/
def remapPut (j p : Nat) (d : NvDie) : NvDie :=
  let new : RemapCopy := ⟨max d.copyA.seq d.copyB.seq + 1, sset j (remapOf d) j p⟩
  if d.copyA.seq < d.copyB.seq then { d with copyA := new } else { d with copyB := new }

/-- The physical sector on its die of a logical sector (R248, R261). -/
def physOf (s : State) (l : Nat) : Nat := sget (l / 48) (remapOf (dieGet s (dieOf l))) (l / 48)

/-- The key of a physical sector among all dies. -/
def physKey (die p : Nat) : Nat := die * 100352 + p

/-- The content of a logical sector; an unwritten sector is zero. -/
def sectorGet (s : State) (l : Nat) : Bytes :=
  padTo 49152 (sget [] s.ingot.content (physKey (dieOf l) (physOf s l)))

/-- A piece of a logical sector. -/
def sectorPiece (s : State) (l off n : Nat) : Bytes :=
  padTo n (sub (sget [] s.ingot.content (physKey (dieOf l) (physOf s l))) off n)

/-- Whether the CRC stored with a block is that of its bytes (R250); a sector never written has none. -/
def blockCrcOk (s : State) (ibn : Nat) : Bool :=
  let l := ibn / 1024
  match sfind s.ingot.checks (physKey (dieOf l) (physOf s l)) with
  | some cs => (nth (0, 0) cs (ibn % 1024)).1 == (crc16 (sectorPiece s l (48 * (ibn % 1024)) 48)).toNat
  | none => true

/-- Spare sectors a die has left (R261): its 2,048 spares less those in use and retired, and sectors returned. -/
def sparesLeft (d : NvDie) : Nat := 2048 - d.taken.length + d.returned.length

/-- The lowest spare sector a die can give. -/
def nextSpare (d : NvDie) : Option Nat :=
  match d.returned with
  | p :: _ => some p
  | [] => ((List.range 2048).map (· + 98304)).find? (fun p => !d.taken.contains p)

/-- Take a spare out of the pool. -/
def takeSpare (p : Nat) (d : NvDie) : NvDie :=
  if d.returned.contains p then { d with returned := d.returned.filter (· != p) } else { d with taken := d.taken ++ [p] }

/-- Count a write to a physical sector (R261). -/
def countWrite (p : Nat) (d : NvDie) : NvDie := { d with writes := supd 0 d.writes p (· + 1) }

/-- The CRC-16 and the in-die code of each block of a sector (R250). -/
def blockChecks (c : Bytes) : List (Nat × Nat) := (List.range 1024).map (fun k =>
  let b := sub c (48 * k) 48
  let crc := (crc16 b).toNat
  (crc, Config.inDieCode b crc))

/-- Store content at a physical sector, with the CRC and code of each block, and count the write (R250, R260, R261). -/
def physWrite (die p : Nat) (c : Bytes) (s : State) : State :=
  let s := dieMod die (countWrite p) s
  { s with ingot := { s.ingot with
    content := sset [] s.ingot.content (physKey die p) c
    checks := sset [] s.ingot.checks (physKey die p) (blockChecks c) } }

/-- Erase a physical sector. -/
def physErase (die p : Nat) (s : State) : State :=
  { s with ingot := { s.ingot with
    content := sdel s.ingot.content (physKey die p)
    checks := sdel s.ingot.checks (physKey die p) } }

/-- INGOT_SPARES_LOW where a die has fewer than 205 spares left (R261). -/
def sparesLow (die : Nat) (s : State) : State :=
  if sparesLeft (dieGet s die) < 205 then raiseFault 0x0123 .nvDie die none 0 s else s

/-- Point a die sector at another physical sector: one more update of the remap table (R261). -/
def remapTo (l p : Nat) (s : State) : State := bump (dieMod (dieOf l) (remapPut (l / 48) p) s) oSectorRemapCount

/-- Retire a physical sector. -/
def retire (p : Nat) (d : NvDie) : NvDie := { d with retired := d.retired ++ [p] }

/-- Write content to a physical sector, and on from spare to spare while the read-back fails (`fails` times) or the sector has
reached 10,000 writes, retiring each such sector (R261). Answers where the content stands; none where no spare is left. -/
def writeFrom (die : Nat) (c : Bytes) : Nat → Nat → Nat → State → Option Nat × State
  | 0, _, _, s => (none, s)
  | fuel + 1, fails, p, s =>
    let s := physWrite die p c s
    if fails = 0 ∧ sget 0 (dieGet s die).writes p < 10000 then (some p, s)
    else
      let s := dieMod die (retire p) s
      match nextSpare (dieGet s die) with
      | none => (none, s)
      | some q => writeFrom die c fuel (fails - 1) q (sparesLow die (dieMod die (takeSpare q) s))

/-- Write a logical sector (R260, R261), whose read-back fails `fails` times. Answers whether a spare was there when one was
needed. -/
def sectorWrite (l : Nat) (c : Bytes) (fails : Nat) (s : State) : Bool × State :=
  let p := physOf s l
  let x := writeFrom (dieOf l) c (fails + 2050) fails p s
  match x.1 with
  | none => (false, x.2)
  | some q => (true, if q = p then x.2 else remapTo l q x.2)

/-- Write content to a spare sector of a die, whose read-back fails `fails` times (R261, R272). Answers the physical sector. -/
def spareWrite (die : Nat) (c : Bytes) (fails : Nat) (s : State) : Option Nat × State := match nextSpare (dieGet s die) with
  | none => (none, s)
  | some q => writeFrom die c (fails + 2050) fails q (sparesLow die (dieMod die (takeSpare q) s))

/-! ### Merkle trees (R255) -/

/-- The leaf of data sector i. -/
def leafOf (i : Nat) (c : Bytes) : Bytes := sha256 ([0] ++ natLe 4 i ++ c)

/-- One level up: pairs are hashed, a last single node is promoted. -/
def levelUp : List Bytes → List Bytes
  | a :: b :: r => sha256 ([1] ++ a ++ b) :: levelUp r
  | l => l

/-- The levels of a tree from the leaves to the root. -/
def merkleLevels : Nat → List Bytes → List (List Bytes)
  | 0, l => [l]
  | n + 1, l => if l.length ≤ 1 then [l] else l :: merkleLevels n (levelUp l)

/-- The root of a list of leaves. -/
def merkleRoot (leaves : List Bytes) : Bytes := ((merkleLevels 40 leaves).getLast?.getD []).headD []

/-- The nodes of a tree with n leaves. -/
def merkleNodes : Nat → Nat → Nat
  | 0, n => n
  | f + 1, n => if n ≤ 1 then n else n + merkleNodes f ((n + 1) / 2)

/-- Data sectors of a cast of so many blocks. -/
def dataSectors (blocks : Nat) : Nat := ceilDiv blocks 1024

/-- Digest sectors of a cast with n data sectors (R255). -/
def digestSectors (n : Nat) : Nat := ceilDiv (32 * merkleNodes 40 n) 49152

/-- The bytes of the digest sectors. -/
def digestBytes (leaves : List Bytes) : Bytes := (merkleLevels 40 leaves).flatten.flatten

/-! ### Manifests (R256, R257) -/

/-- A region of a manifest. -/
structure CastRegion where
  kind : Nat
  first : Nat
  count : Nat
deriving DecidableEq, Repr

/-- BlockCount of a manifest. -/
def mBlocks (m : Bytes) : Nat := fld m 44 8

/-- Generation of a cast manifest. -/
def mGeneration (m : Bytes) : Nat := fld m 40 4

/-- ModelName of a manifest, or VariantName of a variant manifest. -/
def mName (m : Bytes) : Bytes := sub m 8 32

/-- MerkleRoot of a cast manifest, or BaseMerkleRoot of a variant manifest. -/
def mRoot (m : Bytes) : Bytes := sub m 64 32

/-- Flags of a cast manifest. -/
def mFlags (m : Bytes) : Nat := fld m 54 2

/-- TenantId of a cast manifest. -/
def mTenant (m : Bytes) : Nat := fld m 56 2

/-- RecipeCount of a manifest. -/
def mRecipes (m : Bytes) : Nat := fld m 132 4

/-- The regions of a manifest. -/
def mRegions (m : Bytes) : List CastRegion :=
  (List.range (min (fld m 52 2) 24)).map (fun r => ⟨byteAt m (192 + 32 * r), fld m (200 + 32 * r) 8, fld m (208 + 32 * r) 8⟩)

/-- The regions cover the blocks from `at` to `total` in order, without gap or overlap (R253). -/
def regionsCover : Nat → Nat → List CastRegion → Bool
  | pos, total, [] => pos == total
  | pos, total, r :: rs => r.first == pos && 1 ≤ r.count && regionsCover (pos + r.count) total rs

/-- Whether a byte string is UTF-8. -/
def utf8Ok : Nat → Bytes → Bool
  | _, [] => true
  | 0, _ :: _ => false
  | f + 1, b :: bs =>
    let x := b.toNat
    let cont := fun (n : Nat) => (bs.take n).length == n && (bs.take n).all (fun c => c.toNat / 64 == 2)
    let y := (bs.headD 0).toNat
    if x < 0x80 then utf8Ok f bs
    else if 0xC2 ≤ x ∧ x < 0xE0 then cont 1 && utf8Ok f (bs.drop 1)
    else if 0xE0 ≤ x ∧ x < 0xF0 then
      cont 2 && (x != 0xE0 || 0xA0 ≤ y) && (x != 0xED || y < 0xA0) && utf8Ok f (bs.drop 2)
    else if 0xF0 ≤ x ∧ x < 0xF5 then
      cont 3 && (x != 0xF0 || 0x90 ≤ y) && (x != 0xF4 || y < 0x90) && utf8Ok f (bs.drop 3)
    else false

/-- A name field: UTF-8, zero-padded, at least one byte that is not zero (R256, R277). -/
def nameOk (b : Bytes) : Bool :=
  let body := b.takeWhile (· != 0)
  !body.isEmpty && allZero (b.drop body.length) && utf8Ok 40 body

/-- The form checks of a cast manifest: CAST_FORM where they fail (R258). -/
def castFormOk (m : Bytes) : Bool :=
  fld m 0 4 == 1 && fld m 4 4 == 0x0B12000A && nameOk (mName m) && 1 ≤ mGeneration m
    && 1 ≤ mBlocks m && mBlocks m ≤ 4831838208
    && 1 ≤ fld m 52 2 && fld m 52 2 ≤ 24 && mFlags m < 4
    && mTenant m ≤ 1023 && (bits (mFlags m) 0 1 == 1 || mTenant m == 0)
    && allZero (sub m 58 6) && allZero (sub m 136 56)
    && (mRegions m).all (fun r => 1 ≤ r.kind && r.kind ≤ 4)
    && (List.range (fld m 52 2)).all (fun r => allZero (sub m (193 + 32 * r) 7) && allZero (sub m (216 + 32 * r) 8))
    && allZero (sub m (192 + 32 * fld m 52 2) (960 - 192 - 32 * fld m 52 2))
    && regionsCover 0 (mBlocks m) (mRegions m)

/-! ### Reads of a cast (R252) -/

/-- A cast slot. -/
def castGet (s : State) (c : Nat) : CastSlot := sget {} s.ingot.casts c

/-- Change a cast slot. -/
def castMod (c : Nat) (f : CastSlot → CastSlot) (s : State) : State :=
  { s with ingot := { s.ingot with casts := supd {} s.ingot.casts c f } }

/-- Bytes of a cast's data from byte `off`, sector by sector. -/
def castBytes (s : State) (c : Nat) : Nat → Nat → Nat → Bytes
  | 0, _, _ => []
  | f + 1, off, n =>
    if n = 0 then []
    else
      let k := min n (49152 - off % 49152)
      sectorPiece s ((castGet s c).first + off / 49152) (off % 49152) k ++ castBytes s c f (off + k) (n - k)

/-- `n` blocks of a cast from block `b`. -/
def castBlocks (s : State) (c b n : Nat) : Bytes := castBytes s c (n / 1024 + 2) (48 * b) (48 * n)

/-- `n` bytes of a cast from the start of block `b`. -/
def castAt (s : State) (c b n : Nat) : Bytes := castBytes s c (n / 49152 + 2) (48 * b) n

/-- The sectors of a cast that a run of blocks touches. -/
def runSectors (s : State) (c b n : Nat) : List Nat :=
  if n = 0 then [] else
    (List.range ((b + n - 1) / 1024 - b / 1024 + 1)).map (fun i => (castGet s c).first + b / 1024 + i)

/-- The logical sectors a cast occupies: data and digest. -/
def castSpan (c : CastSlot) : Nat :=
  let n := dataSectors (mBlocks c.manifest)
  n + digestSectors n

/-- Whether a slot holds sectors (R264, R266). -/
def castHolds (c : CastSlot) : Bool := c.state != 0

/-- Casts that hold sectors, as (first, span), in rising order of their first sector. -/
def castRuns (s : State) : List (Nat × Nat) :=
  let l := (s.ingot.casts.filter (fun e => castHolds e.2)).map (fun e => (e.2.first, castSpan e.2))
  l.mergeSort (fun a b => a.1 ≤ b.1)

/-- The free runs of logical sectors, rising. -/
def freeRuns : Nat → List (Nat × Nat) → List (Nat × Nat)
  | pos, [] => if pos < ingotSectors then [(pos, ingotSectors - pos)] else []
  | pos, (f, n) :: r => if pos < f then (pos, f - pos) :: freeRuns (f + n) r else freeRuns (max pos (f + n)) r

/-- The lowest free run of so many sectors (R258). -/
def findRun (s : State) (n : Nat) : Option Nat :=
  ((freeRuns 0 (castRuns s)).find? (fun r => n ≤ r.2)).map (·.1)

/-- The cast slot in use at a slot number with a given root. -/
def castByRoot (s : State) (root : Bytes) : Option Nat :=
  (s.ingot.casts.find? (fun e => (e.2.state == 4 || e.2.state == 5) && mRoot e.2.manifest == root)).map (·.1)

/-- The slot and relative sector of a logical sector that a cast holds. -/
def castOfSector (s : State) (l : Nat) : Option (Nat × Nat) :=
  (s.ingot.casts.find? (fun e => castHolds e.2 && e.2.first ≤ l && l < e.2.first + castSpan e.2)).map
    (fun e => (e.1, l - e.2.first))

/-- Whether block b of a cast lies in a TILES region (R253). -/
def inTiles (m : Bytes) (b : Nat) : Bool := (mRegions m).any (fun r => r.kind == 1 && r.first ≤ b && b < r.first + r.count)

/-- Mark a sector DAMAGED; its cast is DEGRADED (R251, R273). -/
def damage (l : Nat) (s : State) : State :=
  match castOfSector s l with
  | some (c, _) => castMod c (fun k =>
      if k.damaged.any (fun d => d.1 == l) then k
      else { k with damaged := k.damaged ++ [(l, s.time.tickNo)], state := if k.state = 4 then 5 else k.state }) s
  | none => s

/-- The sectors of a cast are erased (R269). -/
def eraseCast (k : CastSlot) (s : State) : State :=
  (List.range (castSpan k)).foldl (fun s i => physErase (dieOf (k.first + i)) (physOf s (k.first + i)) s) s

/-- Queue a sector for refresh (R251, R271). -/
def queueRefresh (l : Nat) (s : State) : State :=
  if s.ingot.refreshQ.contains l then s
  else { s with ingot := { s.ingot with refreshQ := s.ingot.refreshQ ++ [l] } }

end Sys2Proof.Machine
end

