-- ==== Sys2Proof/Machine/Recipe.lean ====
section
/-! DEFINITION. Recipes in a cast: their layout, the checks at load and the cost records (R107, R134, R231, R232,
R332 to R341, R363, R364). -/

namespace Sys2Proof.Machine

open Sys2Proof

/-! ### The recipe stream (R332) -/

/-- The block runs of the RECIPES regions. -/
def recipeRuns (m : Bytes) : List (Nat × Nat) :=
  ((mRegions m).filter (fun r => r.kind == 3)).map (fun r => (48 * r.first, 48 * r.count))

/-- Bytes of the stream of the RECIPES regions, run by run. -/
def streamBytes (s : State) (c : Nat) : List (Nat × Nat) → Nat → Nat → Bytes
  | [], _, _ => []
  | r :: rs, off, n =>
    if off < r.2 then
      let k := min n (r.2 - off)
      castBytes s c (k / 49152 + 2) (r.1 + off) k ++ (if n = k then [] else streamBytes s c rs 0 (n - k))
    else streamBytes s c rs (off - r.2) n

/-- Bytes of the recipe stream of a cast. -/
def streamAt (s : State) (c off n : Nat) : Bytes := streamBytes s c (recipeRuns (castGet s c).manifest) off n

/-- The length of the recipe stream. -/
def streamLen (m : Bytes) : Nat := sumN ((recipeRuns m).map (·.2))

/-- The bytes of recipe r by its directory entry; empty where it leaves the stream. -/
def recipeBytes (s : State) (c r : Nat) : Bytes :=
  let e := streamAt s c (8 * r) 8
  let off := fld e 0 4
  let len := fld e 4 4
  if off % 8 = 0 ∧ off + len ≤ streamLen (castGet s c).manifest ∧ 8 * r + 8 ≤ streamLen (castGet s c).manifest then
    streamAt s c off len else []

/-! ### Descriptors (R333, R335, R337, R231) -/

/-- A tensor descriptor (R335). -/
structure TensorD where
  storage : Nat
  format : Nat
  mode : Nat
  threshold : Nat
  rowsMode : Nat
  layer : Nat
  roleMask : Nat
  res : Nat
  rows : Nat
  blocks : Nat
  stride : Nat
  scratchOff : Nat
  res2 : Nat
deriving DecidableEq, Repr

/-- A Hopper plan entry (R231). -/
structure PlanD where
  slot : Nat
  producer : Nat
  consumer : Nat
  readMode : Nat
  pages : Nat
  extra : Nat
  window : Nat
  runBursts : Nat
  innerStride : Nat
  runCount : Nat
  outerStep : Nat
  res : Nat
deriving DecidableEq, Repr

/-- A step descriptor (R337) with its pass control word and sparse control field. -/
structure StepD where
  ref : Nat
  kind : Nat
  cluster : Nat
  outKind : Nat
  flags : Nat
  pass : Nat
  sparse : Nat
  hoppers : Nat
  res : Nat
  hopperIndex : Nat
  row : Nat
  col : Nat
  fusion : Nat
  side0 : Nat
  side1 : Nat
  out : Nat
  stats : Nat
  mask : Nat
  weight : Nat
  outBlocks : Nat
  reduce : Nat
  up : Nat
  down : Nat
  program : Nat
  table : Nat
  deps : List Nat
  cost : Nat
  total : Nat
  entryList : Nat
  res2 : Nat
deriving DecidableEq, Repr

/-- A recipe's header (R333) with its descriptors. -/
structure RecipeD where
  no : Nat
  alt : Nat
  flags : Nat
  tokenMode : Nat
  tokenStep : Nat
  kvLayers : Nat
  kvHeads : Nat
  headDim : Nat
  kvFormat : Nat
  hopperOff : Nat
  costOff : Nat
  bytes : Nat
  scratch : Nat
  tensors : List TensorD
  steps : List StepD
  raw : Bytes
deriving DecidableEq, Repr

/-- Read a tensor descriptor. -/
def tensorD (b : Bytes) : TensorD :=
  ⟨byteAt b 0, byteAt b 1, byteAt b 2, byteAt b 3, byteAt b 4, byteAt b 5, byteAt b 6, byteAt b 7, fld b 8 4, fld b 12 4,
    fld b 16 4, fld b 20 4, fld b 24 8⟩

/-- Read a Hopper plan entry. -/
def planD (b : Bytes) : PlanD :=
  let v := leNat (b.take 16)
  ⟨bits v 0 4, bits v 4 4, bits v 8 4, bits v 12 2, bits v 16 10, bits v 32 8, bits v 40 16, bits v 56 8, bits v 64 16,
    bits v 80 12, bits v 92 16, bits v 14 2 + bits v 26 6 + bits v 108 20⟩

/-- Read a step descriptor. -/
def stepD (b : Bytes) : StepD :=
  ⟨fld b 0 4, byteAt b 4, byteAt b 5, byteAt b 6, byteAt b 7, fld b 8 8, fld b 16 2, byteAt b 18, byteAt b 19, fld b 20 4,
    fld b 24 2, fld b 26 2, fld b 28 2, fld b 30 2, fld b 32 2, fld b 34 2, fld b 36 2, fld b 38 2, fld b 40 8, fld b 48 4,
    fld b 52 4, fld b 56 8, fld b 64 8, fld b 72 8, fld b 80 8, (List.range 4).map (fun i => fld b (88 + 2 * i) 2),
    fld b 96 4, fld b 100 4, fld b 104 8, leNat (sub b 112 16)⟩

/-- Read a recipe. -/
def recipeD (b : Bytes) : RecipeD :=
  let nt := min (fld b 6 2) 1024
  let ns := min (fld b 4 2) 4096
  ⟨fld b 0 2, fld b 2 2, byteAt b 8, byteAt b 9, fld b 10 2, fld b 12 2, byteAt b 14, byteAt b 15, byteAt b 16, fld b 20 4,
    fld b 24 4, fld b 28 4, fld b 32 8, (List.range nt).map (fun i => tensorD (sub b (64 + 32 * i) 32)),
    (List.range ns).map (fun i => stepD (sub b (64 + 32 * nt + 128 * i) 128)), b⟩

/-- Recipe r of a cast. -/
def recipeOf (s : State) (c r : Nat) : RecipeD := recipeD (recipeBytes s c r)

/-- "None" for a tensor or step index. -/
def noIx : Nat := 0xFFFF

/-- A tensor of a recipe. -/
def tensorAt (r : RecipeD) (i : Nat) : Option TensorD := if i = noIx then none else r.tensors[i]?

/-- Whether some step of a recipe writes a tensor. -/
def producedBy (rc : RecipeD) (ix : Nat) : Bool := rc.steps.any (fun d => d.out == ix || d.stats == ix)

/-- Layout of a tensor: 1 SLOTTED. -/
def TensorD.slotted (t : TensorD) : Bool := bits t.mode 0 2 == 1

/-- Whether a row exponent summary accompanies a tensor. -/
def TensorD.summary (t : TensorD) : Bool := bits t.mode 4 1 == 1

/-- The hint of a tensor's accesses. -/
def TensorD.hint (t : TensorD) : Hint := match bits t.mode 2 2 with
  | 0 => .normal
  | 1 => .stream
  | 2 => .keep
  | _ => .last

/-- The activation format a format code names. -/
def fmtOf (code : Nat) : Fmt := if code = 2 then .a4 else .a8

/-- Bytes of one row of a tensor (R335): blocks in its layout, or bursts of statistics, or one U32. -/
def rowBytes (t : TensorD) (statBursts : Nat) : Nat := match t.format with
  | 1 => t.blocks * (if t.slotted then 320 else 256)
  | 2 => t.blocks * (if t.slotted then 192 else 128)
  | 3 => t.blocks * 480
  | 4 => 64 * statBursts
  | _ => 4

/-! ### Step fields (R107, R134) -/

/-- RESIDENT mode. -/
def StepD.resident (d : StepD) : Bool := bits d.pass 0 2 == 1

/-- PrecisionPolicy. -/
def StepD.policy (d : StepD) : Nat := bits d.pass 2 2

/-- BitPlane. -/
def StepD.bitPlane (d : StepD) : Bool := bits d.pass 4 1 == 1

/-- PlaneFormat. -/
def StepD.planeFmt (d : StepD) : Fmt := if bits d.pass 5 1 = 1 then .a4 else .a8

/-- Fusion: 0 NONE, 1 ADD, 2 MUL. -/
def StepD.fuse (d : StepD) : Nat := bits d.pass 6 2

/-- IntegrityClass WITHHOLD. -/
def StepD.withhold (d : StepD) : Bool := bits d.pass 8 1 == 1

/-- PassBlocks. -/
def StepD.passBlocks (d : StepD) : Nat := bits d.pass 9 7

/-- A4RatioThreshold, A4LimitBp, A8LimitBp. -/
def StepD.ratio (d : StepD) : Nat := bits d.pass 16 16

/-- A4LimitBp. -/
def StepD.a4Limit (d : StepD) : Nat := bits d.pass 32 14

/-- A8LimitBp. -/
def StepD.a8Limit (d : StepD) : Nat := bits d.pass 48 14

/-- SparseMode. -/
def StepD.sparseMode (d : StepD) : Nat := bits d.sparse 0 2

/-- GatePredict. -/
def StepD.gate (d : StepD) : Bool := bits d.sparse 2 1 == 1

/-- Stream cluster. -/
def StepD.stream (d : StepD) : Bool := d.cluster == 1

/-- RoleMask of a step. -/
def StepD.roles (d : StepD) : Nat := bits d.flags 1 3

/-- SCORE_SOURCE. -/
def StepD.scoreSource (d : StepD) : Bool := bits d.flags 0 1 == 1

/-- All ones for "no program" and "no list". -/
def allOnes64 : Nat := 0xFFFFFFFFFFFFFFFF

/-- Column tiles of a MATMUL step (R365). -/
def StepD.colTiles (d : StepD) : Nat := if d.stream then d.outBlocks / 8 else d.outBlocks

/-- Blocks of each pass of a reduction of n blocks (R108). -/
def StepD.passes (d : StepD) (n : Nat) : List (Nat × Nat) :=
  if d.resident ∨ d.passBlocks = 0 then [(0, n)]
  else (List.range (max 1 (ceilDiv n d.passBlocks))).map (fun i =>
    (d.passBlocks * i, min d.passBlocks (n - d.passBlocks * i)))

/-- Blocks of a segment (R135, R337). -/
def StepD.segBlocks (d : StepD) : Nat := if d.resident ∨ d.passBlocks = 0 then 32 else d.passBlocks

/-- The pass control word's own rules (R107). -/
def passWordOk (d : StepD) : Bool :=
  let w := d.pass
  bits w 0 2 ≤ 1 && bits w 2 2 ≤ 2 && (d.bitPlane || bits w 5 1 == 0) && bits w 6 2 ≤ 2
    && (if d.resident then d.passBlocks == 0 else 1 ≤ d.passBlocks && d.passBlocks ≤ 32)
    && d.a4Limit ≤ 10000 && d.a8Limit ≤ 10000 && bits w 46 2 == 0 && bits w 62 2 == 0

/-- The sparse control field's own rules (R134). -/
def sparseFieldOk (d : StepD) : Bool :=
  d.sparseMode ≤ 2 && bits d.sparse 3 13 == 0 && ((d.sparseMode == 2) == (d.entryList != allOnes64))
    && (d.sparseMode == 0 || !d.bitPlane) && (!d.gate || d.stream)

/-- The rules of one Hopper plan entry (R231, R232). -/
def planOk (stream : Bool) (p : PlanD) : Bool :=
  let bursts := 64 * p.pages
  p.res == 0 && 1 ≤ p.producer && p.producer ≤ 3 && 1 ≤ p.consumer && p.consumer ≤ 4 && p.readMode ≤ 2
    && 1 ≤ p.pages && p.pages ≤ 512 && p.extra ≤ 254
    && (if p.extra = 0 then p.window == 0 else 1 ≤ p.window && p.window ≤ 32768)
    && (p.readMode == 1 || (p.runBursts == 0 && p.innerStride == 0 && p.runCount == 0 && p.outerStep == 0))
    && (p.readMode != 1 || (1 ≤ p.runBursts && 1 ≤ p.runCount
        && (p.runCount - 1) * p.innerStride + p.runBursts ≤ bursts))
    && p.window ≤ bursts
    && (p.readMode != 2 || ((p.consumer == 1 || p.consumer == 2) && p.extra == 0))
    && (p.producer != 2 || stream)

/-- The Hopper plan entries of a step. -/
def stepPlan (r : RecipeD) (d : StepD) : List PlanD :=
  (List.range (min d.hoppers 16)).map (fun i => planD (sub r.raw (r.hopperOff + 16 * (d.hopperIndex + i)) 16))

/-- The rules of a step's plan (R232). -/
def stepPlanOk (r : RecipeD) (d : StepD) : Bool :=
  let ps := stepPlan r d
  d.hoppers ≤ 16 && (d.hoppers == 0 || r.hopperOff + 16 * (d.hopperIndex + d.hoppers) ≤ r.bytes)
    && ps.all (planOk d.stream) && noRepeat (ps.map (·.slot)) && sumN (ps.map (·.pages)) ≤ 512

/-! ### Cost records (R363, R364) -/

/-- A step's cost header (R363). -/
structure CostD where
  passes : Nat
  unitKind : Nat
  flags : Nat
  fixed : Nat
  colTiles : Nat
  drainC : Nat
  group : Nat
  res : Nat
deriving DecidableEq, Repr

/-- A pass word (R364). -/
structure PassD where
  bytes : Nat
  blocks : Nat
  preload : Bool
  save : Bool
  cast : Bool
  kappa : Nat
  res : Nat
deriving DecidableEq, Repr

/-- The cost header of a step. -/
def costD (r : RecipeD) (d : StepD) : CostD :=
  let b := sub r.raw (r.costOff + 8 * d.cost) 32
  ⟨fld b 0 2, byteAt b 2, byteAt b 3, fld b 4 4, fld b 8 4, byteAt b 12, byteAt b 13, leNat (sub b 14 18)⟩

/-- Pass word i of a step. -/
def passD (r : RecipeD) (d : StepD) (i : Nat) : PassD :=
  let v := fld r.raw (r.costOff + 8 * d.cost + 32 + 8 * i) 8
  ⟨bits v 0 32, bits v 32 16, bits v 48 1 == 1, bits v 49 1 == 1, bits v 50 1 == 1, bits v 56 8, bits v 51 5⟩

/-- SPARSE. -/
def CostD.sparse (c : CostD) : Bool := bits c.flags 1 1 == 1

/-- REUSE. -/
def CostD.reuse (c : CostD) : Bool := bits c.flags 0 1 == 1

/-- Whether a tensor index names KV storage. -/
def isKv (r : RecipeD) (i : Nat) : Bool := match tensorAt r i with
  | some t => t.storage == 2 || t.storage == 3
  | none => false

/-- The unit kind a step has (R364). -/
def unitKindOf (r : RecipeD) (d : StepD) : Nat := match d.kind with
  | 0 => if d.bitPlane && (isKv r d.row || isKv r d.col) then 1 else 0
  | 1 => 2
  | _ => 3

/-- A step's program: header, constants and instructions; `none` for no program, or the fault of its load. -/
def stepProgram (s : State) (c : Nat) (d : StepD) : Option (Except ProgFault (ProgHeader × List Word × List Instr)) :=
  if d.program = allOnes64 then none else some (progLoad (castAt s c d.program 384))

/-- The program of a step that loads; no program, or an InstrCount of 0, gives none (R166). -/
def progOf (s : State) (c : Nat) (d : StepD) : Option (ProgHeader × List Word × List Instr) :=
  match stepProgram s c d with
  | some (.ok p) => if p.1.instrCount = 0 then none else some p
  | _ => none

/-- c of R190 for a step: 1 without a program. -/
def drainCOf (s : State) (c : Nat) (d : StepD) : Nat := match progOf s c d with
  | some (h, _, p) => max 1 (progCycles h p)
  | none => 1

/-- w of R190 for a step. -/
def wOf (s : State) (c : Nat) (d : StepD) : Nat := match progOf s c d with
  | some (h, _, p) => progCost d.stream h p
  | none => 0

/-- FixedCycles as the loader derives it (R363, R364): fill, 60 for a TRANSPOSED Hopper, the final drain, w, and 240
where the step may fix a VExp, which a value append alone does (R206). -/
def fixedOf (s : State) (c : Nat) (r : RecipeD) (d : StepD) : Nat :=
  if d.kind = 3 then 0
  else fillCycles d.stream + (if (stepPlan r d).any (fun p => p.readMode == 2) then 60 else 0) + 240 + wOf s c d
    + (match tensorAt r d.out with
      | some t => if d.outKind = 1 ∧ t.storage = 3 then 240 else 0
      | none => 0)

/-- PassCount as the loader derives it (R364). -/
def passCountOf (r : RecipeD) (d : StepD) : Nat := match unitKindOf r d with
  | 2 => 3
  | 3 => 1
  | _ => (d.passes d.reduce).length

/-- Weight blocks of one reduction block of a tile (R103, R254). -/
def tileBlocks (stream : Bool) : Nat := tileCols stream + 8

/-- The bank of a Tile Store address (R226). -/
def bankOf (a : Nat) : Nat := bits a 6 5

/-- u of R229: the least count of distinct banks among any r consecutive bursts of a STRIDED pattern; its banks repeat every 32
runs. -/
def bankSpread (p : PlanD) (r : Nat) : Nat :=
  let n := p.runBursts * p.runCount
  let w := min r n
  let bank := fun (i : Nat) => bankOf (64 * (i / max 1 p.runBursts * p.innerStride + i % max 1 p.runBursts))
  ((List.range (min (n - w) (32 * p.runBursts) + 1)).map (fun i =>
    ((List.range w).map (fun j => bank (i + j))).eraseDups.length)).foldl min r

/-- κ of R229 for a port of r bursts per cycle that reads through a plan entry. -/
def kappaOf (p : PlanD) (r : Nat) : Nat :=
  if p.readMode ≠ 1 ∨ r ≤ p.runBursts then 1 else ceilDiv r (max 1 (bankSpread p r))

/-- The greatest κ of a step's entries of one consumer, whose port reads r bursts per cycle. -/
def stepKappa (r : RecipeD) (d : StepD) (consumer rate : Nat) : Nat :=
  (((stepPlan r d).filter (fun p => p.consumer == consumer)).map (fun p => kappaOf p rate)).foldl max 1

/-- Whether a step's bit-plane operand is K or V. -/
def readsPages (r : RecipeD) (d : StepD) : Bool := d.bitPlane && isKv r d.col

/-- The bytes of K or V that a pass of b blocks reads (R201): each page of a chunk's part of the span, a score step all of the
chunk's, a value step four for each block. -/
def pageTerm (r : RecipeD) (d : StepD) (b : Nat) : Nat :=
  let score := match tensorAt r d.col with
    | some t => t.storage == 2
    | none => false
  let pages := if score then (if d.stream then 32 else 4) else 4 * b
  pages * (3840 * ceilDiv (match d.planeFmt with | .a4 => ceilDiv r.headDim 2 | _ => r.headDim) 64 + 512)

/-- Whether pass word i says what R103, R108, R110, R201, R229 and R364 give for its pass. The words of a gated step describe one
neuron block, and its blocks and kappa are the recipe's (log 79). -/
def passWordFits (r : RecipeD) (d : StepD) (i : Nat) (p : PassD) : Bool :=
  let k := unitKindOf r d
  let n := (d.passes d.reduce).length
  let b := (nth (0, 0) (d.passes d.reduce) i).2
  let kappa := stepKappa r d 1 (if d.stream then 1 else 4)
  match k with
  | 0 => p.blocks == b && p.preload == decide (0 < i) && p.save == decide (i + 1 < n) && p.cast == !d.bitPlane
      && (d.bitPlane || p.bytes == b * tileBlocks d.stream * 48) && p.kappa == kappa
  | 1 => p.blocks == b && p.preload == decide (0 < i) && p.save == decide (i + 1 < n) && !p.cast
      && (!readsPages r d || p.bytes == pageTerm r d b) && p.kappa == kappa
  | 2 => p.cast && (p.bytes == if i < 2 then d.reduce * 248 * 48 else d.colTiles * tileBlocks d.stream * 48)
  | _ => !p.preload && !p.save && !p.cast

/-- A step's cost record agrees with its descriptor (R363, R364). -/
def costOk (s : State) (c : Nat) (r : RecipeD) (d : StepD) : Bool :=
  let k := costD r d
  let off := r.costOff + 8 * d.cost
  off + 32 + 8 * k.passes ≤ r.bytes && k.res == 0 && bits k.flags 2 6 == 0
    && k.unitKind == unitKindOf r d && k.passes == passCountOf r d && 1 ≤ k.passes && k.passes ≤ 4096
    && (match k.unitKind with
        | 0 => k.colTiles == d.colTiles
        | 2 => 1 ≤ k.colTiles && k.colTiles ≤ 128
        | _ => k.colTiles == 1)
    && k.drainC == drainCOf s c d && k.fixed == fixedOf s c r d
    && (if k.unitKind = 1 then 1 ≤ k.group && k.group ≤ 32 else k.group == 0)
    && (List.range k.passes).all (fun i =>
      let p := passD r d i
      p.res == 0 && 1 ≤ p.kappa && p.kappa ≤ 8 && passWordFits r d i p
        && (d.kind != 3 || (p.bytes == 0 && p.blocks == 0 && !p.preload && !p.save && !p.cast && p.kappa == 1)))

/-! ### Weight runs (R135, R153, R254, R334) -/

/-- The segments of a step's reduction: first block and blocks (R135). -/
def segmentsOf (d : StepD) : List (Nat × Nat) :=
  let z := d.segBlocks
  (List.range (ceilDiv d.reduce z)).map (fun i => (z * i, min z (d.reduce - z * i)))

/-- The weight run of blocks b to b + n − 1 of a column tile (R254, R337). -/
def tileRun (d : StepD) (tile b n : Nat) : Nat × Nat :=
  (d.weight + (tile * d.reduce + b) * tileBlocks d.stream, n * tileBlocks d.stream)

/-- The weight runs of a neuron block: of the gate, of the up product, and of the down product (R153, R334). -/
def gateRuns (rc : RecipeD) (d : StepD) (which nb : Nat) : List (Nat × Nat) :=
  let n := (costD rc d).colTiles
  match which with
  | 0 => [(d.weight + nb * d.reduce * 248, d.reduce * 248)]
  | 1 => [(d.up + nb * d.reduce * 248, d.reduce * 248)]
  | _ => (List.range d.colTiles).map (fun t => (d.down + (t * n + nb) * tileBlocks d.stream, tileBlocks d.stream))

/-! ### The load checks of a recipe (R334) -/

/-- Whether a run of blocks lies inside one region of a kind. -/
def runIn (m : Bytes) (kind b n : Nat) : Bool :=
  b + n ≤ mBlocks m && (mRegions m).any (fun r => r.kind == kind && r.first ≤ b && b + n ≤ r.first + r.count)

/-- The entry lists of a step: the block each starts at (R337). -/
def entryListAt (s : State) (c : Nat) (d : StepD) (tile seg : Nat) : Nat :=
  leNat (castBytes s c 2 (48 * d.entryList + 8 * (tile * ceilDiv d.reduce d.segBlocks + seg)) 8)

/-- Whether the entry lists a step names lie in ENTRY_LISTS. -/
def entryListsOk (s : State) (c : Nat) (m : Bytes) (d : StepD) : Bool :=
  d.entryList == allOnes64 ||
    (let segs := ceilDiv d.reduce d.segBlocks
     let n := d.colTiles * segs
     runIn m 2 d.entryList (ceilDiv (8 * n) 48) && (List.range n).all (fun i =>
       let b := entryListAt s c d (i / segs) (i % segs)
       runIn m 2 b 2 && runIn m 2 b (ceilDiv (elBytes (elHeader (castAt s c b 64))) 48)))

/-- Whether the cast runs a step reads lie where R334 wants them. -/
def weightsOk (m : Bytes) (d : StepD) (colTiles : Nat) : Bool := match d.kind with
  | 0 => d.bitPlane || runIn m 1 d.weight (d.colTiles * d.reduce * tileBlocks d.stream)
  | 1 => runIn m 1 d.weight (colTiles * d.reduce * 248) && runIn m 1 d.up (colTiles * d.reduce * 248)
      && runIn m 1 d.down (colTiles * d.colTiles * tileBlocks d.stream)
  | _ => true

/-- Whether a program and a step's tensors agree (R334). -/
def programAgrees (r : RecipeD) (d : StepD) : Option (ProgHeader × List Word × List Instr) → Bool
  | none => d.side0 == noIx && d.side1 == noIx && d.mask == noIx && d.stats == noIx
  | some (h, _, _) =>
    let side := fun (code ix : Nat) => match tensorAt r ix with
      | some t => code == t.format && code != 0
      | none => code == 0 && ix == noIx
    side h.side0 d.side0 && side h.side1 d.side1
      && ((h.m1Source == 1) == (d.mask != noIx)) && ((h.statMask != 0) == (d.stats != noIx))
      && ((h.outKind == 2) == (d.outKind == 2))

/-- The tables of a step that its program enables lie in PROGRAMS. -/
def tablesOk (m : Bytes) (d : StepD) (h : ProgHeader) : Bool :=
  (List.range 4).all (fun t => bits h.tableEnable t 1 == 0 || runIn m 4 (d.table + 43 * t) 43)

/-- Bursts of row statistics per row (R188). -/
def statBursts (d : StepD) : Option (ProgHeader × List Word × List Instr) → Nat
  | some (h, _, p) =>
    if d.stream && (blockSlots p).any (fun x => bits h.statMask x 1 == 1) then d.outBlocks else d.colTiles
  | none => d.colTiles

/-- The rules of a tensor descriptor (R334 to R336). -/
def tensorOk (r : RecipeD) (t : TensorD) : Bool :=
  t.storage ≤ 3 && 1 ≤ t.format && t.format ≤ 5 && bits t.mode 0 2 ≤ 1 && bits t.mode 5 3 == 0
    && (t.format ≤ 2 || (!t.slotted && !t.summary))
    && (if t.slotted then t.threshold ≤ 240 else t.threshold == 0)
    && t.rowsMode ≤ 2 && bits t.roleMask 3 5 == 0 && t.res == 0 && t.res2 == 0
    && (t.rowsMode == 0 || t.rows == 0)
    && (t.storage == 2 || t.storage == 3 || t.layer == 0)
    && (if t.format = 4 ∨ t.format = 5 then t.blocks == 0 else 1 ≤ t.blocks)
    && t.stride % 64 == 0 && rowBytes t 1 ≤ t.stride
    && (t.storage == 1 || t.scratchOff == 0) && t.scratchOff % 64 == 0
    && (t.storage != 1 || t.rowsMode != 0 || t.scratchOff + t.rows * t.stride ≤ r.scratch)
    && ((t.storage != 2 && t.storage != 3) || (bits r.flags 1 1 == 1 && t.layer < r.kvLayers))

/-- A tensor index that names a tensor or none. -/
def ixOk (r : RecipeD) (i : Nat) : Bool := i == noIx || i < r.tensors.length

/-- The format of the tensor an index names; 0 for none. -/
def fmtAt (r : RecipeD) (i : Nat) : Nat := match tensorAt r i with
  | some t => t.format
  | none => 0

/-- Whether a named tensor has the SUMMARY bit (R93). -/
def summaryBit (r : RecipeD) (i : Nat) : Bool := match tensorAt r i with
  | some t => t.summary
  | none => false

/-- Whether a named tensor carries a summary, or is staged from KV pages, whose loader forms one (R198). -/
def hasSummary (r : RecipeD) (i : Nat) : Bool := match tensorAt r i with
  | some t => t.summary || t.storage == 2 || t.storage == 3
  | none => false

/-- The rules of step i of a recipe that need no program (R334, R337 to R341, R93, R116, R197, R205). -/
def stepFieldsOk (r : RecipeD) (i : Nat) (d : StepD) : Bool :=
  d.ref != 0xFFFFFFFF && d.kind ≤ 3 && d.cluster ≤ 1 && d.outKind ≤ 2 && bits d.flags 4 4 == 0
    && d.res == 0 && d.res2 == 0 && passWordOk d && sparseFieldOk d && stepPlanOk r d
    && [d.row, d.col, d.fusion, d.side0, d.side1, d.out, d.stats, d.mask].all (ixOk r)
    && d.row != noIx
    && d.deps.all (fun k => k == noIx || k < i)
    && (!d.stream || d.outBlocks % 8 == 0)
    && (d.bitPlane == (d.col != noIx))
    && ((d.fuse == 0) == (d.fusion == noIx))
    && (d.kind == 1 || (d.up == 0 && d.down == 0))
    && (if d.kind = 3 then fmtAt r d.row == 4 && fmtAt r d.out == 5
        else (fmtAt r d.row == 1 || fmtAt r d.row == 2) && (d.out == noIx || fmtAt r d.out == 1 || fmtAt r d.out == 2))
    && (d.stats == noIx || fmtAt r d.stats == 4)
    && ((d.outKind == 2) == (d.out == noIx))
    && (d.outKind != 1 || (isKv r d.out && d.policy != 2 && (d.policy + 1 == r.kvFormat)))
    && (d.outKind == 1 || !isKv r d.out)
    && (d.kind != 2 || hasSummary r d.row)
    && (!d.bitPlane || hasSummary r d.col)
    && (d.total == 0 || (summaryBit r d.row && d.reduce ≤ d.total))
    && !(match tensorAt r d.row with | some t => t.storage == 2 | none => false)
    && (d.kind == 1 || !d.gate)

/-- The checks of a program at load (R170, R183) and of what it shares with its step (R188, R334). -/
def stepProgramOk (s : State) (c : Nat) (m : Bytes) (r : RecipeD) (d : StepD) : Bool :=
  match stepProgram s c d with
  | none => programAgrees r d none
  | some (.error _) => false
  | some (.ok p) =>
    runIn m 4 d.program (ceilDiv (128 + 4 * p.1.instrCount) 48) && programAgrees r d (some p) && tablesOk m d p.1
      && (match tensorAt r d.stats with
          | some t => 64 * statBursts d (some p) ≤ t.stride
          | none => true)

/-- One step passes every load check. -/
def stepOk (s : State) (c : Nat) (m : Bytes) (r : RecipeD) (i : Nat) (d : StepD) : Bool :=
  stepFieldsOk r i d && weightsOk m d (costD r d).colTiles && entryListsOk s c m d && stepProgramOk s c m r d
    && costOk s c r d

/-- The header of recipe i (R333, R334). -/
def recipeHeadOk (m : Bytes) (i : Nat) (b : Bytes) (r : RecipeD) : Bool :=
  let uses := bits r.flags 1 1 == 1
  r.no == i && 1 ≤ fld b 4 2 && fld b 4 2 ≤ 4096 && 1 ≤ fld b 6 2 && fld b 6 2 ≤ 1024
    && bits r.flags 2 6 == 0 && r.tokenMode ≤ 2 && ((r.tokenMode == 0) == (r.tokenStep == noIx))
    && (r.tokenMode == 0 || (match r.steps[r.tokenStep]? with | some d => fmtAt r d.out == 5 | none => false))
    && (r.alt == noIx || (r.alt != i && r.alt < mRecipes m))
    && (if uses then r.kvFormat == 1 || r.kvFormat == 2 else
        r.kvFormat == 0 && r.kvLayers == 0 && r.kvHeads == 0 && r.headDim == 0)
    && r.kvLayers ≤ 256 && (!uses || bits r.flags 0 1 == 1)
    && (!uses || (1 ≤ r.kvHeads && r.kvHeads ≤ 32 && 1 ≤ r.headDim && r.headDim ≤ 240))
    && allZero (sub b 17 3) && allZero (sub b 40 24) && r.bytes == b.length && r.scratch % 4096 == 0
    && r.hopperOff ≤ r.bytes && r.costOff ≤ r.bytes
    && 64 + 32 * r.tensors.length + 128 * r.steps.length ≤ r.bytes

/-- Whether an alternate recipe shares the KV layout and token mode (R334). -/
def altOk (s : State) (c : Nat) (r : RecipeD) : Bool :=
  r.alt == noIx ||
    (let a := recipeOf s c r.alt
     bits a.flags 1 1 == bits r.flags 1 1 && a.kvLayers == r.kvLayers && a.kvHeads == r.kvHeads
      && a.headDim == r.headDim && a.kvFormat == r.kvFormat && a.tokenMode == r.tokenMode)

/-- Recipe i of a cast passes every load check but those over the resident recipes (R263). -/
def recipeOk (s : State) (c i : Nat) : Bool :=
  let m := (castGet s c).manifest
  let b := recipeBytes s c i
  let r := recipeD b
  64 ≤ b.length && recipeHeadOk m i b r && r.tensors.all (tensorOk r)
    && (r.steps.zipIdx).all (fun d => stepOk s c m r d.2 d.1) && altOk s c r

/-- The StepRefs of a cast's recipes. -/
def castStepRefs (s : State) (c : Nat) : List Nat :=
  ((List.range (mRecipes (castGet s c).manifest)).map (fun i => (recipeOf s c i).steps.map (·.ref))).flatten

/-- Every recipe of a cast loads, and its StepRefs are distinct (R334). -/
def castRecipesOk (s : State) (c : Nat) : Bool :=
  (List.range (mRecipes (castGet s c).manifest)).all (recipeOk s c) && noRepeat (castStepRefs s c)

end Sys2Proof.Machine
end

