-- ==== Sys2Proof/Machine/Serve.lean ====
section
/-! DEFINITION. Requests in their slots: descriptors, rows and tensors, failures and replays, refusals and completions
(R212 to R215, R335, R336, R347 to R358, R414 to R416). -/

namespace Sys2Proof.Machine

open Sys2Proof

/-! ### Descriptors (R347) -/

/-- Kind. -/
def dKind (d : Bytes) : Nat := byteAt d 0

/-- Class: 0 LIVE to 3 IDLE. -/
def dClass (d : Bytes) : Nat := byteAt d 1 % 4

/-- FOLLOW. -/
def dFollow (d : Bytes) : Bool := bits (byteAt d 1) 2 1 == 1

/-- NOTIFY. -/
def dNotify (d : Bytes) : Bool := bits (byteAt d 1) 3 1 == 1

/-- RecipeNo. -/
def dRecipe (d : Bytes) : Nat := fld d 2 2

/-- CastPointer. -/
def dCastPtr (d : Bytes) : Nat := byteAt d 4

/-- VariantPointer. -/
def dVarPtr (d : Bytes) : Nat := fld d 6 2

/-- LengthTableAddr. -/
def dTable (d : Bytes) : Nat := fld d 16 8

/-- BindingTableAddr. -/
def dBind (d : Bytes) : Nat := fld d 24 8

/-- TokenBufAddr. -/
def dTokens (d : Bytes) : Nat := fld d 32 8

/-- LengthEntries. -/
def dEntries (d : Bytes) : Nat := fld d 40 2

/-- BindingCount. -/
def dBindings (d : Bytes) : Nat := fld d 42 2

/-- TokenCapacity. -/
def dCapacity (d : Bytes) : Nat := fld d 44 4

/-- DeadlineTicks. -/
def dDeadline (d : Bytes) : Nat := fld d 48 2

/-- ContextId of a context command. -/
def dContext (d : Bytes) : Nat := fld d 50 2

/-- FirstLayer. -/
def dFirstLayer (d : Bytes) : Nat := byteAt d 52

/-- LayerCount. -/
def dLayers (d : Bytes) : Nat := fld d 54 2

/-! ### Request slots -/

/-- A request. -/
def reqGet (s : State) (i : Nat) : Option Request := sfind s.sched.reqs i

/-- Change a request. -/
def reqMod (i : Nat) (f : Request → Request) (s : State) : State :=
  { s with sched := { s.sched with reqs := smod s.sched.reqs i f } }

/-- The recipe a request runs. -/
def reqRecipe (s : State) (r : Request) : RecipeD := recipeOf s r.cast (dRecipe r.desc)

/-- The recipe generation of R181: the pinned variant's for none, the cast's. -/
def reqGeneration (s : State) (r : Request) : Nat := mGeneration (castGet s r.cast).manifest

/-- Change a step of a request. -/
def stepMod (i k : Nat) (f : StepSt → StepSt) (s : State) : State :=
  reqMod i (fun r => { r with steps := updNth r.steps k f }) s

/-- A step of a request. -/
def stepGet (r : Request) (k : Nat) : StepSt := nth {} r.steps k

/-- The key of a ring. -/
def ringKey (tenant ring : Nat) : Nat := 4 * tenant + ring

/-- A ring. -/
def ringGet (s : State) (tenant ring : Nat) : Ring := sget {} s.sched.rings (ringKey tenant ring)

/-- Change a ring. -/
def ringMod (tenant ring : Nat) (f : Ring → Ring) (s : State) : State :=
  { s with sched := { s.sched with rings := supd {} s.sched.rings (ringKey tenant ring) f } }

/-- A tenant's completion ring and reset. -/
def tenantGet (s : State) (n : Nat) : TenantSt := sget {} s.sched.tenants n

/-- Change a tenant's completion ring and reset. -/
def tenantMod (n : Nat) (f : TenantSt → TenantSt) (s : State) : State :=
  { s with sched := { s.sched with tenants := supd {} s.sched.tenants n f } }

/-- The entries of a ring in force; 0 disables it. -/
def ringEntries (s : State) (n r : Nat) : Nat := getO s (tkey (oSubRingEntries + r) n)

/-- The contexts a request names (R212). -/
def namedCtxs (r : Request) : List Nat :=
  match dKind r.desc with
  | 0 => r.entries.map (·.ctx)
  | 2 => [dContext r.desc]
  | 3 => [dContext r.desc]
  | 4 => [dContext r.desc]
  | _ => []

/-- Whether an admitted, uncommitted request names a context (R212). -/
def ctxBusy (s : State) (c : Nat) : Bool := s.sched.reqs.any (fun e => !e.2.refused && (namedCtxs e.2).contains c)

/-! ### Length tables and rows (R213, R215, R335) -/

/-- A length-table entry. -/
def lenEntry (b : Bytes) : LenEntry := ⟨fld b 0 2 % 16384, byteAt b 1 / 64, fld b 2 2, fld b 4 4, fld b 8 2 % 16384⟩

/-- The entries of a length table. -/
def lenTable (n : Nat) (b : Bytes) : List LenEntry := (List.range n).map (fun i => lenEntry (sub b (16 * i) 16))

/-- A binding entry. -/
def bindingD (b : Bytes) : Binding := ⟨fld b 0 2, fld b 8 8, fld b 16 8, fld b 24 8⟩

/-- Whether a role mask selects an entry's role. -/
def roleIn (mask role : Nat) : Bool := bits mask role 1 == 1

/-- A row of a step: its index in the row tensor, its entry, and the context and position it dithers with (R181). -/
structure Row where
  ix : Nat
  entry : Nat
  ctx : Nat
  pos : Nat
deriving DecidableEq, Repr

/-- The rows a tensor has for a request (R335, R336). -/
def tensorRows (t : TensorD) (es : List LenEntry) : Nat := match t.rowsMode with
  | 0 => t.rows
  | 1 => sumN ((es.filter (fun e => roleIn t.roleMask e.role)).map (·.count))
  | _ => (es.filter (fun e => roleIn t.roleMask e.role)).length

/-- The rows of a tensor whose roles a step selects, with what each dithers with (R181, R215, R339). -/
def rowList (t : TensorD) (roles : Nat) (es : List LenEntry) : List Row :=
  let first := es.headD ⟨0, 0, 0, 0, 0⟩
  match t.rowsMode with
  | 0 => (List.range t.rows).map (fun i => ⟨i, 0, first.ctx, i⟩)
  | 1 =>
    let sel := es.zipIdx.filter (fun e => roleIn t.roleMask e.1.role)
    let all := (sel.map (fun e => (List.range e.1.count).map (fun i => (e, i)))).flatten
    ((all.zipIdx).filter (fun x => roleIn roles x.1.1.1.role)).map (fun x =>
      ⟨x.2, x.1.1.2, x.1.1.1.ctx, x.1.1.1.start + x.1.2⟩)
  | _ =>
    let sel := es.zipIdx.filter (fun e => roleIn t.roleMask e.1.role)
    ((sel.zipIdx).filter (fun x => roleIn roles x.1.1.role)).map (fun x =>
      ⟨x.2, x.1.2, x.1.1.ctx, x.1.1.start + max x.1.1.count 1 - 1⟩)

/-- The rows of a step: those of its row tensor over its RoleMask (R365). -/
def stepRows (r : RecipeD) (d : StepD) (es : List LenEntry) : List Row := match tensorAt r d.row with
  | some t => rowList t d.roles es
  | none => []

/-! ### Tensor storage (R336) -/

/-- Where a tensor of a request lies: a tenant address, or a device address in its scratch. -/
inductive Place where
  | tenant (n a : Nat)
  | device (a : Nat)
  | none
deriving DecidableEq, Repr

/-- The place of a tensor. -/
def tensorPlace (r : Request) (t : TensorD) (ix : Nat) : Place := match t.storage with
  | 0 => match r.bindings.find? (fun b => b.tensor == ix) with
    | some b => .tenant r.tenant b.addr
    | none => .none
  | 1 => match r.scratch with
    | some sc => .device (sc.1 + t.scratchOff)
    | none => .none
  | _ => .none

/-- Bytes of the summaries of a recipe's SCRATCH tensors before tensor `ix`; they follow the scratch. -/
def summaryOff (rc : RecipeD) (es : List LenEntry) (ix : Nat) : Nat :=
  sumN (((rc.tensors.zipIdx).filter (fun x => x.2 < ix && x.1.storage == 1 && x.1.summary)).map (fun x =>
    64 * ceilDiv (tensorRows x.1 es) 15))

/-- The place of a tensor's summary: at SummaryAddr, or next to the scratch (R336). -/
def summaryPlaceOf (rc : RecipeD) (r : Request) (t : TensorD) (ix : Nat) : Place := match t.storage with
  | 0 => match r.bindings.find? (fun b => b.tensor == ix) with
    | some b => .tenant r.tenant b.summary
    | none => .none
  | 1 => match r.scratch with
    | some sc => .device (sc.1 + rc.scratch + summaryOff rc r.entries ix)
    | none => .none
  | _ => .none

/-- Scratch a request needs: ScratchBytes and the summaries next to it. -/
def scratchNeed (rc : RecipeD) (es : List LenEntry) : Nat := rc.scratch + summaryOff rc es rc.tensors.length

/-- Read bytes of a tensor. -/
def placeRead (h : Hint) (p : Place) (off n : Nat) (s : State) : Except MemFault Bytes × State := match p with
  | .tenant t a => tenantRead h t (a + off) n s
  | .device a => memRead h (a + off) n s
  | .none => (.error .notLive, s)

/-- Write bytes of a tensor. -/
def placeWrite (h : Hint) (p : Place) (off : Nat) (d : Bytes) (s : State) : State := match p with
  | .tenant t a => tenantWrite h t (a + off) d s
  | .device a => memWrite h (a + off) d s
  | .none => s

/-! ### Outcomes of reading an operand (R60, R307, R311, R319, R325, R356) -/

/-- Why an operand could not be used: a status that fails the request, a fault that replays it, or a TP5 code that is none in a block
of the Ingot Store, which also marks the block's sector (R251). -/
inductive UseFault where
  | status (code : Nat)
  | step (code detail : Nat)
  | ingot (ibn : Nat)
deriving DecidableEq, Repr

/-- The status of a data fault in a tensor that a tenant wrote (R356). -/
def dataStatus : DataFault → Nat
  | .burstCrc => 0x0030
  | .sparseMeta => 0x0031
  | .expSummary => 0x0032
  | .burstForm => 0x0035
  | .tritCode => 0x0030

/-- The fault code of a data fault in a tensor that the device wrote (R411). -/
def dataCode : DataFault → Nat
  | .tritCode => 0x0101
  | .burstCrc => 0x0102
  | .burstForm => 0x0103
  | .sparseMeta => 0x0104
  | .expSummary => 0x0105

/-- What a data fault in a tensor does: a status where tenant software wrote it, a REQUEST-bound tensor that no step of the recipe
writes; a STEP fault where the device wrote it (R60, R152, R352). -/
def useData (rc : RecipeD) (t : TensorD) (ix : Nat) (f : DataFault) : UseFault :=
  if t.storage = 0 ∧ producedBy rc ix = false then .status (dataStatus f) else .step (dataCode f) 0

/-- What a memory fault does (R307, R311, R319, R325). -/
def useMem (s : State) (f : MemFault) : UseFault := match f with
  | .notLive => .status 0x0016
  | .dead _ => .status 0x0034
  | .lost b =>
    let k := frameKind s (frameOf (64 * b))
    if k = 2 ∨ ((k = 3 ∨ k = 4) ∧ getO s oBuddyChipId = 0xFFFF) then .status 0x0033 else .step 0x010C (64 * b)

/-! ### Failing, replaying and ending requests (R356, R358, R414 to R416) -/

/-- The physical unit of a logical Griddle (R82). -/
def physGriddle (s : State) (g : Nat) : Option Nat := nth none s.faults.griddleMap g

/-- The logical Griddle that a physical one serves. -/
def logicalOf (s : State) (p : Nat) : Option Nat := s.faults.griddleMap.findIdx? (fun x => x == some p)

/-- Release everything a request's units hold on Griddles: tiles, latches, match tables, save slots, Hoppers (R414). What the walk
at the late mark took out of issue stays out (R380). -/
def releaseUnits (i : Nat) (s : State) : State :=
  let free := fun (t : TileStore) => { t with hoppers := t.hoppers.map (fun h => if h.bound && h.request == i then {} else h) }
  let drains := (s.engine.latches.filter (fun e => e.2.request == i)).filterMap (fun e => physGriddle s e.1)
  let idle := fun (n : Nat) (w : Whisk) =>
    let sets := w.sets.filter (fun t => t.request != i)
    if drains.contains n then { sets := sets } else { w with sets := sets }
  { s with
    engine := { s.engine with
      tiles := s.engine.tiles.filter (fun e => e.2.request != i)
      latches := s.engine.latches.filter (fun e => e.2.request != i)
      banks := s.engine.banks.map (fun e => (e.1, e.2.filter (fun b => b.key.request != i)))
      saves := s.engine.saves.filter (fun e => e.2.request != i)
      overflow := s.engine.overflow.filter (fun e => e.request != i)
      stores := s.engine.stores.map (fun e => (e.1, free e.2))
      whisks := s.engine.whisks.map (fun e => (e.1, (idle e.1 e.2 : Whisk))) } }

/-- Count a fault against a ring (R358). -/
def ringFault (tenant ring : Nat) (s : State) : State :=
  let t := s.time.tickNo
  let s := ringMod tenant ring (fun r => { r with faults := (r.faults.filter (fun x => t < x + 1024)) ++ [t] }) s
  bump s (tkey oTenantFaultCount tenant)

/-- Whether a status counts as a fault of its ring (R358). -/
def countsFault (status : Nat) : Bool :=
  (0x0010 ≤ status && status ≤ 0x0021) || status == 0x0030 || status == 0x0031 || status == 0x0032 || status == 0x0034
    || status == 0x0035

/-- Fail a request with a status: its units end, nothing of it commits, it completes at the next commit (R356). -/
def failRequest (i status : Nat) (s : State) : State :=
  match reqGet s i with
  | none => s
  | some r =>
    if r.finished then s
    else
      let s := releaseUnits i s
      let s := if status = 0x0034 then bump s oDramDeadReadCount else s
      let s := if status = 0x0031 then bump s oSparseMetaCount else s
      let s := if status = 0x0016 then bump s oIsolationBlockCount else s
      let s := if countsFault status then ringFault r.tenant r.ring s else s
      reqMod i (fun r => { r with
        status := status
        finished := true
        units := r.units.map (fun u => { u with phase := .done }) }) s

/-- Put a request's units back to their start (R414). -/
def resetUnits (us : List UnitSt) : List UnitSt :=
  us.map (fun u => { u with
    phase := .ready
    tile := 0
    pass := 0
    done := 0
    saveSlot := none
    tag := 0
    block := 0
    again := none })

/-- A request whose check fails is no longer ready to commit: it leaves the commit sets (R4). -/
def leaveSets (i : Nat) (s : State) : State :=
  { s with sched := { s.sched with
    commitSet := s.sched.commitSet.filter (· != i)
    held := s.sched.held.map (fun h => (h.1, h.2.filter (· != i))) } }

/-- Replay a request from its first step (R414, R415): outputs and units go, its KV state is rolled back, and it keeps its
pins, admission tick, AdmitSeq and the formats its adaptive steps took. -/
def replayRequest (i : Nat) (s : State) : State :=
  match reqGet s i with
  | none => s
  | some r =>
    if r.finished ∧ r.status ≠ 0 ∧ r.status ≠ 1 then s
    else
      let s := leaveSets i (releaseUnits i s)
      let back := (namedCtxs r).foldl (fun x c =>
        let y := rollbackCtx c x.2
        (x.1 ++ y.1, y.2)) ([], s)
      let fmts := ((stepsFmts r).filter (fun f => !(r.fmts.any (fun g => g.1 == f.1)))) ++ r.fmts
      let s := reqMod i (fun r => { r with
        units := resetUnits r.units
        steps := r.steps.mapIdx (fun k x => { ({} : StepSt) with
          predicted := x.predicted
          complete := !r.units.any (fun u => u.step == k) && !selects s r k })
        fmts := fmts
        status := 0
        reserved := back.1 ++ r.reserved
        deltas := []
        finished := false
        replays := r.replays + 1 }) back.2
      bump s oRequestReplayCount
where
  /-- Whether a step is a TOKEN_SELECT with rows, which has no unit but work to do. -/
  selects (s : State) (r : Request) (k : Nat) : Bool :=
    let rc := reqRecipe s r
    dKind r.desc == 0 && (match rc.steps[k]? with
      | some d => d.kind == 3 && !(stepRows rc d r.entries).isEmpty
      | none => false)
  /-- The formats that steps of a request have taken. -/
  stepsFmts (r : Request) : List (Nat × Fmt) :=
    (r.steps.zipIdx).filterMap (fun x => x.1.fmt.map (fun f => (x.2, f)))

/-- A STEP fault of a request: log, charge, count, and replay (R411, R414). -/
def stepFaultReplay (code : Nat) (kind : UnitKind) (idx i step : Nat) (detail : Nat) (s : State) : State :=
  let s := raiseFault code kind idx (some i) (if detail = 0 then step else detail) s
  let s := match code with
    | 0x0104 => bump s oSparseMetaCount
    | 0x0107 => bump s oKvMetaCount
    | 0x0110 => bump s oCheckFailCount
    | 0x0111 => bump s oWhiskCheckCount
    | 0x0112 => bump s oSieveCheckCount
    | _ => s
  replayRequest i s

/-- What a request waits for when it has read a LOST burst, beside the sectors it waits for (R311). -/
def waitBurst (b : Nat) : Nat := 2 ^ 48 + b

/-- Let a request wait for a sector's repair or a burst's restoration before its replay (R251, R311). -/
def waitFor (x i : Nat) (s : State) : State :=
  reqMod i (fun r => { r with waitSector := r.waitSector.filter (· != x) ++ [x] }) s

/-- Count what the Ingot reader finds, and mark the sector DAMAGED (R251). -/
def noteIngot (code ibn : Nat) (s : State) : State :=
  damage (ibn / 1024) (match code with
    | 0x0109 => bump s oIngotUncorrectableCount
    | 0x010A => bump s oIngotCrcCount
    | _ => bump s oIngotTritCodeCount)

/-- An input integrity fault of an Ingot block: the sector is DAMAGED, and the reading step's request is replayed once
the sector is repaired (R251). -/
def ingotFault (code ibn : Nat) (reader : Option (Nat × Nat)) (s : State) : State :=
  let s := noteIngot code ibn s
  match reader with
  | none => s
  | some (i, k) =>
    if (reqGet s i).isNone then s
    else waitFor (ibn / 1024) i (stepFaultReplay code .nvDie (dieOf (ibn / 1024)) i k ibn s)

/-- What a fault of an operand does to its request. -/
def useFault (f : UseFault) (g i step : Nat) (s : State) : State := match f with
  | .status c => failRequest i c s
  | .ingot b => ingotFault 0x0101 b (some (i, step)) s
  | .step c d =>
    let s := stepFaultReplay c .none g i step d s
    if c = 0x010C then waitFor (waitBurst (d / 64)) i s else s

/-- The logical Griddles that are OUT (R421). -/
def outMask (s : State) : List Nat := natsWhere 64 (fun g => (physGriddle s g).isNone)

/-- A completion record (R354). -/
def cplRecord (tag status ring flags stepFlags spec tick tokens index : Nat) : Bytes :=
  withCrc (natLe 8 tag ++ natLe 2 status ++ natLe 1 ring ++ natLe 1 flags ++ natLe 2 stepFlags ++ natLe 1 spec ++ [0]
    ++ natLe 8 tick ++ natLe 4 tokens ++ natLe 2 index)

/-- Completion slots a tenant's requests hold (R346). -/
def heldSlots (s : State) (n : Nat) : Nat := (s.sched.reqs.filter (fun e => e.2.tenant == n)).length

/-- The completion ring's ProducerIndex: read from the header when the ring is first used, then kept (R343). -/
def cplSync (n : Nat) (s : State) : State :=
  let t := tenantGet s n
  let b := getO s (tkey oCplRingBase n)
  let e := getO s (tkey oCplRingEntries n)
  if t.cplBase = b ∧ t.cplEntries = e then s
  else match translate s n b with
    | some a => tenantMod n (fun t => { t with
        cplBase := b
        cplEntries := e
        cplProducer := leNat (memGet s.dram.mem a 4) }) s
    | none => s

/-- Unconsumed records of a tenant's completion ring, by its header (R343, R346). -/
def unconsumed (s : State) (n : Nat) : Nat :=
  match translate s n (getO s (tkey oCplRingBase n) + 8) with
  | some a => ((tenantGet s n).cplProducer + 2 ^ 32 - leNat (memGet s.dram.mem a 4)) % 2 ^ 32
  | none => 2 ^ 32

/-- Whether a tenant's completion ring has a free slot for one more entry (R346). -/
def cplRoom (s : State) (n : Nat) : Bool := heldSlots s n + unconsumed s n < getO s (tkey oCplRingEntries n)

/-- Put a record at the tenant's completion ring index; the header's ProducerIndex is written by `cplPublish` (R355). -/
def cplPut (n : Nat) (rec : Bytes) (s : State) : State :=
  let s := cplSync n s
  let e := getO s (tkey oCplRingEntries n)
  if e = 0 then s
  else
    let t := tenantGet s n
    let a := getO s (tkey oCplRingBase n) + 64 + 32 * (t.cplProducer % e)
    let s := tenantWrite .normal n a rec s
    tenantMod n (fun t => { t with cplProducer := (t.cplProducer + 1) % 2 ^ 32 }) s

/-- Advance the completion ring's ProducerIndex in its header (R355). -/
def cplPublish (n : Nat) (s : State) : State :=
  if getO s (tkey oCplRingEntries n) = 0 then s
  else tenantWrite .normal n (getO s (tkey oCplRingBase n)) (natLe 4 (tenantGet s n).cplProducer) s

end Sys2Proof.Machine
end

