-- ==== Sys2Proof/Machine/Variants.lean ====
section
/-! DEFINITION. Variants and the Sieve: manifests, change lists, the encoding into segments, load sessions, slots and
pointers, decode tables, the Merge and the Sieve terms (R275 to R303). -/

namespace Sys2Proof.Machine

open Sys2Proof

/-! ### Signers (R484) -/

/-- The key that signs a manifest: the owner's where TENANT_SIGNED is clear and TenantId 0, else a TENANT entry of the
key table with the right `bit` whose Subject is TenantId. -/
def signerKey (s : State) (digest : Bytes) (tenantSigned : Bool) (tenant bit : Nat) : Option Bytes :=
  if tenantSigned then
    (s.sec.keys.find? (fun r => keyDigest (r.take 65) == digest && recKind r == 2 && recSubject r == tenant
      && recRight r bit)).map (fun r => r.take 65)
  else match s.sec.ownerKey with
    | some k => if keyDigest k = digest ∧ tenant = 0 then some k else none
    | none => none

/-! ### Manifests and change lists (R277, R278) -/

/-- A variant slot. -/
def varGet (s : State) (v : Nat) : VarSlot := sget {} s.vars.slots v

/-- Change a variant slot. -/
def varMod (v : Nat) (f : VarSlot → VarSlot) (s : State) : State :=
  { s with vars := { s.vars with slots := supd {} s.vars.slots v f } }

/-- ChangeTotal. -/
def vmTotal (m : Bytes) : Nat := fld m 48 8

/-- TENANT_SIGNED of a variant manifest. -/
def vmTenantSigned (m : Bytes) : Bool := bits (fld m 44 2) 0 1 == 1

/-- TenantId of a variant manifest. -/
def vmTenant (m : Bytes) : Nat := fld m 46 2

/-- SourceDigest. -/
def vmSource (m : Bytes) : Bytes := sub m 96 32

/-- The form checks of a variant manifest: VARIANT_FORM where they fail. -/
def varFormOk (m : Bytes) : Bool :=
  fld m 0 4 == 1 && fld m 4 4 == 0x0B12000A && nameOk (mName m) && 1 ≤ mGeneration m && fld m 44 2 < 2
    && vmTenant m ≤ 1023 && (vmTenantSigned m || vmTenant m == 0) && vmTotal m < 2 ^ 32
    && allZero (sub m 56 8) && allZero (sub m 160 32)

/-- A change: block, position, new trit code. -/
structure Change where
  block : Nat
  pos : Nat
  code : Nat
  res : Nat
deriving DecidableEq, Repr

/-- Entry i of a change list. -/
def changeAt (b : Bytes) (i : Nat) : Change :=
  let v := fld b (8 * i) 8
  ⟨bits v 0 33, bits v 33 8, bits v 41 2, bits v 43 21⟩

/-- The entries of a change list. -/
def changeList (b : Bytes) : List Change := (List.range (b.length / 8)).map (changeAt b)

/-- The trits of a base block. -/
def baseTrits (s : State) (c block : Nat) : List Int := match tp5Unpack (castAt s c block 48) with
  | .ok t => t
  | .error _ => []

/-- The weight runs that the recipes of a cast read through a Merge, with the columns of their tiles (R254, R334). -/
def weightRuns (s : State) (c : Nat) : List (Nat × Nat × Nat) :=
  ((List.range (mRecipes (castGet s c).manifest)).map (fun i =>
    let r := recipeOf s c i
    (r.steps.map (fun d =>
      let k := (costD r d).colTiles
      match d.kind with
      | 0 => if d.bitPlane then [] else [(d.weight, d.colTiles * d.reduce * tileBlocks d.stream, tileCols d.stream)]
      | 1 => [(d.weight, k * d.reduce * 248, 240), (d.up, k * d.reduce * 248, 240),
          (d.down, k * d.colTiles * tileBlocks d.stream, tileCols d.stream)]
      | _ => [])).flatten)).flatten

/-- Whether a block is a column block of a weight tile that a step reads (R276). -/
def columnBlock (runs : List (Nat × Nat × Nat)) (b : Nat) : Bool :=
  runs.any (fun r => r.1 ≤ b && b < r.1 + r.2.1 && (b - r.1) % (r.2.2 + 8) < r.2.2)

/-- Whether every entry of a change list obeys R275, R276 and R278. -/
def changesOk (s : State) (c : Nat) (l : List Change) : Bool :=
  let runs := weightRuns s c
  decide ((l.map (fun x => 256 * x.block + x.pos)).Pairwise (· < ·))
    && l.all (fun x => x.res == 0 && x.pos < 240 && x.code != 3 && x.block < mBlocks (castGet s c).manifest
      && columnBlock runs x.block && nth 0 (baseTrits s c x.block) x.pos != digitTrit x.code)

/-! ### The encoding (R275, R280 to R285) -/

/-- The next trit in the cycle −1, 0, +1, −1. -/
def nextTrit (t : Int) : Int := if t = 1 then -1 else t + 1

/-- The previous trit in the cycle. -/
def prevTrit (t : Int) : Int := if t = -1 then 1 else t - 1

/-- The direction bit of a change (R275). -/
def direction (base new : Int) : Bool := nextTrit base != new

/-- The trit a direction names (R275). -/
def turned (base : Int) (d : Bool) : Int := if d then prevTrit base else nextTrit base

/-- The gaps of rising positions (R281). -/
def gapsOf : Option Nat → List Nat → List Nat
  | _, [] => []
  | none, p :: ps => p :: gapsOf (some p) ps
  | some q, p :: ps => (p - q - 1) :: gapsOf (some p) ps

/-- The sum that kraft forms (R280). -/
def kraft (l : List Nat) : Nat := sumN (l.map (fun n => if n = 0 then 0 else 2 ^ (12 - n)))

/-- The first length of a gap that occurs f times of t: raised from 1 while f·2^L < t and L < 12. -/
def firstLen (f t : Nat) : Nat → Nat → Nat
  | 0, l => l
  | n + 1, l => if f * 2 ^ l < t ∧ l < 12 then firstLen f t n (l + 1) else l

/-- The gap whose code is lengthened: the least frequent shorter than 12, the highest on ties (R280). -/
def longer (f l : List Nat) : Option Nat :=
  (List.range 240).foldl (fun h g =>
    if 0 < nth 0 l g ∧ nth 0 l g < 12 then
      match h with
      | none => some g
      | some k => if nth 0 f g ≤ nth 0 f k then some g else some k
    else h) none

/-- The repair of a code that is too short. -/
def repairLens (f : List Nat) : Nat → List Nat → List Nat
  | 0, l => l
  | n + 1, l => if kraft l ≤ 4096 then l else match longer f l with
    | some h => repairLens f n (updNth l h (· + 1))
    | none => l

/-- The code lengths of a segment from its gap counts (R280). -/
def mould (f : List Nat) : List Nat :=
  let t := sumN f
  repairLens f 2880 (f.map (fun x => if x = 0 then 0 else firstLen x t 12 1))

/-- The canonical codewords of lengths (R281): (gap, length, codeword). -/
def canonical (l : List Nat) : List (Nat × Nat × Nat) :=
  ((List.range 12).foldl (fun (st : Nat × List (Nat × Nat × Nat)) k =>
    let n := k + 1
    let r := (natsWhere 240 (fun g => nth 0 l g == n)).foldl (fun (st : Nat × List (Nat × Nat × Nat)) g =>
      (st.1 + 1, st.2 ++ [(g, n, st.1)])) st
    (2 * r.1, r.2)) (0, [])).2

/-- The bits of a number, most significant first. -/
def msbBits (n v : Nat) : List Bool := (List.range n).map (fun i => v / 2 ^ (n - 1 - i) % 2 == 1)

/-- Bits in bytes from bit 7 down, padded with zeros to a multiple of 8 bytes (R79, R281). -/
def packBits (l : List Bool) : Bytes :=
  (List.range (8 * ceilDiv l.length 64)).map (fun i =>
    BitVec.ofNat 8 ((List.range 8).foldl (fun v j => 2 * v + (if l.getD (8 * i + j) false then 1 else 0)) 0))

/-- The body of a block's changes: each gap's codeword and direction (R281). -/
def bodyBits (code : List (Nat × Nat × Nat)) (cs : List (Nat × Bool)) : List Bool :=
  (((gapsOf none (cs.map (·.1))).zip cs).map (fun x =>
    (match code.find? (fun c => c.1 == x.1) with
      | some c => msbBits c.2.1 c.2.2
      | none => []) ++ [x.2.2])).flatten

/-- TableGen of a variant (R285). -/
def tableGen (m : Bytes) : Nat := 1 + mGeneration m % 255

/-- The changes of a list that fall in one block, as positions and directions. -/
def blockDirs (s : State) (c : Nat) (l : List Change) (b : Nat) : List (Nat × Bool) :=
  let base := baseTrits s c b
  (l.filter (fun x => x.block == b)).map (fun x => (x.pos, direction (nth 0 base x.pos) (digitTrit x.code)))

/-- The merged trits of a block: changed positions take their new trits (R290). -/
def applyDirs (base : List Int) (cs : List (Nat × Bool)) : List Int :=
  base.mapIdx (fun i t => match cs.find? (fun x => x.1 == i) with
    | some x => turned t x.2
    | none => t)

/-- The record of a changed block (R282). -/
def dbRecord (gen off : Nat) (code : List (Nat × Nat × Nat)) (base : List Int) (cs : List (Nat × Bool)) : Bytes :=
  let body := bodyBits code cs
  if body.length ≥ 384 then
    dbHeaderBytes ⟨2, 0, cs.length, 0, 384, off⟩ ++ tp5Pack (applyDirs base cs)
  else dbHeaderBytes ⟨1, gen, cs.length, 0, body.length, off⟩ ++ packBits body

/-- The changed blocks of segment j, rising. -/
def segBlocks (l : List Change) (j : Nat) : List Nat :=
  ((l.filter (fun x => x.block / 8192 == j)).map (·.block)).eraseDups

/-- The code lengths that the mould pass builds for segment j. -/
def segLens (l : List Change) (j : Nat) : List Nat :=
  let gaps := ((segBlocks l j).map (fun b => gapsOf none ((l.filter (fun x => x.block == b)).map (·.pos)))).flatten
  mould ((List.range 240).map (fun g => (gaps.filter (· == g)).length))

/-- The header of a segment (R284). -/
def segHeader (j gen count : Nat) (lens spans : List Nat) : Bytes :=
  withCrc (natLe 4 j ++ natLe 1 gen ++ [0] ++ natLe 2 count
    ++ (List.range 120).map (fun k => BitVec.ofNat 8 (nth 0 lens (2 * k) + 16 * nth 0 lens (2 * k + 1)))
    ++ (spans.map (natLe 4)).flatten ++ zeros 62)

/-- A segment with its records (R284). -/
def buildSegment (s : State) (c : Nat) (m : Bytes) (l : List Change) (j : Nat) : Bytes :=
  let lens := segLens l j
  let code := canonical lens
  let blocks := segBlocks l j
  let recs := blocks.map (fun b =>
    (b - 8192 * j, dbRecord (tableGen m) (b - 8192 * j) code (baseTrits s c b) (blockDirs s c l b)))
  let total := 320 + sumN (recs.map (fun r => r.2.length))
  let starts := (recs.foldl (fun (st : Nat × List (Nat × Nat)) r => (st.1 + r.2.length, st.2 ++ [(r.1, st.1)])) (320, [])).2
  let spans := (List.range 32).map (fun t => match starts.find? (fun x => 256 * t ≤ x.1) with
    | some x => x.2
    | none => total)
  segHeader j (tableGen m) blocks.length lens spans ++ (recs.map (·.2)).flatten

/-- Every segment of a variant that has a record. -/
def buildSegments (s : State) (c : Nat) (m : Bytes) (l : List Change) : SMap Bytes :=
  ((l.map (fun x => x.block / 8192)).eraseDups).foldl (fun acc j => sput acc j (buildSegment s c m l j)) []

/-! ### Reading segments (R283 to R285, R288, R293) -/

/-- The records of a segment: header, body, from byte `off`. -/
def segRecords (seg : Bytes) : Nat → Nat → List (DbHeader × Bytes)
  | 0, _ => []
  | n + 1, off =>
    if seg.length < off + 8 then []
    else
      let h := dbHeader (sub seg off 8)
      (h, sub seg (off + 8) (dbRecordBytes h - 8)) :: segRecords seg n (off + dbRecordBytes h)

/-- The records of a variant's segment. -/
def varRecords (v : VarSlot) (j : Nat) : List (DbHeader × Bytes) := match sfind v.segments j with
  | some seg => segRecords seg 8192 320
  | none => []

/-- The records of a variant in a run of blocks. -/
def runRecords (v : VarSlot) (b n : Nat) : List (DbHeader × Bytes) :=
  if n = 0 then []
  else ((List.range ((b + n - 1) / 8192 - b / 8192 + 1)).map (fun k =>
    let j := b / 8192 + k
    (varRecords v j).filter (fun r => b ≤ 8192 * j + r.1.blockOffset && 8192 * j + r.1.blockOffset < b + n))).flatten

/-- The Sieve term of weight runs: max(⌈Σc/32⌉, ⌈n/8⌉) over their CODED records (R293). -/
def sieveTerm (v : VarSlot) (runs : List (Nat × Nat)) : Nat :=
  let rs := ((runs.map (fun r => runRecords v r.1 r.2)).flatten).filter (fun r => r.1.mode == 1)
  max (ceilDiv (sumN (rs.map (fun r => r.1.changeCount))) 32) (ceilDiv rs.length 8)

/-- The changes of a variant in a run of blocks (R286, R292). -/
def runChanges (v : VarSlot) (b n : Nat) : Nat := sumN ((runRecords v b n).map (fun r => r.1.changeCount))

/-- The code lengths of a segment header. -/
def headerLens (seg : Bytes) : List Nat := (List.range 240).map (fun g => byteAt seg (8 + g / 2) / 16 ^ (g % 2) % 16)

/-- Whether a segment header can give a decode table (R285). -/
def segTableOk (seg : Bytes) : Bool :=
  crcOk (seg.take 320) && (headerLens seg).all (· ≤ 12) && kraft (headerLens seg) ≤ 4096

/-- Match a codeword at the head of a bit string: its gap and the bits after it. -/
def matchCode (code : List (Nat × Nat × Nat)) (b : List Bool) : Option (Nat × List Bool) :=
  (code.find? (fun c => c.2.1 ≤ b.length && b.take c.2.1 == msbBits c.2.1 c.2.2)).map (fun c => (c.1, b.drop c.2.1))

/-- Decode a CODED body: positions and directions, or none where it breaks R80 or R285. -/
def decodeBody (code : List (Nat × Nat × Nat)) : Nat → Option Nat → List Bool → Option (List (Nat × Bool))
  | 0, _, [] => some []
  | 0, _, _ :: _ => none
  | n + 1, prev, b => match matchCode code b with
    | some (g, d :: r) =>
      let p := match prev with | none => g | some q => q + 1 + g
      if p ≥ 240 then none else (decodeBody code n (some p) r).map (fun l => (p, d) :: l)
    | _ => none

/-- The bits of a body, from bit 7 down. -/
def bodyOf (b : Bytes) : List Bool := (b.map (fun x => msbBits 8 x.toNat)).flatten

/-- The trits of a block after the Merge: a bad TP5 byte of a RAW body raises TRIT_CODE (R57), any other flaw of the
record SPARSE_META (R80, R285, R290). `prev` is the BlockOffset of the record before. -/
def mergeRecord (lens : List Nat) (gen : Nat) (prev : Option Nat) (r : DbHeader × Bytes) (base : List Int) :
    Except DataFault (List Int) :=
  if ¬ dbHeaderOk r.1 prev then .error .sparseMeta
  else if r.1.mode = 2 then
    match tp5Unpack (r.2.take 48) with
    | .ok t => if ((t.zip base).filter (fun x => x.1 != x.2)).length = r.1.changeCount then .ok t else .error .sparseMeta
    | .error e => .error e
  else if r.1.tableGen ≠ gen then .error .sparseMeta
  else if r.1.changeCount = 0 then .ok base
  else
    let all := bodyOf r.2
    if (all.drop r.1.codedBits).any id then .error .sparseMeta
    else match decodeBody (canonical lens) r.1.changeCount none (all.take r.1.codedBits) with
      | some l => .ok (applyDirs base l)
      | none => .error .sparseMeta

/-- The records of a segment as a Sieve reads them, in order, up to the one of BlockOffset x: that record and the
BlockOffset before it, or a header that breaks R80 or R285. -/
def walkRecords (x : Nat) : Option Nat → List (DbHeader × Bytes) → Except DataFault (Option (Option Nat × (DbHeader × Bytes)))
  | _, [] => .ok none
  | prev, r :: rs =>
    if ¬ dbHeaderOk r.1 prev then .error .sparseMeta
    else if r.1.blockOffset = x then .ok (some (prev, r))
    else if x < r.1.blockOffset then .ok none
    else walkRecords x (some r.1.blockOffset) rs

/-- Where a Sieve starts to read for block x of a segment: SpanOffset of the span of 256 blocks it lies in (R284, R288). -/
def spanStart (seg : Bytes) (x : Nat) : Nat := fld seg (128 + 4 * (x / 256)) 4

/-- The record of a block, with its segment and the BlockOffset of the record before it in its span. -/
def recordOf (v : VarSlot) (b : Nat) : Except DataFault (Option (Bytes × Option Nat × (DbHeader × Bytes))) :=
  match sfind v.segments (b / 8192) with
  | some seg =>
    if ¬ segTableOk seg then .error .sparseMeta
    else match walkRecords (b % 8192) none (segRecords seg 8192 (spanStart seg (b % 8192))) with
      | .ok (some r) => .ok (some (seg, r))
      | .ok none => .ok none
      | .error e => .error e
  | none => .ok none

/-- A base block's trits as the Merge delivers them. -/
def mergedTrits (v : Option VarSlot) (b : Nat) (base : List Int) : Except DataFault (List Int) := match v with
  | none => .ok base
  | some v => match recordOf v b with
    | .ok none => .ok base
    | .ok (some (seg, p, r)) => mergeRecord (headerLens seg) (byteAt seg 4) p r base
    | .error e => .error e

/-- The weight runs of each pass that the recipes of a cast read through a Merge: a MATMUL's passes and SxS segments, a
neuron block's gate, up and down runs (R286). -/
def mergeRuns (s : State) (c : Nat) : List (List (Nat × Nat)) :=
  (((List.range (mRecipes (castGet s c).manifest)).map (fun i =>
    let r := recipeOf s c i
    (r.steps.map (fun d => match d.kind with
      | 0 => if d.bitPlane then [] else ((List.range d.colTiles).map (fun u =>
          ((d.passes d.reduce) ++ (if d.resident ∧ d.sparseMode = 2 then segmentsOf d else [])).map (fun p =>
            [tileRun d u p.1 p.2]))).flatten
      | 1 => ((List.range (costD r d).colTiles).map (fun nb =>
          [gateRuns r d 0 nb, gateRuns r d 1 nb, gateRuns r d 2 nb])).flatten
      | _ => [])).flatten)).flatten).eraseDups

/-! ### The pool (R279, R286, R303) -/

/-- Bytes a built variant takes in the pool: its segments, an 8-byte cost entry for each of its records, and its change
list. -/
def varBytes (segs : SMap Bytes) (changes : Bytes) : Nat :=
  64 * ceilDiv (sumN (segs.map (fun e => segRoom e.2 + 8 * fld e.2 6 2)) + changes.length) 64

/-- The changes of a segment's records. -/
def segChanges (seg : Bytes) : Nat := sumN ((segRecords seg 8192 320).map (fun r => r.1.changeCount))

/-- A directory entry of 16 bytes (R283). -/
def dirEntry (addr bytes changes : Nat) : Bytes := natLe 6 addr ++ zeros 2 ++ natLe 4 bytes ++ natLe 4 changes

/-- The directory of a variant whose first segment lies at a device address: one entry for each segment of the base cast,
zero where the segment has no record (R283). -/
def segDirectory (at' blocks : Nat) (segs : SMap Bytes) : Bytes :=
  ((List.range (ceilDiv blocks 8192)).map (fun j => match sfind segs j with
    | some seg => dirEntry (at' + sumN ((segs.filter (fun e => e.1 < j)).map (fun e => segRoom e.2))) seg.length (segChanges seg)
    | none => dirEntry 0 0 0)).flatten

/-- The cost table of a variant (R286): for each pass that a recipe of the base cast reads through a Merge, by its first
weight run, the Sieve term and the count of changes. -/
def costTable (s : State) (c : Nat) (v : VarSlot) : List ((Nat × Nat) × Nat × Nat) :=
  (mergeRuns s c).map (fun r => (r.headD (0, 0), sieveTerm v r, sumN (r.map (fun x => runChanges v x.1 x.2))))

/-- Bytes of the pool in force. -/
def varPool (s : State) : Nat := 1048576 * getO s oVariantPoolMiB

/-- The runs of the pool that variants hold, rising. -/
def varRuns (s : State) : List (Nat × Nat) :=
  ((s.vars.slots.filter (fun e => e.2.bytes != 0)).map (fun e => (e.2.base, e.2.bytes))).mergeSort (fun a b => a.1 ≤ b.1)

/-- The first gap of so many bytes between held runs. -/
def firstGap (size want : Nat) : Nat → List (Nat × Nat) → Option Nat
  | pos, [] => if pos + want ≤ size then some pos else none
  | pos, r :: rs => if pos + want ≤ r.1 then some pos else firstGap size want (max pos (r.1 + r.2)) rs

/-- Free MiB of the pool. -/
def varPoolFree (s : State) : Nat := (varPool s - sumN (s.vars.slots.map (fun e => e.2.bytes))) / 1048576

/-! ### Sessions (R279, R280) -/

/-- The lowest FREE variant slot. -/
def freeVarSlot (s : State) : Option Nat := (List.range 512).find? (fun v => (varGet s v).state == 0)

/-- The tenant whose addresses a principal's change list uses; device addresses for owner and operator. -/
def listTenant (a : Access) : Option Nat := match a.who with
  | .tenant n => some n
  | _ => none

/-- Whether a change list lies in its writer's addressable memory (R15). -/
def listFits (s : State) (t : Option Nat) (addr n : Nat) : Bool := match t with
  | some n' => translates s n' addr n
  | none => n == 0 || liveRange s addr n

/-- The change list of the open session. -/
def listBytes (s : State) (x : VarSession) (n : Nat) : Bytes :=
  let t := match x.tenant with
    | some n' => tenantRead .stream n' x.addr n s
    | none => memRead .stream x.addr n s
  match t.1 with
  | .ok b => b
  | .error _ => []

/-- Decode tables tagged by a variant slot are invalidated, and its queued records go (R289). -/
def dropTables (v : Nat) (s : State) : State :=
  let keep := fun (b : Option SieveBank) => match b with
    | some k => if k.slot = v then none else some k
    | none => none
  { s with vars := { s.vars with sieves := s.vars.sieves.map (fun e => (e.1, { e.2 with
    bankA := keep e.2.bankA
    bankB := keep e.2.bankB
    queue := e.2.queue.filter (fun q => q.1 != v) })) } }

/-- A variant slot becomes FREE, and its pool space returns (R279, R300). -/
def freeVar (v : Nat) (s : State) : State :=
  dropTables v { s with vars := { s.vars with slots := sdel s.vars.slots v } }

/-- The open session ends with a code; all but VARIANT_OK free its slot. -/
def endVarSession (code : Nat) (s : State) : State :=
  match s.vars.session with
  | none => s
  | some x =>
    let s := setO { s with vars := { s.vars with session := none } } oVariantLastResult code
    if code = 1 then s else freeVar x.slot s

/-- The abort code that a VariantLoad refused at acceptance answers, for its code in VariantLastResult (R279, R517). -/
def varAbort (code : Nat) : Nat := match code with
  | 2 => abVarForm
  | 3 => abSignature
  | 4 => abVarBase
  | 5 => abVarSlots
  | _ => abLengthRange

/-- The code of the first acceptance check that fails, 0 for none. -/
def varLoadCheck (s : State) (a : Access) (m : Bytes) (addr : Nat) : Nat :=
  if ¬ varFormOk m then 2
  else match signerKey s (sub m 128 32) (vmTenantSigned m) (vmTenant m) 2 with
    | none => 3
    | some k =>
      if ¬ ecdsaVerify k (m.take 192) (sub m 192 64) then 3
      else if (castByRoot s (mRoot m)).isNone then 4
      else if (freeVarSlot s).isNone then 5
      else if ¬ listFits s (listTenant a) addr (8 * vmTotal m) then 6
      else 0

/-- VARIANT_LOAD (R279). -/
def doVariantLoad (a : Access) (v : Bytes) (s : State) : Nat × State :=
  match gate s a oVariantLoad v with
  | 0 =>
    if v.length ≠ 264 then (abLength, s)
    else if s.vars.session.isSome then (abInUse, s)
    else
      let m := v.take 256
      let addr := fld v 256 8
      match varLoadCheck s a m addr with
      | 0 =>
        match freeVarSlot s with
        | none => (abVarSlots, s)
        | some slot =>
          let s := varMod slot (fun k => { k with state := 1, manifest := m }) s
          (abOk, setO { s with vars := { s.vars with session := some ⟨slot, addr, listTenant a, false⟩ } }
            oVariantLoadProgress 0)
      | e => (varAbort e, setO s oVariantLastResult e)
  | e => (e, s)

/-- MOULD_PASS_COMPLETE (R280): the change list's digest and entries are checked, and the space it will need. -/
def doMouldPass (s : State) : State :=
  match s.vars.session with
  | none => s
  | some x =>
    if x.moulded ∨ (varGet s x.slot).state ≠ 1 then s
    else
      let m := (varGet s x.slot).manifest
      let b := listBytes s x (8 * vmTotal m)
      let l := changeList b
      match castByRoot s (mRoot m) with
      | none => endVarSession 4 s
      | some c =>
        if sha256 b ≠ vmSource m then endVarSession 7 s
        else if ¬ changesOk s c l then endVarSession 2 s
        else
          let n := varBytes (buildSegments s c m l) b
          match firstGap (varPool s) n 0 (varRuns s) with
          | none => endVarSession 8 s
          | some base =>
            let s := varMod x.slot (fun k => { k with changes := b, base := base, bytes := n }) s
            let s := { s with vars := { s.vars with session := some { x with moulded := true } } }
            setO s oVariantLoadProgress (vmTotal m)

/-- A variant slot with its segments written, and with them its directory and its cost table (R283, R286). -/
def builtVar (s : State) (c : Nat) (segs : SMap Bytes) (k : VarSlot) : VarSlot :=
  { k with
    segments := segs
    dir := segDirectory (regionBase s 6 + k.base) (mBlocks k.manifest) segs
    costs := costTable s c { k with segments := segs } }

/-- SECOND_PASS_COMPLETE (R280): the segments are written and decoded again with a second decoder. -/
def doSecondPass (ok : Bool) (s : State) : State :=
  match s.vars.session with
  | none => s
  | some x =>
    if ¬ x.moulded then s
    else
      let k := varGet s x.slot
      match castByRoot s (mRoot k.manifest) with
      | none => endVarSession 4 s
      | some c =>
        if ¬ ok then endVarSession 9 s
        else
          let segs := buildSegments s c k.manifest (changeList k.changes)
          bump (endVarSession 1 (varMod x.slot (fun k => builtVar s c segs { k with state := 2 }) s)) oVariantLoadCount

/-- VARIANT_ABORT (R279): a write of any value ends the open session. -/
def doVariantAbort (a : Access) (v : Nat) (s : State) : Nat × State :=
  match gate s a oVariantAbort (natLe 1 v) with
  | 0 => if s.vars.session.isNone then (abVarState, s) else (abOk, endVarSession 10 s)
  | e => (e, s)

/-! ### Slots and pointers (R297 to R302) -/

/-- The object of variant pointer p. -/
def varPtrKey (p : Nat) : Nat := 256 * (0x3068 + p / 128) + 1 + p % 128

/-- A variant pointer in force. -/
def varPtr (s : State) (p : Nat) : Nat := getO s (varPtrKey p)

/-- The slot numbers that variant pointers name, in force, and with `pending` also in pending writes. -/
def varNamed (s : State) (pending : Bool) (v : Nat) : Bool :=
  (s.dict.vals.any (fun e => 0x306801 ≤ e.1 && e.1 ≤ 0x306F80 && e.2 == v))
    || (pending && s.dict.pending.any (fun p => 0x306801 ≤ p.key && p.key ≤ 0x306F80 && leNat p.value == v))

/-- VARIANT_DELETE (R300). -/
def doVariantDelete (a : Access) (v : Nat) (s : State) : Nat × State :=
  match gate s a oVariantDelete (natLe 2 v) with
  | 0 =>
    if 512 ≤ v then (abRange, s)
    else if varNamed s true v then (abVarInUse, s)
    else if (varGet s v).state = 1 then (abVarState, s)
    else (abOk, varMod v (fun k => { k with state := 4 }) s)
  | e => (e, s)

/-- The rules of a variant pointer write (R298). -/
def varPtrRule (s : State) (p v : Nat) : Nat :=
  if v = 0xFFFF then abOk
  else if 512 ≤ v then abRange
  else if (varGet s v).state ≠ 2 then abVarState
  else
    let cur := varPtr s p
    if cur = 0xFFFF then abOk
    else
      let old := (varGet s cur).manifest
      let new := (varGet s v).manifest
      if mName old ≠ mName new ∨ mGeneration new ≤ mGeneration old then abVarMismatch else abOk

/-- VARIANT_POINTER (R298). -/
def doVariantPointer (a : Access) (p v : Nat) (s : State) : Nat × State :=
  if 1024 ≤ p then (abSubindex, s)
  else match gate s a (varPtrKey p) (natLe 2 v) with
    | 0 => match varPtrRule s p v with
      | 0 => makePending a (varPtrKey p) (natLe 2 v) s
      | e => (e, s)
    | e => (e, s)

/-- A POINTER_SWITCH entry (R302): kind 0 cast, 1 variant. -/
def switchEntry (kind p old new : Nat) : Bytes :=
  entry 0x0A (natLe 1 kind ++ [0] ++ natLe 2 p ++ natLe 2 old ++ natLe 2 new)

/-- Switch a variant pointer: a READY slot that no pointer names any more becomes RETIRING (R298). -/
def switchVarPtr (p v : Nat) (s : State) : State :=
  let old := varPtr s p
  if old = v then s
  else
    let s := addEntry (switchEntry 1 p old v) (setO s (varPtrKey p) v)
    if old ≠ 0xFFFF ∧ (varGet s old).state = 2 ∧ ¬ varNamed s false old then
      varMod old (fun k => { k with state := 3 }) s else s

/-- RETIRING and DELETING slots without pins become FREE (R300; step 2 of R41). -/
def freeVars (s : State) : State :=
  (s.vars.slots.filter (fun e => (e.2.state == 3 || e.2.state == 4) && e.2.pins == 0)).foldl (fun s e => freeVar e.1 s) s

/-- VARIANT_REBUILD_COMPLETE (R319): the segments are built again from the change-list copy. -/
def doVariantRebuild (v : Nat) (s : State) : State :=
  let k := varGet s v
  if ¬ k.rebuilding then s
  else match castByRoot s (mRoot k.manifest) with
    | none => s
    | some c => varMod v (fun k => builtVar s c (buildSegments s c k.manifest (changeList k.changes)) { k with
        rebuilding := false }) s

/-! ### The Sieves (R287 to R296) -/

/-- A Sieve. -/
def sieveGet (s : State) (n : Nat) : SieveSt := sget {} s.vars.sieves n

/-- Change a Sieve. -/
def sieveMod (n : Nat) (f : SieveSt → SieveSt) (s : State) : State :=
  { s with vars := { s.vars with sieves := supd {} s.vars.sieves n f } }

/-- The Dense Sieves that still serve Dense staging, rising (R296, R422). -/
def denseSieves (s : State) : List Nat := s.faults.sieveDense

/-- The Sieve that serves a logical Griddle (R287, R296, R422). -/
def sieveOf (s : State) (g : Nat) : Nat :=
  if 32 ≤ g then nth 0 s.faults.sieveStream (g - 32)
  else
    let l := denseSieves s
    nth 32 l (g % max 1 l.length)

/-- The tile whose weights a Sieve serves: of the Griddle it follows, or of a Dense Griddle staged through it. -/
def sieveTile (s : State) (n : Nat) : Option (Nat × Tile) :=
  s.engine.tiles.find? (fun e => sieveOf s e.1 == n)

/-- A fault of a record: SPARSE_META or TRIT_CODE against the step that the Sieve serves (R57, R285). -/
def sieveFault (code n : Nat) (s : State) : State := match sieveTile s n with
  | some (_, t) => stepFaultReplay code .sieve n t.request t.step 0 s
  | none => s

/-- A Sieve's wait for a table, counted to the present (R289). -/
def tableWait (n : Nat) (s : State) : State := addO s oSieveTableWaitCycles (stallCycles s (sieveGet s n).waitSince)

/-- A Sieve that waits for a table from now on. -/
def tableWaits (n : Nat) (s : State) : State :=
  let now := s.time.now
  sieveMod n (fun k => { k with waitSince := some now }) s

/-- SIEVE_TABLE_BUILD (R289): a table goes into a bank whose reference count is zero; else the load waits. -/
def doSieveTable (n v j at' : Nat) (s : State) : State :=
  match sfind (varGet s v).segments j with
  | none => s
  | some seg =>
    if 36 ≤ n then s
    else if ¬ segTableOk seg then sieveFault 0x0104 n s
    else
      let s := tableWait n (atT at' s)
      let bank : SieveBank := ⟨v, j, byteAt seg 4, headerLens seg, 0⟩
      let free := fun (b : Option SieveBank) => match b with | none => true | some k => k.refs == 0
      let k := sieveGet s n
      if free k.bankA then sieveMod n (fun k => { k with bankA := some bank, waitSince := none }) s
      else if free k.bankB then sieveMod n (fun k => { k with bankB := some bank, waitSince := none }) s
      else tableWaits n s

/-- Whether a bank holds a segment's table. -/
def bankIs (v j gen : Nat) (b : Option SieveBank) : Bool := match b with
  | some k => k.slot == v && k.segment == j && k.gen == gen
  | none => false

/-- Add to or take from the reference count of the bank with a segment's table. -/
def bankRef (v j : Nat) (up : Bool) (b : Option SieveBank) : Option SieveBank := b.map (fun k =>
  if k.slot = v ∧ k.segment = j then { k with refs := if up then k.refs + 1 else k.refs - 1 } else k)

/-- The Merge takes the oldest decoded block of the queue. -/
def mergeOldest (k : SieveSt) : SieveSt := match k.queue with
  | [] => k
  | q :: r => { k with
      queue := r
      bankA := bankRef q.1 q.2.1 false k.bankA
      bankB := bankRef q.1 q.2.1 false k.bankB }

/-- The changes a record makes to a base block, as positions and directions. -/
def dirsOf (base new : List Int) : List (Nat × Bool) :=
  ((base.zip new).zipIdx).filterMap (fun x => if x.1.1 = x.1.2 then none else some (x.2, direction x.1.1 x.1.2))

/-- SIEVE_DECODE (R288, R290, R294): the block's record is decoded into the queue of 512 blocks, whose oldest entry the
Merge takes when it is full; a RAW record bypasses the decoder. A block with no record passes unchanged, and a record whose table
stands in no bank waits for it (R289). -/
def doSieveDecode (n v b at' : Nat) (s : State) : State :=
  let k := varGet s v
  match recordOf k b, castByRoot s (mRoot k.manifest) with
  | .error e, _ => if 36 ≤ n then s else sieveFault (dataCode e) n s
  | .ok (some (seg, p, r)), some c =>
    let j := b / 8192
    let x := sieveGet s n
    if 36 ≤ n then s
    else if r.1.mode = 1 ∧ ¬ bankIs v j (byteAt seg 4) x.bankA ∧ ¬ bankIs v j (byteAt seg 4) x.bankB then
      tableWaits n (tableWait n (atT at' s))
    else
      let base := baseTrits s c b
      match mergeRecord (headerLens seg) (byteAt seg 4) p r base with
      | .error e => sieveFault (dataCode e) n s
      | .ok new =>
        let s := bump s oSieveRecordCount
        let s := if r.1.mode = 2 then bump s oSieveRawBypassCount else addO s oSieveChangeCount r.1.changeCount
        sieveMod n (fun x =>
          let x := if 512 ≤ x.queue.length then mergeOldest x else x
          { x with
            queue := x.queue ++ [(v, j, b, dirsOf base new)]
            bankA := bankRef v j true x.bankA
            bankB := bankRef v j true x.bankB }) s
  | _, _ => s

/-- Flush a Sieve's and Merge's queues (R295). -/
def flushSieve (n : Nat) (s : State) : State :=
  sieveMod n (fun k => { k with
    queue := []
    bankA := k.bankA.map (fun b => { b with refs := 0 })
    bankB := k.bankB.map (fun b => { b with refs := 0 }) }) s

/-! ### The commands -/

/-- VARIANT_LOAD. -/
def execVariantLoad (a : Access) (v : Bytes) (s : State) : Host.Outcome State Fault Refusal :=
  .next (answerWrite (doVariantLoad a v s))

/-- MOULD_PASS_COMPLETE. -/
def execMouldPassComplete (s : State) : Host.Outcome State Fault Refusal := .next (doMouldPass s)

/-- SECOND_PASS_COMPLETE. -/
def execSecondPassComplete (ok : Bool) (s : State) : Host.Outcome State Fault Refusal := .next (doSecondPass ok s)

/-- VARIANT_ABORT. -/
def execVariantAbort (a : Access) (v : Nat) (s : State) : Host.Outcome State Fault Refusal :=
  .next (answerWrite (doVariantAbort a v s))

/-- VARIANT_DELETE. -/
def execVariantDelete (a : Access) (v : Nat) (s : State) : Host.Outcome State Fault Refusal :=
  .next (answerWrite (doVariantDelete a v s))

/-- VARIANT_POINTER. -/
def execVariantPointer (a : Access) (p v : Nat) (s : State) : Host.Outcome State Fault Refusal :=
  .next (answerWrite (doVariantPointer a p v s))

/-- VARIANT_REBUILD_COMPLETE. -/
def execVariantRebuildComplete (v : Nat) (s : State) : Host.Outcome State Fault Refusal := .next (doVariantRebuild v s)

/-- SIEVE_TABLE_BUILD. -/
def execSieveTableBuild (n v : Nat) (j : TimedIndex) (s : State) : Host.Outcome State Fault Refusal :=
  .next (doSieveTable n v j.index j.t s)

/-- SIEVE_DECODE. -/
def execSieveDecode (n v : Nat) (b : TimedIndex) (s : State) : Host.Outcome State Fault Refusal :=
  .next (doSieveDecode n v b.index b.t s)

end Sys2Proof.Machine
end

