-- ==== Sys2Proof/Machine/Pricing.lean ====
section
/-! DEFINITION. Prices of units and passes, the choice of a segment's path, and the placement of a request
(R102, R103, R118, R135 to R149, R155, R197, R201, R211, R220, R365 to R369, R383). -/

namespace Sys2Proof.Machine

open Sys2Proof

/-! ### Formats and predictions (R128, R130, R155) -/

/-- The range tracker of a step. -/
def trackerGet (s : State) (ref : Nat) : Tracker := sget {} s.sched.trackers ref

/-- The format of a step in the tick: the fixed one, or the choice of R130. -/
def stepFmt (s : State) (d : StepD) : Fmt := match d.policy with
  | 0 => .a8
  | 1 => .a4
  | _ => (trackerGet s d.ref).choice

/-- The layer of a gated FFN step: its place among the recipe's gated FFN steps. -/
def gateLayer (rc : RecipeD) (k : Nat) : Nat := ((rc.steps.take k).filter (fun d => d.kind == 1)).length

/-- The predicted neuron blocks of a gated FFN step: the union of its rows' histories, or all (R155, R159). -/
def predictedOf (s : State) (rc : RecipeD) (k : Nat) (d : StepD) (n : Nat) (es : List LenEntry) : List Nat :=
  let off := (sget {} s.sched.gates d.ref : GateSt).off
  let ctxs := ((stepRows rc d es).map (·.ctx)).eraseDups
  let h := ctxs.map (fun c => (kvCtx s c).bind (fun x => sfind x.history (gateLayer rc k)))
  if off ∨ ¬ d.gate ∨ h.any Option.isNone then List.range n
  else natsWhere n (fun i => h.any (fun x => match x with | some l => l.contains i | none => false))

/-! ### Segments and paths (R135 to R149) -/

/-- The three paths of a segment (R135). -/
inductive Path where
  | dense
  | sxd
  | sxs
deriving DecidableEq, Repr

/-- What the headers of one block of a row say: non-zeros, bytes read, positions. -/
structure Head where
  nnz : Nat
  used : Nat
  pos : List Nat
deriving DecidableEq, Repr

/-- Read bytes of a tensor; a tensor with no place reads as not live. -/
def tensorBytes (s : State) (r : Request) (t : TensorD) (ix off n : Nat) : Except UseFault Bytes :=
  match (placeRead .normal (tensorPlace r t ix) off n s).1 with
  | .ok b => .ok b
  | .error f => .error (useMem s f)

/-- The header of a SLOTTED block as pricing reads it: its header burst alone, checked (R70, R149). -/
def headAt (s : State) (rc : RecipeD) (r : Request) (t : TensorD) (ix row blk : Nat) : Except UseFault Head :=
  let f := fmtOf t.format
  match tensorBytes s r t ix (row * t.stride + blk * slotBytes f) 64 with
  | .error e => .error e
  | .ok b => match sbPriced f b with
    | .ok h => .ok ⟨h.nnz, slotUsed f b, h.pos⟩
    | .error e => .error (useData rc t ix e)

/-- The headers of a segment's blocks by row. -/
def segHeads (s : State) (rc : RecipeD) (r : Request) (t : TensorD) (ix : Nat) (rows : List Nat) (b n : Nat) :
    Except UseFault (List (List Head)) :=
  rows.mapM (fun x => (List.range n).mapM (fun k => headAt s rc r t ix x (b + k)))

/-- Bytes of the activation operand that a dense segment reads without headers (R103). -/
def denseAct (f : Fmt) (rows n : Nat) : Nat := rows * n * (match f with | .a4 => 128 | _ => 256)

/-- A segment on a path: its compute cycles, weight bytes and activation bytes, whether a row overflows the match unit,
and whether a sparse path was permitted. -/
structure SegPrice where
  path : Path
  compute : Nat
  weight : Nat
  act : Nat
  rowOver : Bool
  choice : Bool
deriving DecidableEq, Repr

/-- What a fault of a cast's entry list does (R151, R152). -/
def listFault : DataFault → UseFault
  | .burstCrc => .step 0x0102 0
  | _ => .step 0x0104 0

/-- The entry list header of a segment in the cast, checked (R149). -/
def listHead (s : State) (c : Nat) (d : StepD) (tile seg first n : Nat) : Except UseFault ElHeader :=
  match elHeadRead (castAt s c (entryListAt s c d tile seg) 64) (tileCols d.stream) n first with
  | .ok h => .ok h
  | .error e => .error (listFault e)

/-- The changes of a variant in an SxS segment, by its cost table (R286, R292). -/
def costChanges (v : VarSlot) (run : Nat × Nat) : Nat := match v.costs.find? (fun e => e.1 == run) with
  | some e => e.2.2
  | none => 0

/-- What the SxS path of a segment costs: groups, largest row, build time, bytes; none where it is not permitted (R145, R146,
R292). -/
def sxsTerms (s : State) (c : Nat) (v : Option VarSlot) (d : StepD) (tile seg b n : Nat) (hs : List (List Head)) :
    Except UseFault (Option (Nat × Nat × Nat × Nat)) :=
  match listHead s c d tile seg b n with
  | .error e => .error e
  | .ok h =>
    let ch := match v with
      | some v => costChanges v (tileRun d tile b n)
      | none => 0
    let nmax := (hs.map (fun l => sumN (l.map (·.nnz)))).foldl max 0
    .ok (if 256 < nmax ∨ 8192 < ch then none
      else some (h.issueGroups + ch, nmax, matchBuild nmax + ceilDiv ch 4, elBytes h + 384 * n))

/-- The choice of R148 for one segment from its headers, with its build time where it runs SxS. `nextBuild` is the build time of
the next segment where that runs SxS; the tile's first SxS segment pays its own build too (R146). -/
def segChoose (s : State) (c : Nat) (v : Option VarSlot) (d : StepD) (f : Fmt) (rate tile seg b n : Nat) (l : List (List Head))
    (first : Bool) (nextBuild : Nat) : Except UseFault (SegPrice × Nat) :=
  let w := weightBytes d.stream n
  let act := sumN (l.map (fun x => sumN (x.map (·.used))))
  let cost := fun (k w : Nat) => passPrice d.stream k w rate act 240
  let dc := denseCompute f n 1
  let sc := sxdCompute ((List.range n).map (fun k => (l.map (fun x => (nth ⟨0, 0, []⟩ x k).nnz)).foldl max 0))
  let excess := d.sparseMode == 2 && (l.map (fun x => sumN (x.map (·.nnz)))).any (fun m => 256 < m)
  let plain : SegPrice := if cost sc w < cost dc w then ⟨.sxd, sc, w, act, excess, true⟩ else ⟨.dense, dc, w, act, excess, true⟩
  if d.sparseMode ≠ 2 then .ok (plain, 0)
  else match sxsTerms s c v d tile seg b n l with
    | .error e => .error e
    | .ok none => .ok (plain, 0)
    | .ok (some (g, nm, build, bytes)) =>
      let k := max (max g nm) nextBuild + (if first then build else 0)
      .ok (if cost k bytes < min (cost sc w) (cost dc w) then (⟨.sxs, k, bytes, act, excess, true⟩, build) else (plain, 0))

/-- The choices from a segment on: `later` with an SxS segment before it in the tile, whose first is then built already, and
`fresh` without one (R146). -/
structure SegTail where
  later : List SegPrice
  build : Nat
  fresh : List SegPrice

/-- Choices of all segments of a tile from its headers, the last first (R148). -/
def segChoices (s : State) (c : Nat) (v : Option VarSlot) (d : StepD) (f : Fmt) (rate tile : Nat)
    (heads : Nat → Nat → Except UseFault (List (List Head))) : Except UseFault (List SegPrice) :=
  match ((segmentsOf d).zipIdx).foldr (fun (x : (Nat × Nat) × Nat) (acc : Except UseFault SegTail) => do
    let a ← acc
    let l ← heads x.1.1 x.1.2
    let y ← segChoose s c v d f rate tile x.2 x.1.1 x.1.2 l false a.build
    let z ← segChoose s c v d f rate tile x.2 x.1.1 x.1.2 l true a.build
    return ⟨y.1 :: a.later, y.2, z.1 :: (if z.1.path = .sxs then a.later else a.fresh)⟩) (.ok ⟨[], 0, []⟩) with
  | .ok a => .ok a.fresh
  | .error e => .error e

/-- The segments of a tile run dense (R149). -/
def denseSegs (d : StepD) (f : Fmt) (rows : Nat) : List SegPrice :=
  (segmentsOf d).map (fun x => ⟨.dense, denseCompute f x.2 1, weightBytes d.stream x.2, denseAct f rows x.2, false, false⟩)

/-! ### Headers at admission (R149, R367) -/

/-- The headers and entry lists of a request that the Expediter would read. -/
def headerCount (rc : RecipeD) (es : List LenEntry) : Nat :=
  sumN (rc.tensors.map (fun t => if t.storage = 0 ∧ t.slotted then tensorRows t es * t.blocks else 0))
    + sumN (rc.steps.map (fun d => if d.entryList = allOnes64 then 0 else d.colTiles * (segmentsOf d).length))

/-- Whether the segments of a step are priced from headers at admission. -/
def pricedSparse (s : State) (rc : RecipeD) (d : StepD) (es : List LenEntry) : Bool :=
  (costD rc d).sparse && d.sparseMode != 0 && d.kind == 0
    && decide (headerCount rc es ≤ getO s oSparseHeaderLimit)
    && (match tensorAt rc d.row with
      | some t => t.slotted && t.storage == 0 && !producedBy rc d.row
      | none => false)

/-! ### Pass prices (R366, R367) -/

/-- The weight port rate of R102. -/
def weightPort (stream : Bool) : Nat := if stream then 768 else 128

/-- ω_w of a pass: bit-plane and passes not from the cast take the Tile Store port; a CAST pass 128 on DENSE; on STREAM
the share, or 768 for a later row tile under REUSE. -/
def passRate (s : State) (rc : RecipeD) (d : StepD) (p : PassD) (tile : Nat) : Nat :=
  if d.bitPlane ∨ ¬ p.cast then weightPort d.stream
  else if ¬ d.stream then 128
  else if tile ≠ 0 ∧ (costD rc d).reuse then 768 else getO s oStreamIngotShareBpc

/-- planes of R366. -/
def planesOf (d : StepD) : Nat :=
  if d.kind = 2 then 0 else if d.bitPlane then (match d.planeFmt with | .a4 => 4 | _ => 8) else 1

/-- The floor of a pass. -/
def passFloor (p : PassD) (raised : Nat) : Nat := max (if p.save then 480 else 240) raised

/-- The weight bytes of a pass as its port takes them: the Tile Store port runs at 1/κ where a STRIDED Hopper feeds it (R229). -/
def portBytes (rc : RecipeD) (d : StepD) (p : PassD) (w : Nat) : Nat :=
  if d.bitPlane ∨ ¬ p.cast then w * stepKappa rc d 2 (weightPort d.stream / 64) else w

/-- T_p of R366 with given compute, weight bytes and activation bytes. -/
def passCycles (d : StepD) (p : PassD) (compute w rate act raised : Nat) : Nat :=
  max (max compute (if d.kind = 2 then 0 else ceilDiv w rate))
    (max (p.kappa * ceilDiv act (actPort d.stream)) (passFloor p raised)) + (if p.preload then 480 else 0)

/-- T_p of a dense pass over r real rows (R366). -/
def passDense (s : State) (rc : RecipeD) (d : StepD) (f : Fmt) (p : PassD) (tile r raised : Nat) : Nat :=
  passCycles d p (denseCompute f p.blocks (planesOf d)) (portBytes rc d p p.bytes) (passRate s rc d p tile) (denseAct f r p.blocks) raised

/-- The segments that lie in pass i. -/
def passSegs (d : StepD) (i : Nat) (l : List SegPrice) : List SegPrice := if d.resident then l else (l.drop i).take 1

/-- T_p of a pass whose segments were chosen from headers (R367). -/
def passSparse (s : State) (rc : RecipeD) (d : StepD) (p : PassD) (i tile raised : Nat) (l : List SegPrice) : Nat :=
  let mine := passSegs d i l
  let w := if mine.all (fun x => x.path == .dense) then p.bytes else sumN (mine.map (·.weight))
  passCycles d p (sumN (mine.map (·.compute))) (portBytes rc d p w) (passRate s rc d p tile) (sumN (mine.map (·.act))) raised

/-- Rows of a tile: 240 on DENSE and 30 on STREAM. -/
def rowsOf (d : StepD) : Nat := tileRows d.stream

/-- The weight run of pass i of a column tile. -/
def passRun (d : StepD) (tile i : Nat) : Nat × Nat :=
  match (d.passes d.reduce)[i]? with
  | some (b, n) => tileRun d tile b n
  | none => (0, 0)

/-- The Sieve term that the cost table of a variant gives a pass, by its first weight run (R286, R293). -/
def costTerm (v : VarSlot) (runs : List (Nat × Nat)) : Nat := match v.costs.find? (fun e => runs.head? == some e.1) with
  | some e => e.2.1
  | none => 0

/-- A price raised to the Sieve term of the pinned variant (R367). -/
def raiseTerm (v : Option VarSlot) (p : PassD) (runs : List (Nat × Nat)) (t : Nat) : Nat :=
  match v with
  | some v => if p.cast then max t (costTerm v runs) else t
  | none => t

/-- The prices of a COLUMN_GROUP unit's passes, row tile by row tile. -/
def columnPrices (s : State) (r : Request) (rc : RecipeD) (d : StepD) (f : Fmt) (v : Option VarSlot) (u rows : Nat)
    (raised : Nat) : List Nat :=
  let np := (costD rc d).passes
  let sparse := pricedSparse s rc d r.entries
  let ixs := (stepRows rc d r.entries).map (·.ix)
  ((List.range (ceilDiv rows (rowsOf d))).map (fun ti =>
    let real := min (rowsOf d) (rows - rowsOf d * ti)
    let mine := (ixs.drop (rowsOf d * ti)).take (rowsOf d)
    let segs := match tensorAt rc d.row with
      | some t => (match segChoices s r.cast v d f (passRate s rc d (passD rc d 0) ti) u (segHeads s rc r t d.row mine) with
        | .ok l => l
        | .error _ => denseSegs d f real)
      | none => denseSegs d f real
    (List.range np).map (fun i =>
      let p := passD rc d i
      let fl := if ti = 0 ∧ i = 0 then raised else 0
      raiseTerm v p [passRun d u i]
        (if sparse then passSparse s rc d p i ti fl segs else passDense s rc d f p ti real fl)))).flatten

/-- The KV layer a KV_ROW_TILE step reads. -/
def kvLayerOf (rc : RecipeD) (d : StepD) : Nat :=
  match tensorAt rc (if isKv rc d.col then d.col else d.row) with
  | some t => t.layer
  | none => 0

/-- The units of a KV_ROW_TILE step: entry, KV head and row tile (R365). -/
def kvUnits (rc : RecipeD) (d : StepD) (es : List LenEntry) : List (Nat × Nat × Nat) :=
  (((es.zipIdx).filter (fun e => roleIn d.roles e.1.role)).map (fun e =>
    ((List.range rc.kvHeads).map (fun h =>
      (List.range (ceilDiv (e.1.count * (costD rc d).group) (rowsOf d))).map (fun t => (e.2, h, t)))).flatten)).flatten

/-- Pages of a span at admission: table entries of the layer plus the pages the request reserves (R367). -/
def spanPages (s : State) (e : LenEntry) (layer : Nat) (appends : Bool) : Nat := match kvCtx s e.ctx with
  | some c => (nth [] c.tables layer).length + (if appends then pagesNeeded s c layer e.count else 0)
  | none => 0

/-- Whether a recipe appends to a layer. -/
def appendsLayer (rc : RecipeD) (layer : Nat) : Bool := rc.steps.any (fun d => d.outKind == 1 && (match tensorAt rc d.out with
  | some t => t.layer == layer
  | none => false))

/-- The prices of a KV_ROW_TILE unit: its passes for each chunk of its span. -/
def kvPrices (s : State) (r : Request) (rc : RecipeD) (d : StepD) (f : Fmt) (u raised : Nat) : List Nat :=
  match (kvUnits rc d r.entries)[u]? with
  | none => []
  | some (e, _, t) =>
    let en := nth ⟨0, 0, 0, 0, 0⟩ r.entries e
    let real := min (rowsOf d) (en.count * (costD rc d).group - rowsOf d * t)
    let layer := kvLayerOf rc d
    let chunks := ceilDiv (spanPages s en layer (appendsLayer rc layer)) (if d.stream then 32 else 4)
    ((List.range chunks).map (fun k => (List.range (costD rc d).passes).map (fun i =>
      passDense s rc d f (passD rc d i) 0 real (if k = 0 ∧ i = 0 then raised else 0)))).flatten

/-- The prices of a GATED_ROW_TILE unit: the gate over every neuron block, then up and down over those of P (R367). -/
def gatedPrices (s : State) (rc : RecipeD) (d : StepD) (f : Fmt) (v : Option VarSlot) (ps : List Nat) (t rows raised : Nat) :
    List Nat :=
  let real := min (rowsOf d) (rows - rowsOf d * t)
  let one := fun (which nb fl : Nat) =>
    let p := passD rc d which
    raiseTerm v p (gateRuns rc d which nb) (passDense s rc d f p 0 real fl)
  [sumN ((List.range (costD rc d).colTiles).map (fun nb => one 0 nb (if nb = 0 then raised else 0))),
    sumN (ps.map (fun nb => one 1 nb 0)), sumN (ps.map (fun nb => one 2 nb 0))]

/-- The prices of a ROW_TILE unit. -/
def rowPrices (s : State) (rc : RecipeD) (d : StepD) (f : Fmt) (t rows raised : Nat) : List Nat :=
  (List.range (costD rc d).passes).map (fun i =>
    passDense s rc d f (passD rc d i) 0 (min (rowsOf d) (rows - rowsOf d * t)) (if i = 0 then raised else 0))

/-- The number of units of a step (R365); TOKEN_SELECT has none. -/
def unitCount (rc : RecipeD) (d : StepD) (es : List LenEntry) : Nat :=
  let rows := (stepRows rc d es).length
  if rows = 0 ∨ d.kind = 3 then 0
  else match (costD rc d).unitKind with
    | 0 => (costD rc d).colTiles
    | 1 => (kvUnits rc d es).length
    | _ => ceilDiv rows (rowsOf d)

/-- The pass prices of unit u of step k. -/
def unitPrices (s : State) (r : Request) (rc : RecipeD) (k : Nat) (d : StepD) (u raised : Nat) : List Nat :=
  let f := stepFmt s d
  let v := r.var.map (varGet s)
  let rows := (stepRows rc d r.entries).length
  match (costD rc d).unitKind with
  | 0 => columnPrices s r rc d f v u rows raised
  | 1 => kvPrices s r rc d f u raised
  | 2 => gatedPrices s rc d f v (predictedOf s rc k d (costD rc d).colTiles r.entries) u rows raised
  | _ => rowPrices s rc d f u rows raised

/-! ### Placement (R368, R369) -/

/-- A request placed: its units, what each Griddle takes, the longest path, the Dense staging bytes and the Sieve terms of
each Dense Sieve, and the CRC of the placement. -/
structure Plan where
  units : List UnitSt := []
  load : List Nat := List.replicate 64 0
  spans : List Nat := []
  staging : Nat := 0
  sieve : List Nat := List.replicate 36 0
  stuck : Bool := false
deriving DecidableEq, Repr

/-- A unit at its start: its step, number, Griddle, FixedCycles and pass prices. -/
def freshUnit (step unit g fixed : Nat) (prices : List Nat) : UnitSt :=
  ⟨step, unit, g, fixed, prices, 0, .ready, 0, 0, none, 0, 0, none⟩

/-- The logical Griddles of a cluster that are not OUT (R421). -/
def clusterOf (s : State) (stream : Bool) : List Nat :=
  (natsWhere 64 (fun g => decide (32 ≤ g) == stream)).filter (fun g => (physGriddle s g).isSome)

/-- The least loaded of some Griddles, the lowest number on ties. -/
def leastLoaded (load : List Nat) : List Nat → Option Nat
  | [] => none
  | g :: gs => some (gs.foldl (fun b x => if nth 0 load x < nth 0 load b then x else b) g)

/-- Staging bytes of a DENSE column group: the CAST weight bytes of its passes, once (R369). -/
def groupBytes (rc : RecipeD) (d : StepD) : Nat :=
  sumN ((List.range (costD rc d).passes).map (fun i => let p := passD rc d i; if p.cast then p.bytes else 0))

/-- The Sieve terms of a DENSE column group's passes. -/
def groupTerm (rc : RecipeD) (d : StepD) (v : Option VarSlot) (u : Nat) : Nat := match v with
  | some v => sumN ((List.range (costD rc d).passes).map (fun i =>
      if (passD rc d i).cast then costTerm v [passRun d u i] else 0))
  | none => 0

/-- Place one unit on the least loaded Griddle of its cluster; `base` is the load before the request and `mine` holds
the Griddles on which the step already has a unit. -/
def placeUnit (s : State) (r : Request) (rc : RecipeD) (k : Nat) (d : StepD) (base : List Nat)
    (x : Plan × List (Nat × Nat)) (u : Nat) : Plan × List (Nat × Nat) :=
  let pl := x.1
  match leastLoaded ((base.zip pl.load).map (fun y => y.1 + y.2)) (clusterOf s d.stream) with
  | none => ({ pl with stuck := true }, x.2)
  | some g =>
    let first := !x.2.any (fun y => y.1 == g)
    let c := costD rc d
    let ps := unitPrices s r rc k d u (if first then 0 else 240 * c.drainC)
    let fixed := if first then c.fixed else 0
    let cost := fixed + sumN ps
    let unit := freshUnit k u g fixed ps
    let group := !d.stream && c.unitKind == 0
    ({ pl with
        units := pl.units ++ [unit]
        load := updNth pl.load g (· + cost)
        staging := pl.staging + (if group then groupBytes rc d else 0)
        sieve := if group then updNth pl.sieve (sieveOf s g) (· + groupTerm rc d (r.var.map (varGet s)) u) else pl.sieve },
      x.2 ++ [(g, cost)])

/-- Place one step and record its span (R368). -/
def placeStep (s : State) (r : Request) (rc : RecipeD) (base : List Nat) (pl : Plan) (kd : StepD × Nat) : Plan :=
  let d := kd.1
  let x := (List.range (unitCount rc d r.entries)).foldl (placeUnit s r rc kd.2 d base) (pl, [])
  let costs := natsWhere 64 (fun g => x.2.any (fun y => y.1 == g)) |>.map (fun g =>
    sumN ((x.2.filter (fun y => y.1 == g)).map (·.2)))
  let span := if d.kind = 3 then 16 * (stepRows rc d r.entries).length else costs.foldl max 0
  { x.1 with spans := x.1.spans ++ [span] }

/-- The longest path through the dependencies, each step weighed by its span (R368). -/
def chainOf (rc : RecipeD) (spans : List Nat) : Nat :=
  ((rc.steps.zip spans).foldl (fun (acc : List Nat) x =>
    acc ++ [x.2 + ((x.1.deps.filter (· != noIx)).map (fun k => nth 0 acc k)).foldl max 0]) []).foldl max 0

/-- Whether a request runs no step: no entry, or every Count 0 (R15, R214, R351). -/
def idleRun (r : Request) : Bool := r.entries.all (fun e => e.count == 0)

/-- The source pages of a COMPACT request (R220). -/
def compactPagesOf (s : State) (d : Bytes) : Nat := match kvCtx s (dContext d) with
  | some c => sumN ((List.range (dLayers d)).map (fun i => (ownPages c (dFirstLayer d + i)).length))
  | none => 0

/-- The placement of a request over a base load (R368): a RUN's steps, or a COMPACT's one unit on a Stream Griddle at
2,048 cycles per source page (R220). -/
def planOf (s : State) (r : Request) (base : List Nat) : Plan :=
  match dKind r.desc with
  | 0 =>
    if idleRun r then {} else
      let rc := reqRecipe s r
      rc.steps.zipIdx.foldl (placeStep s r rc base) {}
  | 3 =>
    let n := 2048 * compactPagesOf s r.desc
    if n = 0 then {}
    else match leastLoaded base (clusterOf s true) with
      | some g => { units := [freshUnit 0 0 g 0 [n]], load := updNth (List.replicate 64 0) g (· + n), spans := [n] }
      | none => { stuck := true }
  | _ => {}

/-- The chain of a placed request. -/
def planChain (s : State) (r : Request) (p : Plan) : Nat :=
  if dKind r.desc = 0 then chainOf (reqRecipe s r) p.spans else p.spans.foldl max 0

/-- The CRC over the placement's step, unit and Griddle triples (R383). -/
def planCrc (p : Plan) : Nat :=
  (crc16 ((p.units.map (fun u => natLe 2 u.step ++ natLe 4 u.unit ++ natLe 1 u.griddle)).flatten)).toNat

end Sys2Proof.Machine
end

