-- ==== Sys2Proof/Machine/Time.lean ====
section
/-! DEFINITION. The tick grid, its marks and budget, and the time sources (R17 to R40, R557), with the commands of the
sources: edges, Syncs, locks, losses, peer delay. -/

namespace Sys2Proof.Machine

open Sys2Proof

/-! ### The grid (R17 to R19) -/

/-- A grid: period I + N/D, epoch E and base B (R18). -/
structure Grid where
  i : Nat
  n : Nat
  d : Nat
  e : Int
  b : Int
deriving DecidableEq, Repr

/-- T(n) = E + n·I + ⌊n·N/D⌋, for negative n as well (R18). -/
def Grid.t (g : Grid) (n : Int) : Int := g.e + n * g.i + (n * g.n).fdiv (max g.d 1)

/-- The n with T(n) ≤ t < T(n + 1) (R18). -/
def Grid.index (g : Grid) (t : Int) : Int :=
  ((t - g.e + 1) * (max g.d 1 : Nat) - 1).fdiv (g.i * (max g.d 1) + g.n : Nat)

/-- The tick number of index n, modulo 2^64 (R18). -/
def Grid.no (g : Grid) (n : Int) : Nat := ((g.b + n) % (2 : Int) ^ 64).toNat

/-- The provisional grid of start-up (R22). -/
def provisionalGrid : Grid := ⟨16666667, 0, 1, 0, 0⟩

/-- The grid that the stored period, epoch and base give (R18, R22). -/
def storedGrid (s : State) : Grid :=
  ⟨getO s oTickPeriodNs, getO s oTickPeriodFracNum, getO s oTickPeriodFracDen, getO s oTickEpochNs, getO s oTickBaseNo⟩

/-- The grid in force: provisional from PILOT_ROM until the stored grid is placed (R22). -/
def gridNow (s : State) : Grid := if s.time.provisional then provisionalGrid else storedGrid s

/-- Whether a period obeys R17. -/
def periodOk (i n d : Nat) : Bool :=
  1 ≤ d && d ≤ 65535 && n < d && 1000000 * d ≤ i * d + n && i * d + n ≤ 100000000 * d

/-! ### Marks and budget (R34 to R40) -/

/-- The late mark of a tick of length L (R34). -/
def lateMarkNs (l lt : Nat) : Nat := l * lt / 10000

/-- The check mark of a tick of length L (R34). -/
def checkMarkNs (l ck : Nat) : Nat := l * ck / 10000

/-- A < late mark < check mark, and at least 20,000 ns after the check mark (R35). -/
def marksOk (l a lt ck : Nat) : Bool :=
  a < lateMarkNs l lt && lateMarkNs l lt < checkMarkNs l ck && checkMarkNs l ck + 20000 ≤ l

/-- The lengths a tick of period I + N/D takes without correction (R19). -/
def periodLens (i n : Nat) : List Nat := if n = 0 then [i] else [i, i + 1]

/-- The value in force and every pending value of an object. -/
def withPending (s : State) (key : Nat) : List Nat :=
  getO s key :: (s.dict.pending.filter (fun p => p.key == key)).map (fun p => leNat p.value)

/-- The mark rules for a set of tick lengths and of mark settings, in every combination (R21, R35). -/
def marksAllOk (lens as lts cks : List Nat) : Bool :=
  lens.all (fun l => as.all (fun a => lts.all (fun lt => cks.all (fun ck => marksOk l a lt ck))))

/-- The lengths of the period in force and of the pending period (R35). -/
def allLens (s : State) : List Nat :=
  periodLens (getO s oTickPeriodNs) (getO s oTickPeriodFracNum)
    ++ (match s.time.pend with | some (i, n, _) => periodLens i n | none => [])

/-- Whether a pending period keeps the mark rules with every value in force and pending (R21). -/
def periodMarksOk (s : State) (i n : Nat) : Bool :=
  marksAllOk (periodLens i n) (withPending s oTickAdmitNs) (withPending s oTickLateBp) (withPending s oTickCheckBp)

/-- Whether a write of a mark keeps the mark rules (R35): `key` is the mark written and `v` its value. -/
def markWriteOk (s : State) (key v : Nat) : Bool :=
  let vs := fun k => if k = key then [v] else withPending s k
  marksAllOk (allLens s) (vs oTickAdmitNs) (vs oTickLateBp) (vs oTickCheckBp)

/-- The late mark of the tick in progress. -/
def lateMark (s : State) : Nat := lateMarkNs s.time.tickLen (getO s oTickLateBp)

/-- The check mark of the tick in progress. -/
def checkMark (s : State) : Nat := checkMarkNs s.time.tickLen (getO s oTickCheckBp)

/-- The cycle budget B = ⌊(t_check − t_admit)·3/2⌋ of the tick (R39). -/
def budgetCycles (s : State) : Nat := (checkMark s - getO s oTickAdmitNs) * 3 / 2

/-- The admissible cost C = ⌊B·F/10,000⌋ (R39). -/
def admissible (s : State) : Nat := budgetCycles s * getO s oTickAdmitFractionBp / 10000

/-- The admissible cost under the issue limit at the starting boundary (R40). -/
def admissibleLimited (s : State) : Nat := admissible s * s.record.limit / 64

/-! ### SOURCE entries (R557) -/

/-- A SOURCE entry (R557): Cause, old and new state and source, offset, and for REGRID and PLACE the grid in force. -/
def sourceEntry (s : State) (cause oldSt newSt oldAct newAct off : Nat) : Bytes :=
  let g := storedGrid s
  let body := if cause = 0 then zeros 24
    else natLe 4 g.i ++ natLe 2 g.n ++ natLe 2 g.d ++ natLe 8 (ofSigned 64 g.e) ++ natLe 8 (ofSigned 64 g.b)
  entry 0x0F (natLe 1 cause ++ natLe 1 oldSt ++ natLe 1 newSt ++ natLe 1 (oldAct + 16 * newAct) ++ natLe 4 off
    ++ body ++ zeros 8)

/-- Change TickSourceState and TickSourceActive, with a SOURCE entry for any change; a change of state is counted, and FREE runs the
time counter undisciplined (R30, R31, R557). -/
def setSource (st act : Nat) (s : State) : State :=
  let o := getO s oTickSourceState
  let a := getO s oTickSourceActive
  if o = st ∧ a = act then s
  else
    let s := addEntry (sourceEntry s 0 o st a act (offsetNs s)) s
    let s := { s with time := { s.time with
      changes := if o = st then s.time.changes else s.time.changes + 1
      freq := if st = 0 then 0 else s.time.freq } }
    setO (setO s oTickSourceState st) oTickSourceActive act

/-! ### Measurements (R25, R29 to R33) -/

/-- One source's tracking record: 1 PTP, 2 SYNC. -/
def track (s : State) (src : Nat) : SourceTrack := if src = 1 then s.time.ptp else s.time.sync

/-- Change one source's tracking record. -/
def setTrack (src : Nat) (t : SourceTrack) (s : State) : State :=
  if src = 1 then { s with time := { s.time with ptp := t } } else { s with time := { s.time with sync := t } }

/-- Whether the mask enables a source (R23). -/
def sourceEnabled (s : State) (src : Nat) : Bool := bits (getO s oTickSourceMask) (src - 1) 1 == 1

/-- Whether source a is preferred to source b (0 none): PTP before SYNC. -/
def preferred (a b : Nat) : Bool := b == 0 || a < b

/-- A Sync interval of 3,000 ms without a valid Sync (R31). -/
def syncTimeout : Nat := 3000000000

/-- Whether a source has stopped: no valid Sync for 3,000 ms, or three boundaries missed (R31). -/
def sourceStopped (s : State) (src : Nat) : Bool :=
  if src = 1 then decide (s.time.ptp.lastNs + syncTimeout ≤ s.time.now) else decide (3 ≤ s.time.sync.missed)

/-- Whether a source delivers measurements. -/
def delivers (s : State) (src : Nat) : Bool := (track s src).seen && !sourceStopped s src

/-- Whether a source is LOCKED. -/
def sourceLocked (s : State) (src : Nat) : Bool := (track s src).locked && !sourceStopped s src

/-- The source that ACQUIRING works on once `src` has measured: the preferred one of those that deliver. -/
def acquire (src : Nat) (s : State) : State :=
  if getO s oTickSourceState = 2 then s
  else if getO s oTickSourceState = 1 ∧ ¬ preferred src (getO s oTickSourceActive) then s
  else setSource 1 src s

/-- The error of the source in use is corrected: beyond half a period after the first admission it is TICK_SLIP (R33); before
the first admission it is corrected in one step at a boundary, afterwards by the lengths of ticks (R32). The rate that the servo
gives the time counter while PTP is the source is a free value (R25). -/
def correct (src : Nat) (err : Int) (s : State) : State :=
  let near := err.natAbs ≤ getO s oTickLockThresholdNs
  let s := setO s oTickPhaseErrorNs (ofSigned 32 err)
  let s := if src = 1 then
      let y := draw s
      { y.2 with time := { y.2.time with freq := y.1 } }
    else s
  let g := gridNow s
  if s.time.firstAdmit then
    if 2 * err.natAbs * max g.d 1 > g.i * max g.d 1 + g.n then
      let s := raiseFault 0x0134 .none 0 none 0 s
      bump { s with time := { s.time with slipBar := true } } oTickSlipCount
    else { s with time := { s.time with slewLeft := if near then 0 else err } }
  else { s with time := { s.time with stepDue := if near then none else some err } }

/-- A phase measurement from a source (R25, R29, R30): positive when the source's boundary lies later than the device's. Only
the source in use corrects the grid. One measurement of any source in HOLDOVER or FREE gives ACQUIRING (log 76). -/
def measure (src : Nat) (err : Int) (s : State) : State :=
  let k := track s src
  let s := acquire src (setTrack src { k with
    good := if err.natAbs ≤ getO s oTickLockThresholdNs then k.good + 1 else 0
    lastNs := s.time.now
    missed := 0
    seen := true } s)
  if getO s oTickSourceActive = src then correct src err s else s

/-- The function of a SYNC pin in force (R26). -/
def syncFunction (s : State) (pin : Nat) : Nat := getO s (oSyncPinFunction + pin)

/-- The signed distance of an instant from the nearer boundary of the tick in progress. -/
def edgeError (s : State) (t : Nat) : Int :=
  if 2 * t ≤ s.time.tickLen then (t : Int) else (t : Int) - s.time.tickLen

/-- SYNC_TICK_EDGE (R29): an edge within the window of a predicted boundary is a measurement, any other is counted. -/
def doSyncTickEdge (pin t : Nat) (s : State) : State :=
  let s := atT t s
  if pin < 4 ∧ syncFunction s pin = 1 ∧ sourceEnabled s 2 then
    let e := edgeError s t
    if e.natAbs ≤ getO s oTickSyncWindowNs then measure 2 e s
    else bump s oSyncOutOfWindowCount
  else s

/-- SYNC_MISSED (R29): a predicted boundary with no accepted edge is counted. A standby SYNC that misses three in a row is LOCKED no
more (R31). -/
def doSyncMissed (s : State) : State :=
  if (List.range 4).any (fun p => syncFunction s p == 1) then
    let k := s.time.sync
    let out := decide (2 ≤ k.missed) && getO s oTickSourceActive != 2
    bump (setTrack 2 { k with
      missed := k.missed + 1
      good := 0
      locked := k.locked && !out
      seen := k.seen && !out } s) oSyncMissedCount
  else s

/-- A PTP port. -/
def ptpPort (s : State) (port : Nat) : PtpPort := nth {} s.time.ports port

/-- Change a PTP port. -/
def ptpMod (port : Nat) (f : PtpPort → PtpPort) (s : State) : State :=
  { s with time := { s.time with ports := updNth s.time.ports port f } }

/-- The port that is the time source (R24): of those that have heard a Sync within 3,000 ms, the one with the better master;
MG0 where both are alike. -/
def bestPort (s : State) : Nat :=
  let ok := fun p => (ptpPort s p).heard && decide (s.time.now < (ptpPort s p).lastNs + syncTimeout)
  if ok 1 && (!ok 0 || decide ((ptpPort s 1).master < (ptpPort s 0).master)) then 1 else 0

/-- A Sync is complete that came at `rx` of device time with PTP time `ptpTime` at the far end of the link: the ports are
compared, and that of the time source gives a measurement; the other stands by (R24, R25). -/
def ptpMeasure (port master : Nat) (off : Int) (ptpTime rx : Nat) (s : State) : State :=
  let s := ptpMod port (fun _ => { master := master, lastNs := s.time.now, heard := true, waits := none }) s
  let s := { s with time := { s.time with ptpPort := bestPort s } }
  if s.time.ptpPort = port then
    measure 1 off { s with time := { s.time with
      ptpRef := (ptpTime : Int) + (nth 0 s.time.peerDelay port : Nat) - (rx : Int) } }
  else s

/-- PTP_SYNC (R24, R25): a Sync received on MG0 or MG1 while PTP is enabled is one phase measurement; a two-step Sync is
complete with its Follow_Up. -/
def doPtpSync (port : Nat) (form : SyncForm) (master : Nat) (off : Int) (ptpTime t : Nat) (s : State) : State :=
  let s := atT t s
  if port < 2 ∧ sourceEnabled s 1 then
    match form with
    | .oneStep => ptpMeasure port master off ptpTime s.time.now s
    | .twoStep => ptpMod port (fun p => { p with waits := some s.time.now }) s
    | .followUp => match (ptpPort s port).waits with
      | some rx => ptpMeasure port master off ptpTime rx s
      | none => s
  else s

/-- SOURCE_LOCKED (R30, R31): sixteen measurements in a row within the threshold lock a source. A source of higher
preference takes over at the next boundary; the first lock to PTP steps device time at a boundary (R22). -/
def doSourceLocked (src t : Nat) (s : State) : State :=
  let s := atT t s
  let k := track s src
  if (src = 1 ∨ src = 2) ∧ k.good ≥ 16 ∧ ¬ k.locked then
    let s := setTrack src { k with locked := true } s
    let s := { s with time := { s.time with holdoverFrom := none } }
    let s := if src = 1 ∧ ¬ s.time.ptpPlaced then
        { s with time := { s.time with ptpPlaced := true, ptpStepDue := !s.time.firstAdmit } } else s
    if getO s oTickSourceState = 2 then
      if preferred src (getO s oTickSourceActive) then { s with time := { s.time with switchDue := some src } } else s
    else setSource 2 src s
  else s

/-- Whether the source in use has been lost (R31). -/
def sourceLost (s : State) : Bool :=
  let a := getO s oTickSourceActive
  (a == 1 || a == 2) && sourceStopped s a

/-- Whether a holdover that began at `h` has not run out (R31). -/
def holdoverLeft (s : State) : Bool := match s.time.holdoverFrom with
  | some h => decide (s.time.now < h + 1000000 * getO s oTickHoldoverLimitMs)
  | none => false

/-- SOURCE_LOSS (R31): a locked source is lost; a lower one that is LOCKED takes over at once, or HOLDOVER begins. Where the source of
ACQUIRING stops, the other one is acquired if it delivers, and otherwise the state before ACQUIRING returns (log 76). -/
def doSourceLoss (t : Nat) (s : State) : State :=
  let s := atT t s
  let act := getO s oTickSourceActive
  let other := 3 - act
  let st := getO s oTickSourceState
  if (st = 1 ∨ st = 2) ∧ sourceLost s then
    let s := setTrack act { track s act with locked := false, good := 0, seen := false } s
    if st = 2 then
      if act = 1 ∧ sourceLocked s 2 then setSource 2 2 s
      else setSource 3 0 { s with time := { s.time with holdoverFrom := some s.time.now } }
    else if delivers s other then setSource 1 other s
    else setSource (if holdoverLeft s then 3 else 0) 0 s
  else s

/-- HOLDOVER_EXPIRED (R31): TickHoldoverLimitMs in HOLDOVER gives FREE. -/
def doHoldoverExpired (t : Nat) (s : State) : State :=
  let s := atT t s
  match s.time.holdoverFrom with
  | some h =>
    if getO s oTickSourceState = 3 ∧ h + 1000000 * getO s oTickHoldoverLimitMs ≤ s.time.now then
      setSource 0 0 { s with time := { s.time with holdoverFrom := none } }
    else s
  | none => s

/-- PEER_DELAY (R24): a request is answered; a response completes a measurement of the link delay. -/
def doPeerDelay (port : Nat) (request : Bool) (mean : Nat) (s : State) : State :=
  if port < 2 then
    if request then emit (.peerDelayResponse port) s
    else { s with time := { s.time with peerDelay := s.time.peerDelay.set port mean } }
  else s

/-! ### Boundaries (R19, R20, R22, R32) -/

/-- The correction of the next tick's length: at most TickSlewMaxPpm of the period (R32). -/
def slewStep (s : State) : Int :=
  let m : Int := (gridNow s).i * getO s oTickSlewMaxPpm / 1000000
  clamp (-m) m s.time.slewLeft

/-- The phase a tick is in at an offset from its start (R34). -/
def phaseAt (s : State) (off : Nat) : Phase :=
  if off < getO s oTickAdmitNs then .window
  else if off < lateMark s then .planned
  else if off < checkMark s then .late
  else .sealed

/-- Place the grid in one step against device time (R22, R32): the tick in force is the one the grid gives for this
instant, entered where it stands. -/
def placeGrid (s : State) : State :=
  let s := { s with time := { s.time with provisional := false, placeDue := false } }
  let g := storedGrid s
  let n := g.index s.time.now
  let s := { s with time := { s.time with
    tickStart := g.t n
    tickLen := (g.t (n + 1) - g.t n).toNat
    tickNo := g.no n
    slewLeft := 0
    stepDue := none } }
  let ph := phaseAt s (s.time.now - s.time.tickStart).toNat
  { s with time := { s.time with phase := ph, lateEntry := ph == .sealed } }

/-- An instant of device time moved by a step of device time. -/
def moved (d : Int) (t : Nat) : Nat := ((t : Int) + d).toNat

/-- Device time stepped by a signed amount: every instant that the device holds moves with it, so that the spans it measures
stay as they are. -/
def stepTime (d : Int) (s : State) : State :=
  let f := moved d
  { s with
    time := { s.time with
      now := f s.time.now
      ptp := { s.time.ptp with lastNs := f s.time.ptp.lastNs }
      sync := { s.time.sync with lastNs := f s.time.sync.lastNs }
      ports := s.time.ports.map (fun (p : PtpPort) => { p with lastNs := f p.lastNs, waits := p.waits.map f })
      holdoverFrom := s.time.holdoverFrom.map f }
    boot := { s.boot with beganAt := f s.boot.beganAt }
    power := { s.power with episode := s.power.episode.map (·.map f) }
    faults := { s.faults with charges := s.faults.charges.map (fun (c : UnitKind × Nat × Nat) => (c.1, c.2.1, f c.2.2)) }
    dram := { s.dram with chans := smapAll s.dram.chans (fun _ (c : Chan) => { c with retries := c.retries.map f, ues := c.ues.map f }) }
    engine := { s.engine with stores := smapAll s.engine.stores (fun _ (k : TileStore) =>
      { k with errors := k.errors.map (fun (e : Nat × Nat) => (e.1, f e.2)) }) }
    links := { s.links with insts := s.links.insts.map (fun (c : CollInst) => { c with deadline := f c.deadline }) }
    sec := { s.sec with sessions := smapAll s.sec.sessions (fun _ (c : Session) => { c with challengedAt := f c.challengedAt }) }
    mirror := { s.mirror with probeAt := s.mirror.probeAt.map f } }

/-- Start the next tick on the grid in force: its number is one more and its length is fixed (R19, R41 step 5). Its index
on the grid is TickNo − B, which is negative before the epoch (R18). -/
def nextTick (s : State) : State :=
  let g := gridNow s
  let no : Nat := (s.time.tickNo + 1) % 2 ^ 64
  let n : Int := toSigned 64 (ofSigned 64 ((no : Int) - g.b))
  let corr := slewStep s
  { s with time := { s.time with
    tickStart := s.time.tickStart + s.time.tickLen
    now := max s.time.now (nextBoundary s)
    tickNo := no
    tickLen := (g.t (n + 1) - g.t n + corr).toNat
    slewLeft := s.time.slewLeft - corr
    phase := .window
    lateEntry := false } }

/-- Keep the grid in force in NV (R22): a regrid stores the epoch and the base, and the period that they belong to (log 97). -/
def storeGrid (s : State) : State :=
  { s with dict := { s.dict with nvQueue := s.dict.nvQueue ++
    [(oTickPeriodNs, natLe 4 (getO s oTickPeriodNs)), (oTickPeriodFracNum, natLe 2 (getO s oTickPeriodFracNum)),
      (oTickPeriodFracDen, natLe 2 (getO s oTickPeriodFracDen)), (oTickEpochNs, natLe 8 (getO s oTickEpochNs)),
      (oTickBaseNo, natLe 8 (getO s oTickBaseNo))] } }

/-- Apply a regrid due at the tick about to start (R20): E and B are set, and a SOURCE entry is written to its record. -/
def regrid (s : State) : State :=
  let no : Nat := (s.time.tickNo + 1) % 2 ^ 64
  match s.time.pend with
  | some (i, n, d) =>
    if getO s oTickRegridNo = no ∧ no ≠ 0 then
      let s := setO (setO (setO s oTickPeriodNs i) oTickPeriodFracNum n) oTickPeriodFracDen d
      let s := setO (setO s oTickEpochNs (nextBoundary s)) oTickBaseNo no
      let s := storeGrid { s with time := { s.time with pend := none } }
      let st := getO s oTickSourceState
      let a := getO s oTickSourceActive
      recFlag 3 (addEntry (sourceEntry s 1 st st a a 0) s)
    else s
  | none => s

/-- Whether a step of device time or of the grid is due before the first admission (R22, R32). -/
def stepIsDue (s : State) : Bool := !s.time.firstAdmit && !s.time.provisional && (s.time.ptpStepDue || s.time.stepDue.isSome)

/-- Place the grid at this boundary where a placement is due (R22, R32): after stage DICTIONARY, at the first lock to
PTP, or to correct a phase error; once the first request has been admitted nothing is stepped any more (R33). -/
def placeIfDue (s : State) : State :=
  if s.time.placeDue ∨ stepIsDue s then
    let d := if s.time.ptpStepDue then s.time.ptpRef else match s.time.stepDue with | some e => -e | none => 0
    let s := stepTime d { s with time := { s.time with ptpStepDue := false, stepDue := none } }
    let s := placeGrid s
    let st := getO s oTickSourceState
    let a := getO s oTickSourceActive
    addEntry (sourceEntry s 2 st st a a 0) s
  else if s.time.firstAdmit then { s with time := { s.time with ptpStepDue := false, stepDue := none } }
  else s

/-- A higher source that has locked takes over at the boundary (R31). -/
def switchSource (s : State) : State :=
  match s.time.switchDue with
  | some src =>
    let s := { s with time := { s.time with switchDue := none } }
    if sourceLocked s src then setSource 2 src s else s
  | none => s

/-- The pulses of the tick that begins (R26, R28): TICK_OUT at its boundary, PPS_OUT where a whole second of device time lies in
it; each lasts SyncOutPulseNs. -/
def syncPulses (s : State) : State :=
  let len := getO s oSyncOutPulseNs
  let second := 1000000000 * ceilDiv s.time.now 1000000000
  (List.range 4).foldl (fun s p =>
    match syncFunction s p with
    | 2 => emit (.syncPulse p s.time.now len) s
    | 3 => if second < nextBoundary s then emit (.syncPulse p second len) s else s
    | _ => s) s

/-! ### The commands -/

/-- SYNC_TICK_EDGE. -/
def execSyncTickEdge (pin t : Nat) (s : State) : Host.Outcome State Fault Refusal := .next (doSyncTickEdge pin t s)

/-- SYNC_MISSED. -/
def execSyncMissed (s : State) : Host.Outcome State Fault Refusal := .next (doSyncMissed s)

/-- PTP_SYNC. -/
def execPtpSync (port : Nat) (m : SyncMsg) (ptpTime t : Nat) (s : State) : Host.Outcome State Fault Refusal :=
  .next (doPtpSync port m.form m.master m.offsetNs ptpTime t s)

/-- SOURCE_LOCKED. -/
def execSourceLocked (src t : Nat) (s : State) : Host.Outcome State Fault Refusal := .next (doSourceLocked src t s)

/-- SOURCE_LOSS. -/
def execSourceLoss (t : Nat) (s : State) : Host.Outcome State Fault Refusal := .next (doSourceLoss t s)

/-- HOLDOVER_EXPIRED. -/
def execHoldoverExpired (t : Nat) (s : State) : Host.Outcome State Fault Refusal := .next (doHoldoverExpired t s)

/-- PEER_DELAY. -/
def execPeerDelay (port : Nat) (request : Bool) (mean : Nat) (s : State) : Host.Outcome State Fault Refusal :=
  .next (doPeerDelay port request mean s)

end Sys2Proof.Machine
end

