-- ==== Sys2Proof/Machine/Admit.lean ====
section
/-! DEFINITION. Admission: reading the rings, the checks of a request, its price and fit, classes and deficits, and the
taking of an entry (R36, R39, R40, R211 to R214, R342 to R351, R358, R370 to R375, R383, R427 to R429). -/

namespace Sys2Proof.Machine

open Sys2Proof

/-! ### Rings (R342 to R346, R358) -/

/-- Suspend a ring with its cause: 1 RING_FORM, 2 ADDRESS_FAULT, 3 FAULT_LIMIT. -/
def suspendRing (t r cause : Nat) (s : State) : State :=
  bump (ringMod t r (fun x => { x with suspended := true, cause := cause }) s) oRingSuspendCount

/-- Charged faults of a ring within the last 1,024 ticks. -/
def ringFaults (s : State) (t r : Nat) : Nat :=
  ((ringGet s t r).faults.filter (fun x => s.time.tickNo < x + 1024)).length

/-- Whether a ring has reached its fault limit (R358). -/
def ringAtLimit (s : State) (t r : Nat) : Bool := getO s (tkey oRingFaultLimit t) ≤ ringFaults s t r

/-- Whether a ring may be read: enabled, not suspended, not at its fault limit, its tenant not in reset (R358, R359). -/
def ringActive (s : State) (t r : Nat) : Bool :=
  ringEntries s t r != 0 && !(ringGet s t r).suspended && !ringAtLimit s t r && !(tenantGet s t).resetting

/-- The base of a ring. -/
def ringBase (s : State) (t r : Nat) : Nat := getO s (tkey (oSubRingBase + r) t)

/-- Read bytes of tenant memory without an access through the Pantry. -/
def peekTenant (s : State) (n a len : Nat) : Except MemFault Bytes := (tenantRead .normal n a len s).1

/-- Read the header of an active ring once (R36): a ring under a new base or size starts at the header's ConsumerIndex; one
that does not translate is suspended with ADDRESS_FAULT, one whose ProducerIndex runs ahead with RING_FORM (R342, R344). -/
def readRing (t r : Nat) (s : State) : State :=
  if ¬ ringActive s t r then s
  else
    let b := ringBase s t r
    let e := ringEntries s t r
    match (if translates s t b (64 + 64 * e) then (tenantRead .normal t b 64 s) else (.error .notLive, s)) with
    | (.error _, s) => ringFault t r (suspendRing t r 2 s)
    | (.ok h, s) =>
      let x := ringGet s t r
      let consumer := if x.base = b ∧ x.entries = e then x.consumer else fld h 8 4
      let s := ringMod t r (fun x => { x with
        base := b
        entries := e
        producer := fld h 0 4
        consumer := consumer
        wasRead := true
        blocked := false }) s
      if e < (fld h 0 4 + 2 ^ 32 - consumer) % 2 ^ 32 then ringFault t r (suspendRing t r 1 s) else s

/-- The tenants with a ring enabled, rising. -/
def ringTenants (s : State) : List Nat :=
  let on := s.dict.vals.filter (fun e => 0x600000 ≤ e.1 && e.1 < 0x640000 && 5 ≤ e.1 % 256 && e.1 % 256 ≤ 8 && e.2 != 0)
  (on.map (fun e => e.1 / 256 - 0x6000)).eraseDups

/-- Every (tenant, ring) of the tenants with a ring enabled. -/
def allRings (s : State) : List (Nat × Nat) := ((ringTenants s).map (fun t => (List.range 4).map (fun r => (t, r)))).flatten

/-- Whether a ring has an entry that its last read observed. -/
def ringHas (s : State) (t r : Nat) : Bool :=
  let x := ringGet s t r
  ringActive s t r && x.wasRead && x.base == ringBase s t r && x.entries == ringEntries s t r && x.producer != x.consumer

/-- The descriptor at the head of a ring; zeros where it cannot be read. -/
def headDesc (s : State) (t r : Nat) : Bytes :=
  let x := ringGet s t r
  match peekTenant s t (x.base + 64 + 64 * (x.consumer % x.entries)) 64 with
  | .ok b => b
  | .error _ => zeros 64

/-- Write each ring's ConsumerIndex to its header (R345). -/
def publishConsumer (t r : Nat) (s : State) : State :=
  let x := ringGet s t r
  if x.wasRead then tenantWrite .normal t (x.base + 8) (natLe 4 x.consumer) s else s

/-! ### The form of a descriptor (R347, R348; R350, step 1) -/

/-- An address field: bits [63:44] zero and aligned. -/
def addrOk (v align : Nat) : Bool := v < 2 ^ 44 && v % align == 0

/-- Whether the fields that a kind does not use are zero (R348). -/
def unusedZero (d : Bytes) : Bool := match dKind d with
  | 0 => allZero (sub d 50 3) && allZero (sub d 54 2)
  | 1 => !dFollow d && allZero (sub d 24 24) && allZero (sub d 50 3) && allZero (sub d 54 2)
  | 3 => !dFollow d && allZero (sub d 16 32)
  | _ => !dFollow d && allZero (sub d 16 32) && allZero (sub d 52 1) && allZero (sub d 54 2)

/-- Step 1 of R350. -/
def descFormOk (d : Bytes) : Bool :=
  d.length == 64 && (crc16 (d.take 62)).toNat == fld d 62 2
    && dKind d ≤ 4 && bits (byteAt d 1) 4 4 == 0 && byteAt d 5 == 0 && byteAt d 53 == 0 && allZero (sub d 56 6)
    && addrOk (dTable d) 64 && addrOk (dBind d) 64 && addrOk (dTokens d) 16
    && (dClass d == 0 || dDeadline d == 0) && dContext d < 16384
    && (dKind d != 0 || dVarPtr d < 1024 || dVarPtr d == 0xFFFF)
    && unusedZero d

/-! ### Casts and variants of a request (R267, R299; R350, step 2) -/

/-- The cast slot a request's pointer names. -/
def reqCast (s : State) (d : Bytes) : Option Nat :=
  if 64 ≤ dCastPtr d then none
  else
    let c := getO s (oCastPointer + dCastPtr d)
    if c < 64 ∧ ((castGet s c).state = 4 ∨ (castGet s c).state = 5) then some c else none

/-- The variant slot a request's pointer names; none for base weights. -/
def reqVar (s : State) (d : Bytes) : Option Nat :=
  if dVarPtr d = 0xFFFF then none
  else
    let v := varPtr s (dVarPtr d)
    if v < 512 then some v else none

/-- Whether a request of tenant n may pin a manifest that TenantSigned and TenantId are given of. -/
def mayPin (signed : Bool) (owner n : Nat) : Bool := !signed || owner == n

/-- Step 2 of R350: the status that a cast, recipe or variant gives, 0 for none. -/
def castStatus (s : State) (n : Nat) (d : Bytes) : Nat := match reqCast s d with
  | none => 0x0011
  | some c =>
    let m := (castGet s c).manifest
    if ¬ mayPin (bits (mFlags m) 0 1 == 1) (mTenant m) n then 0x0012
    else if mRecipes m ≤ dRecipe d then 0x0013
    else match reqVar s d with
      | none => 0
      | some v =>
        let vm := (varGet s v).manifest
        if mRoot vm ≠ mRoot m then 0x0014
        else if ¬ mayPin (vmTenantSigned vm) (vmTenant vm) n then 0x0015
        else 0

/-! ### Bindings, tables and lengths (R349; R350, steps 3 to 5) -/

/-- The status of a memory fault at admission. -/
def memStatus : MemFault → Nat
  | .notLive => 0x0016
  | .dead _ => 0x0034
  | .lost _ => 0x0033

/-- Read a table of a request: the first byte that does not translate is ADDRESS_FAULT, a table beyond its region
LENGTH_RANGE. -/
def tableRead (s : State) (n a len : Nat) : Except Nat Bytes :=
  if len = 0 then .ok []
  else if (translate s n a).isNone then .error 0x0016
  else if ¬ translates s n a len then .error 0x0017
  else match peekTenant s n a len with
    | .ok b => .ok b
    | .error f => .error (memStatus f)

/-- Step 3 of R350: one binding for each REQUEST tensor and for no other, in form. -/
def bindingsOk (rc : RecipeD) (raw : Bytes) (bs : List Binding) : Bool :=
  (List.range bs.length).all (fun i => allZero (sub raw (32 * i + 2) 6))
    && bs.all (fun b => addrOk b.addr 64 && addrOk b.summary 64 && (match rc.tensors[b.tensor]? with
      | some t => t.storage == 0 && (t.summary || b.summary == 0)
      | none => false))
    && noRepeat (bs.map (·.tensor))
    && (rc.tensors.zipIdx).all (fun x => x.1.storage != 0 || bs.any (fun b => b.tensor == x.2))

/-- Bytes of a summary of so many rows (R72). -/
def summaryBytes (rows : Nat) : Nat := 64 * ceilDiv rows 15

/-- The items of a request besides its tables: address and length, zero where a tensor has no rows. -/
def reqItems (d : Bytes) (rc : RecipeD) (es : List LenEntry) (bs : List Binding) : List (Nat × Nat) :=
  (dTokens d, 16 * dCapacity d) :: (bs.map (fun b => match rc.tensors[b.tensor]? with
    | some t => if tensorRows t es = 0 then [] else
        (b.addr, b.bytes) :: (if t.summary then [(b.summary, summaryBytes (tensorRows t es))] else [])
    | none => [])).flatten

/-- The tokens a request can release (R350). -/
def releasable (rc : RecipeD) (es : List LenEntry) : Nat := match rc.steps[rc.tokenStep]? with
  | none => 0
  | some d =>
    let sel := es.filter (fun e => roleIn d.roles e.role)
    match rc.tokenMode with
    | 0 => 0
    | 1 => (sel.filter (fun e => e.role == 0 && e.count != 0)).length
        + sumN ((sel.filter (fun e => e.role == 2)).map (·.count))
    | _ => sumN ((sel.filter (fun e => e.role != 1)).map (·.count))

/-- Steps 4 and 5 of R350 for the buffers and summaries. -/
def itemStatus (s : State) (n : Nat) (d : Bytes) (rc : RecipeD) (es : List LenEntry) (bs : List Binding) : Nat :=
  let items := (reqItems d rc es bs).filter (fun i => i.2 != 0)
  if items.any (fun i => (translate s n i.1).isNone) then 0x0016
  else if items.any (fun i => !translates s n i.1 i.2) then 0x0017
  else if bs.any (fun b => match rc.tensors[b.tensor]? with
      | some t => b.bytes < tensorRows t es * t.stride
      | none => false) then 0x0017
  else if rc.tensors.any (fun t => t.storage == 1 && t.rowsMode != 0
      && rc.scratch < t.scratchOff + tensorRows t es * t.stride) then 0x0017
  else if dCapacity d < releasable rc es then 0x0017
  else 0

/-! ### Length tables (R213, R214, R184; R350, steps 6 to 8) -/

/-- Reserved bits of a length table are zero. -/
def lenFormOk (n : Nat) (b : Bytes) : Bool := (List.range n).all (fun i => fld b (16 * i + 8) 8 < 16384)

/-- A context of a tenant. -/
def tenantCtx (s : State) (n c : Nat) : Option KvCtx := match kvCtx s c with
  | some x => if x.tenant = n then some x else none
  | none => none

/-- Whether a DRAFT or VERIFY entry has a partner that names it back. -/
def partnered (es : List LenEntry) (e : LenEntry) : Bool :=
  es.any (fun f => f.ctx == e.pair && f.pair == e.ctx && f.role + e.role == 3 && f.role != 0)

/-- The checks of R214, in the order of their codes; 0 for none. -/
def lenStatus (s : State) (n : Nat) (es : List LenEntry) : Nat :=
  let ctx := fun (c : Nat) => tenantCtx s n c
  if es.any (fun e => decide (2 ^ 32 < e.start + e.count)) then 0x0017
  else if es.any (fun e => (ctx e.ctx).isNone || ((e.role == 1 || e.role == 2) && (ctx e.pair).isNone)) then 0x0018
  else if ¬ noRepeat (es.map (·.ctx)) then 0x0019
  else if es.any (fun e => match ctx e.ctx with | some c => c.frozen | none => false) then 0x001A
  else if es.any (fun e => match ctx e.ctx with | some c => c.nextPos != e.start | none => false) then 0x001B
  else if es.any (fun e => match e.role with
      | 0 => e.pair != 0
      | 3 => true
      | _ => !partnered es e) then 0x001C
  else if es.any (fun e => e.role == 2 && (match ctx e.ctx with
      | some c => c.specWidth == 0 || decide (c.specWidth + 1 < e.count)
      | none => false)) then 0x001D
  else 0

/-- Whether a context has the recipe's KV layout (R350, step 7). -/
def layoutOk (rc : RecipeD) (c : KvCtx) : Bool :=
  c.layers == rc.kvLayers && c.heads == rc.kvHeads && c.dim == rc.headDim && (if c.fmt = .a4 then 2 else 1) == rc.kvFormat

/-- Pages a request reserves: for each entry and each layer its recipe appends to (R211). -/
def pageNeed (s : State) (rc : RecipeD) (es : List LenEntry) : List (Nat × Nat × Nat) :=
  (es.map (fun e => match kvCtx s e.ctx with
    | some c => (List.range c.layers).filterMap (fun l =>
        if appendsLayer rc l then some (e.ctx, l, pagesNeeded s c l e.count) else none)
    | none => [])).flatten

/-- Steps 7 and 8 of R350. -/
def kvStatus (s : State) (rc : RecipeD) (es : List LenEntry) : Nat :=
  if bits rc.flags 1 1 = 1 ∧ es.any (fun e => match kvCtx s e.ctx with | some c => !layoutOk rc c | none => false) then 0x001E
  else if (pageNeed s rc es).any (fun x => match kvCtx s x.1 with
      | some c => decide (c.tableEntries < (nth [] c.tables x.2.1).length + x.2.2)
      | none => false) then 0x001F
  else 0

/-! ### The verdict on an entry (R350, R351) -/

/-- What the checks make of an entry: a refusal with its status, or the request with the pages and scratch it needs and
whether R212 holds it. -/
inductive Verdict where
  | refuse (status : Nat)
  | pass (r : Request) (pages scratch : Nat) (busy : Bool)
deriving DecidableEq, Repr

/-- A request as its entry is taken. -/
def baseReq (s : State) (t r ix : Nat) (d : Bytes) : Request :=
  { tenant := t
    ring := r
    index := ix
    desc := d
    kvDesc := []
    cast := 0xFF
    var := none
    entries := []
    bindings := []
    admitTick := s.time.tickNo
    admitSeq := 0
    price := 0
    chain := 0
    tokens := 0
    oversize := false
    planCrc := 0
    scratch := none
    reserved := []
    units := []
    steps := []
    status := 0
    refused := false
    finished := false
    flags := 0
    late := false
    held := false
    replays := 0
    waitSector := []
    fmts := []
    deltas := []
    distress := false
    missed := false
    repinned := false }

/-- The checks of a RUN after step 2. -/
def judgeRun (s : State) (t r ix : Nat) (d : Bytes) (c : Nat) : Verdict :=
  let rc := recipeOf s c (dRecipe d)
  match tableRead s t (dBind d) (32 * dBindings d) with
  | .error e => .refuse e
  | .ok raw =>
    let bs := (List.range (dBindings d)).map (fun i => bindingD (sub raw (32 * i) 32))
    if ¬ bindingsOk rc raw bs then .refuse 0x0010
    else match tableRead s t (dTable d) (16 * dEntries d) with
      | .error e => .refuse (if itemStatus s t d rc [] bs = 0x0016 then 0x0016 else e)
      | .ok tab =>
        let es := lenTable (dEntries d) tab
        let st := [itemStatus s t d rc es bs, if lenFormOk (dEntries d) tab then 0 else 0x0010, lenStatus s t es,
          kvStatus s rc es]
        match st.find? (· != 0) with
        | some e => .refuse e
        | none =>
          .pass { baseReq s t r ix d with cast := c, var := reqVar s d, entries := es, bindings := bs }
            (sumN ((pageNeed s rc es).map (·.2.2))) (scratchNeed rc es) (es.any (fun e => ctxBusy s e.ctx))

/-- The checks of a CONTEXT_CREATE (R209, R348). -/
def judgeCreate (s : State) (t r ix : Nat) (d : Bytes) : Verdict :=
  match tableRead s t (dTable d) 64 with
  | .error e => .refuse e
  | .ok k =>
    if shas s.kv.ctxs (descId k) then .refuse 0x0019
    else if s.sched.reqs.any (fun e => !e.2.refused && dKind e.2.desc == 1 && e.2.entries.any (fun x => x.ctx == descId k))
      then .refuse 0x0019
    else if ¬ ctxFormOk s t k then .refuse 0x0020
    else if ¬ ctxFits s (descCtx t k) then .refuse 0x001F
    else .pass { baseReq s t r ix d with kvDesc := k, entries := [⟨descId k, 0, 0, 0, 0⟩] } 0 0 false

/-- Whether a request runs a step that appends keys or values to a context (R348). -/
def appendsTo (rc : RecipeD) (r : Request) (id : Nat) : Bool :=
  dKind r.desc == 0 && rc.steps.any (fun d => d.outKind == 1
    && r.entries.any (fun e => e.ctx == id && roleIn d.roles e.role && e.count != 0))

/-- The checks of CONTEXT_DELETE, COMPACT and FREEZE (R220, R348). -/
def judgeCtx (s : State) (t r ix : Nat) (d : Bytes) : Verdict :=
  let id := dContext d
  match tenantCtx s t id with
  | none => .refuse 0x0018
  | some c =>
    let naming := s.sched.reqs.filter (fun e => !e.2.refused && (namedCtxs e.2).contains id)
    match dKind d with
    | 2 =>
      if naming.any (fun e => appendsTo (reqRecipe s e.2) e.2 id) ∨ (c.frozen ∧ referenced s id) then .refuse 0x0021
      else .pass (baseReq s t r ix d) 0 0 (!naming.isEmpty)
    | 3 =>
      if c.frozen then .refuse 0x001A
      else if dLayers d ≠ 0 ∧ c.layers < dFirstLayer d + dLayers d then .refuse 0x0017
      else .pass (baseReq s t r ix d) (sumN ((List.range (dLayers d)).map (fun i =>
        ceilDiv (committed s c (dFirstLayer d + i)).length 60))) 0 (!naming.isEmpty)
    | _ => .pass (baseReq s t r ix d) 0 0 (!naming.isEmpty)

/-- The checks of R350 on an entry. -/
def judge (s : State) (t r ix : Nat) (d : Bytes) : Verdict :=
  if ¬ descFormOk d then .refuse 0x0010
  else match dKind d with
    | 0 => match castStatus s t d, reqCast s d with
      | 0, some c => judgeRun s t r ix d c
      | 0, none => .refuse 0x0011
      | e, _ => .refuse e
    | 1 => judgeCreate s t r ix d
    | _ => judgeCtx s t r ix d

/-! ### Price and fit (R351, R368, R369, R373, R374) -/

/-- Steps of a request that are in flight (R376). -/
def stepsOf (r : Request) : Nat := (r.steps.filter (fun x => !x.complete)).length

/-- StepsInFlight. -/
def stepsInFlight (s : State) : Nat :=
  sumN (s.sched.reqs.map (fun e => if e.2.finished then 0 else stepsOf e.2))

/-- The step executions a request starts with: those of a RUN with rows, or one of a COMPACT. -/
def startSteps (s : State) (r : Request) (p : Plan) : List StepSt := match dKind r.desc with
  | 0 =>
    if idleRun r then []
    else
      let rc := reqRecipe s r
      (rc.steps.zipIdx).map (fun x => { ({} : StepSt) with
        predicted := if x.1.kind = 1 then predictedOf s rc x.2 x.1 (costD rc x.1).colTiles r.entries else []
        complete := if x.1.kind = 3 then (stepRows rc x.1 r.entries).isEmpty else !p.units.any (fun u => u.step == x.2) })
  | 3 => if p.units.isEmpty then [] else [{}]
  | _ => []

/-- The price of a placement: the sum of its costs. -/
def planPrice (p : Plan) : Nat := sumN p.load

/-- The lesser limits: the load of each Griddle and the chain against ⌊C·k/64⌋, the staging limits against C. -/
def planFits (s : State) (load : List Nat) (staged : Nat) (sieve : List Nat) (p : Plan) (chain : Nat) : Bool :=
  let cap := admissibleLimited s
  let c := admissible s
  !p.stuck && (load.zip p.load).all (fun x => x.2 == 0 || x.1 + x.2 ≤ cap) && decide (chain ≤ cap)
    && (p.staging == 0 || staged + p.staging ≤ c * (17280 - 32 * getO s oStreamIngotShareBpc))
    && (sieve.zip p.sieve).all (fun x => x.2 == 0 || x.1 + x.2 ≤ c)

/-- Whether a request is oversize: its bare placement breaks a limit (R374). -/
def isOversize (s : State) (r : Request) : Bool :=
  let p := planOf s r (List.replicate 64 0)
  !p.stuck && !planFits s (List.replicate 64 0) 0 (List.replicate 36 0) p (planChain s r p)

/-- Whether the clusters a placement uses are empty of load and carry. -/
def clustersIdle (s : State) (p : Plan) : Bool :=
  let uses := fun (stream : Bool) => p.units.any (fun u => decide (32 ≤ u.griddle) == stream)
  (natsWhere 64 (fun g => uses (decide (32 ≤ g)))).all (fun g => nth 0 s.sched.load g == 0)

/-- The runs of the scratch pool that requests hold, rising. -/
def scratchRuns (s : State) : List (Nat × Nat) :=
  ((s.sched.reqs.filterMap (fun e => e.2.scratch)).map (fun x => (x.1 - regionBase s 12, x.2))).mergeSort (fun a b => a.1 ≤ b.1)

/-- Bytes of the admission image of a request: the ADMIT entry, its tables and the bytes of the tensors it reads (R428). -/
def imageItems (rc : RecipeD) (r : Request) : List (Nat × Nat) :=
  let reads := (rc.steps.map (fun d => [d.row, d.col, d.fusion, d.side0, d.side1, d.mask])).flatten
  (dTable r.desc, 16 * dEntries r.desc) :: (dBind r.desc, 32 * dBindings r.desc)
    :: (r.bindings.filter (fun b => reads.contains b.tensor)).map (fun b => (b.addr, b.bytes))

/-- The length of an admission image. -/
def imageLen (s : State) (r : Request) : Nat :=
  104 + (if dKind r.desc = 0 then sumN ((imageItems (reqRecipe s r) r).map (·.2)) else 0)

/-- Whether the admission image of one more request fits the buddy's input store (R427). -/
def imageFits (s : State) (r : Request) : Bool :=
  getO s oBuddyChipId == 0xFFFF
    || decide (imageLen s r + sumN (s.mirror.imagesHeld.map (fun x => match reqGet s x.1 with
        | some q => imageLen s q
        | none => 0)) ≤ 1048576 * getO s oMirrorInputMiB)

/-- Bytes of a list of entries. -/
def entryBytes (l : List Bytes) : Nat := sumN (l.map List.length)

/-- Bytes of the entries that a request's units could still add to the tick's record (R384, R385): a CARRY entry for each step on each
Griddle, and below LIVE a PAUSE and a RESUME entry for each unit. -/
def unitBytes (d : Bytes) (us : List UnitSt) : Nat :=
  let left := us.filter (fun u => u.phase != .done)
  24 * ((left.map (fun u => (u.step, u.griddle))).eraseDups).length + (if dClass d = 0 then 0 else 64 * left.length)

/-- Bytes that the requests in their slots could still add to the tick's record: those of their units and their COMMIT entries. -/
def owedBytes (s : State) : Nat :=
  sumN (s.sched.reqs.map (fun e => if e.2.refused then 0 else 16 + 16 * e.2.entries.length + unitBytes e.2.desc e.2.units))

/-- Whether the record stays within 512 KiB whatever the requests in their slots and one more add to it (R49). -/
def recordFits (s : State) (r : Request) (p : Plan) : Bool :=
  64 + entryBytes s.record.entries + owedBytes s + 104 + 16 + 16 * r.entries.length + unitBytes r.desc p.units ≤ 524288

/-- Whether the waits of R351 and the limits of R373 other than cost let a request in. -/
def noWait (s : State) (r : Request) (pages scratch : Nat) (busy : Bool) (steps : Nat) (p : Plan) : Bool :=
  !busy && decide (pages ≤ freePages s) && cplRoom s r.tenant
    && decide ((s.sched.reqs.filter (fun e => e.1 < 32768)).length < 32768)
    && (scratch == 0 || (firstGap (1048576 * getO s oScratchPoolMiB) scratch 0 (scratchRuns s)).isSome)
    && stepsInFlight s + steps ≤ 16384
    && recordFits s r p
    && imageFits s r

/-! ### Taking an entry (R345, R350, R383) -/

/-- The ADMIT entry (R383). -/
def admitEntry (i : Nat) (r : Request) : Bytes :=
  entry 0x01 (natLe 2 (i + (if r.oversize then 32768 else 0)) ++ natLe 2 (r.tenant + 1024 * r.ring + 4096 * dClass r.desc)
    ++ natLe 4 r.index ++ natLe 1 r.cast ++ natLe 3 (match r.var with | some v => v | none => 0x3FF)
    ++ natLe 4 r.admitSeq ++ natLe 4 (min r.price 0xFFFFFFFF) ++ natLe 4 r.chain ++ natLe 2 r.planCrc
    ++ natLe 4 r.tokens ++ zeros 2 ++ padTo 64 r.desc)

/-- Take a refused entry: it executes nothing, holds a completion slot and counts against its ring (R350, R358). -/
def takeRefused (t r ix : Nat) (d : Bytes) (status : Nat) (s : State) : State :=
  let q := { baseReq s t r ix d with refused := true, finished := true, status := status }
  let k := sfree s.sched.reqs (s.sched.reqs.length + 1) 32768
  let s := { s with sched := { s.sched with reqs := sput s.sched.reqs k q } }
  let s := bump s oRequestRefusedCount
  let s := if countsFault status then ringFault t r s else s
  ringMod t r (fun x => { x with consumer := (x.consumer + 1) % 2 ^ 32 }) s

/-- Tokens charged to a tenant with a budget (R371). -/
def chargeTokens (s : State) (r : Request) : Nat :=
  if dKind r.desc = 0 ∧ getO s (tkey oTenantTokenBudget r.tenant) ≠ 0xFFFFFFFF then sumN (r.entries.map (·.count)) else 0

/-- TenantTokensLeft: the full budget where no balance is kept. -/
def tokensLeft (s : State) (n : Nat) : Int := (tenantGet s n).tokens.getD (getO s (tkey oTenantTokenBudget n))

/-- Whether a tenant is deferred (R371). -/
def tokenBarred (s : State) (n : Nat) : Bool :=
  getO s (tkey oTenantTokenBudget n) != 0xFFFFFFFF && decide (tokensLeft s n ≤ 0)

/-- Send a request's admission image to the buddy, and hold its number until it is acknowledged (R428, R429). -/
def sendImage (i : Nat) (r : Request) (s : State) : State :=
  let b := mirrorTo s
  if b = 0xFFFF then s
  else
    let bytes := admitEntry i r ++ (if dKind r.desc = 0 then ((imageItems (reqRecipe s r) r).map (fun x =>
      match peekTenant s r.tenant x.1 x.2 with
      | .ok d => d
      | .error _ => [])).flatten else [])
    let fs := cutFrames s opMirrorKv b false bytes
    let q := (flowNext s (flowKey b 1) + fs.length + 2 ^ 32 - 1) % 2 ^ 32
    sendAll fs { s with mirror := { s.mirror with imagesHeld := s.mirror.imagesHeld ++ [(i, q, false)] } }

/-- Whether a request's admission image still waits for the FLOW_ACK that covers it (R429). -/
def imageWaits (s : State) (i : Nat) : Bool := s.mirror.imagesHeld.any (fun x => x.1 == i && !x.2.2)

/-- The frame of a contribution (R400). -/
def reduceFrameOf (s : State) (p : Contribution) (a : Nat) (burst : Bytes) : LinkFrame :=
  { newFrame s opReduce p.chip with
    address := a
    payload := burst
    tag := p.group + 65536 * p.inst
    signal := p.signalAt.isSome
    operand := p.signalAt.getD 0
    lastFrame := p.last }

/-- Send a request's contribution, or keep it back until the buddy holds the request's admission image (R429). -/
def contribute (p : Contribution) (a : Nat) (burst : Bytes) (s : State) : State :=
  if a % 64 ≠ 0 ∨ (reqGet s p.request).isNone then s
  else if imageWaits s p.request then
    { s with mirror := { s.mirror with partsHeld := s.mirror.partsHeld ++ [(p.request, reduceFrameOf s p a burst)] } }
  else flowSend (reduceFrameOf s p a burst) s

/-- Send the contributions whose images the buddy now holds, in their order. -/
def flushParts (s : State) : State :=
  let go := s.mirror.partsHeld.filter (fun x => !imageWaits s x.1)
  sendAll (go.map (·.2)) { s with mirror := { s.mirror with partsHeld := s.mirror.partsHeld.filter (fun x => imageWaits s x.1) } }

/-- Admit a request with its placement (R351, R368, R383): the lowest free slot, its pins, its reservations, its loads,
its charges, the ADMIT entry and the admission image. -/
def takeAdmitted (r : Request) (pages scratch : Nat) (p : Plan) (chain : Nat) (big : Bool) (s : State) : State :=
  let i := sfree s.sched.reqs (s.sched.reqs.length + 1) 0
  let place := if scratch = 0 then none else
    (firstGap (1048576 * getO s oScratchPoolMiB) scratch 0 (scratchRuns s)).map (fun o => (regionBase s 12 + o, scratch))
  let steps := startSteps s r p
  let q := { r with
    admitSeq := s.sched.seq
    price := planPrice p
    chain := chain
    tokens := chargeTokens s r
    oversize := big
    planCrc := planCrc p
    scratch := place
    reserved := takePages s pages
    units := p.units
    steps := steps
    finished := steps.all (·.complete) }
  let bal := tokensLeft s r.tenant - (q.tokens : Int)
  let s := { s with sched := { s.sched with
    reqs := sput s.sched.reqs i q
    seq := s.sched.seq + 1
    load := (s.sched.load.zip p.load).map (fun x => x.1 + x.2)
    staged := s.sched.staged + p.staging
    sieveLoad := (s.sched.sieveLoad.zip p.sieve).map (fun x => x.1 + x.2) } }
  let s := if dKind r.desc = 0 then castMod r.cast (fun c => { c with pins := c.pins + 1 }) s else s
  let s := match r.var with
    | some v => if dKind r.desc = 0 then varMod v (fun k => { k with pins := k.pins + 1 }) s else s
    | none => s
  let s := if q.tokens = 0 then s else tenantMod r.tenant (fun t => { t with tokens := some bal }) s
  let s := ringMod r.tenant r.ring (fun x => { x with consumer := (x.consumer + 1) % 2 ^ 32 }) s
  let s := bump s oAdmitCount
  let s := if big then bump s oOversizeAdmitCount else s
  let s := { s with time := { s.time with firstAdmit := true } }
  sendImage i q (addEntry (admitEntry i q) s)

/-! ### The loop of R375 -/

/-- Whether the Expediter admits in this tick (R23, R33, R50, R425, R426, R430, R433, R467, R534). -/
def admitAllowed (s : State) : Bool :=
  s.sched.serving && alive s && !s.time.slipBar && !s.time.lateEntry
    && !(getO s oTickSourceState == 0 && bits (getO s oTickSourceMask) 2 1 == 0)
    && s.faults.planned.isNone && s.faults.handOver.isNone && getO s oDebugMode != 1
    && (s.boot.chip == .active || s.boot.chip == .idle)
    && s.mirror.snapshotTo.isNone && s.mirror.replaySet.isEmpty

/-- The head of a class in a tenant's rings: the lowest ring that has one and is not blocked. -/
def headOf (s : State) (cls t : Nat) (unblocked : Bool) : Option Nat :=
  (List.range 4).find? (fun r => ringHas s t r && !(unblocked && (ringGet s t r).blocked) && dClass (headDesc s t r) == cls)

/-- Whether a tenant may be visited: a head of the class that is not blocked, and tokens left. -/
def eligible (s : State) (cls t : Nat) : Bool := (headOf s cls t true).isSome && !tokenBarred s t

/-- A tenant's gain in one round of deficit round robin. -/
def drrGain (s : State) (t : Nat) : Nat := getO s (tkey oTenantWeight t) * getO s oDrrQuantumCycles

/-- A tenant's deficit in a class. -/
def deficitOf (s : State) (cls t : Nat) : Nat := nth 0 (tenantGet s t).deficit cls

/-- Set a tenant's deficit in a class. -/
def setDeficit (cls t v : Nat) (s : State) : State :=
  tenantMod t (fun x => { x with deficit := x.deficit.set cls v }) s

/-- The price of the head of a ring; none where it will be refused. -/
def headPrice (s : State) (t r : Nat) : Option Nat :=
  match judge s t r (ringGet s t r).consumer (headDesc s t r) with
  | .refuse _ => none
  | .pass q _ _ _ => some (planPrice (planOf s q s.sched.load))

/-- Block a ring for the rest of the tick's admission. -/
def blockRing (t r : Nat) (s : State) : State := ringMod t r (fun x => { x with blocked := true }) s

/-- What taking a head came to. -/
inductive Took where
  | refused
  | admitted
  | short
  | blocked
deriving DecidableEq, Repr

/-- Take the head of a ring where it is refused, priced within a deficit and fits; otherwise it waits (R350, R375): for a
completion slot (R346), or for lack of fit, which is counted. -/
def takeHead (deficit : Option Nat) (t r ix : Nat) (d : Bytes) (s : State) : Took × Nat × State :=
  if ¬ cplRoom s t then (.blocked, 0, blockRing t r s)
  else match judge s t r ix d with
    | .refuse e => (.refused, 0, takeRefused t r ix d e s)
    | .pass q pages scratch busy =>
      let p := planOf s q s.sched.load
      let chain := planChain s q p
      let price := planPrice p
      if (match deficit with | some x => decide (x < price) | none => false) then (.short, 0, s)
      else
        let big := isOversize s q
        let fit := if big then clustersIdle s p
          else planFits s s.sched.load s.sched.staged s.sched.sieveLoad p chain
        if noWait s q pages scratch busy (startSteps s q p).length p ∧ fit then
          (.admitted, price, takeAdmitted q pages scratch p chain big s)
        else
          let s := if freePages s < pages then bump s oKvPoolDeferCount else s
          (.blocked, 0, bump (blockRing t r s) oAdmitDeferredCount)

/-- A visited tenant admits heads while its deficit lasts. Answers whether it admitted. -/
def visitLoop (cls t : Nat) : Nat → Bool × State → Bool × State
  | 0, x => x
  | n + 1, (any, s) =>
    if ¬ eligible s cls t then (any, s)
    else match headOf s cls t true with
      | none => (any, s)
      | some r =>
        match takeHead (some (deficitOf s cls t)) t r (ringGet s t r).consumer (headDesc s t r) s with
        | (.short, _, s) => (any, s)
        | (.admitted, price, s) => visitLoop cls t n (true, setDeficit cls t (deficitOf s cls t - price) s)
        | (_, _, s) => visitLoop cls t n (any, s)

/-- Entries that stand in all rings. -/
def entriesLeft (s : State) : Nat :=
  sumN ((allRings s).map (fun x =>
    let r := ringGet s x.1 x.2
    if ringHas s x.1 x.2 then (r.producer + 2 ^ 32 - r.consumer) % 2 ^ 32 + 1 else 0))

/-- Tenants in rotation from a class's pointer. -/
def rotation (s : State) (cls : Nat) : List Nat :=
  let ts := ringTenants s
  let p := nth 0 s.sched.ptr cls
  ts.filter (fun t => p ≤ t) ++ ts.filter (fun t => t < p)

/-- Rounds in which no tenant can act, taken in one step (R375). -/
def skipRounds (s : State) (cls : Nat) (ts : List Nat) : Nat :=
  let need := ts.filterMap (fun t => (headOf s cls t true).map (fun r => match headPrice s t r with
    | none => 1
    | some p => max 1 (ceilDiv (p - deficitOf s cls t) (max 1 (drrGain s t)))))
  match need with
  | [] => 0
  | x :: xs => xs.foldl min x - 1

/-- One round over the rotation. Answers the last tenant that admitted. -/
def oneRound (cls fuel : Nat) (ts : List Nat) (x : Option Nat × State) : Option Nat × State :=
  ts.foldl (fun x t =>
    if ¬ eligible x.2 cls t then x
    else
      let s := setDeficit cls t (deficitOf x.2 cls t + drrGain x.2 t) x.2
      let y := visitLoop cls t fuel (false, s)
      (if y.1 then some t else x.1, y.2)) x

/-- The rounds of a class. -/
def classRounds (cls fuel : Nat) : Nat → Option Nat × State → Option Nat × State
  | 0, x => x
  | n + 1, (l, s) =>
    let ts := (rotation s cls).filter (eligible s cls)
    if ts.isEmpty then (l, s)
    else
      let k := skipRounds s cls ts
      let s := ts.foldl (fun s t => setDeficit cls t (deficitOf s cls t + k * drrGain s t) s) s
      classRounds cls fuel n (oneRound cls fuel (rotation s cls) (l, s))

/-- The admission of one class. -/
def admitClass (s : State) (cls : Nat) : State :=
  let s := (s.sched.tenants.map (·.1)).foldl (fun s t =>
    if (headOf s cls t false).isNone then setDeficit cls t 0 s else s) s
  let n := entriesLeft s + 1
  let x := classRounds cls n n (none, s)
  match x.1 with
  | some t => { x.2 with sched := { x.2.sched with ptr := x.2.sched.ptr.set cls ((t + 1) % 1024) } }
  | none => x.2

/-- Counts at the end of the window: tenants deferred, and LIVE heads left waiting. -/
def countLeft (s : State) : State :=
  let heads := (allRings s).filter (fun x => ringHas s x.1 x.2)
  let live := (heads.filter (fun x => dClass (headDesc s x.1 x.2) == 0)).length
  let barred := ((heads.map (·.1)).eraseDups.filter (tokenBarred s)).length
  addO (addO s oLiveWaitTicks live) oBudgetDeferCount barred

/-- Unblock every ring. -/
def clearBlocked (s : State) : State :=
  { s with sched := { s.sched with rings := s.sched.rings.map (fun e => (e.1, { e.2 with blocked := false })) } }

/-- The one read of each active ring's header in a tick (R36). -/
def readRings (s : State) : State :=
  if s.sched.headersRead ∨ ¬ alive s ∨ ¬ (s.boot.chip = .active ∨ s.boot.chip = .idle) then s
  else
    let s := { clearBlocked s with sched := { (clearBlocked s).sched with headersRead := true } }
    (allRings s).foldl (fun s x => readRing x.1 x.2 s) s

/-- The admission of a tick: the rings are read once, and the classes admitted in order (R36, R375). -/
def admitTick (s : State) : State :=
  let s := readRings s
  if ¬ admitAllowed s then s
  else
    let s := countLeft ((List.range 4).foldl admitClass s)
    (allRings s).foldl (fun s x => publishConsumer x.1 x.2 s) s

/-- ADMIT_MARK (R34, R36, R375): the admission window of the tick closes. -/
def doAdmitMark (s : State) : State :=
  if s.time.phase ≠ .window ∨ ¬ s.boot.porstN then s
  else
    let s := atT (getO s oTickAdmitNs) s
    let s := admitTick s
    { s with time := { s.time with phase := .planned } }

/-- An entry of a kind reaching the head of its ring in the admission window: the checks of R350, the waits of R351 and
the fit of R373, without the order that deficits give (R345, R375). -/
def doTake (kind t r ix : Nat) (d : Bytes) (s : State) : State :=
  if s.time.phase ≠ .window ∨ ¬ admitAllowed s ∨ 1024 ≤ t ∨ 4 ≤ r ∨ dKind d ≠ kind then s
  else
    let s := readRings s
    if ¬ ringHas s t r ∨ (ringGet s t r).consumer ≠ ix ∨ (ringGet s t r).blocked ∨ tokenBarred s t then s
    else publishConsumer t r (takeHead none t r ix d s).2.2

/-- RING_SUSPEND (R358): a ring that has reached RingFaultLimit within 1,024 ticks is suspended with FAULT_LIMIT. -/
def doRingSuspend (t r : Nat) (s : State) : State :=
  if t < 1024 ∧ r < 4 ∧ ringAtLimit s t r ∧ ¬ (ringGet s t r).suspended then suspendRing t r 3 s else s

/-- The budget window a tick lies in (R371). -/
def windowOf (s : State) : Nat := s.time.tickNo / max 1 (getO s oBudgetWindowTicks)

/-- BUDGET_WINDOW (R371): at the first boundary of a window, and at that where a new window length takes effect, every tenant's tokens
are refilled, and a negative balance is carried. -/
def doBudgetWindow (s : State) : State :=
  if windowOf s = s.sched.windowStart ∧ getO s oBudgetWindowTicks = s.sched.windowTicks then s
  else { s with sched := { s.sched with
    windowStart := windowOf s
    windowTicks := getO s oBudgetWindowTicks
    tenants := s.sched.tenants.map (fun e => (e.1, { e.2 with tokens := match e.2.tokens with
      | some b => if b < 0 then some (b + getO s (tkey oTenantTokenBudget e.1)) else none
      | none => none })) } }

/-! ### The commands -/

/-- ADMIT_MARK. -/
def execAdmitMark (s : State) : Host.Outcome State Fault Refusal := .next (doAdmitMark s)

/-- RUN. -/
def execRun (t r ix : Nat) (d : Bytes) (s : State) : Host.Outcome State Fault Refusal := .next (doTake 0 t r ix d s)

/-- CONTEXT_CREATE. -/
def execContextCreate (t r ix : Nat) (d : Bytes) (s : State) : Host.Outcome State Fault Refusal :=
  .next (doTake 1 t r ix d s)

/-- CONTEXT_DELETE. -/
def execContextDelete (t r ix : Nat) (d : Bytes) (s : State) : Host.Outcome State Fault Refusal :=
  .next (doTake 2 t r ix d s)

/-- COMPACT. -/
def execCompact (t r ix : Nat) (d : Bytes) (s : State) : Host.Outcome State Fault Refusal := .next (doTake 3 t r ix d s)

/-- FREEZE. -/
def execFreeze (t r ix : Nat) (d : Bytes) (s : State) : Host.Outcome State Fault Refusal := .next (doTake 4 t r ix d s)

/-- RING_SUSPEND. -/
def execRingSuspend (t r : Nat) (s : State) : Host.Outcome State Fault Refusal := .next (doRingSuspend t r s)

/-- BUDGET_WINDOW. -/
def execBudgetWindow (s : State) : Host.Outcome State Fault Refusal := .next (doBudgetWindow s)

end Sys2Proof.Machine
end

