-- ==== Sys2Proof/Machine/Ingot.lean ====
section
/-! DEFINITION. The Ingot Store's commands: casting sessions, pointers and deletion, block reads, patrol, refresh and
repair (R250, R251, R258 to R273). -/

namespace Sys2Proof.Machine

open Sys2Proof

/-! ### Sessions (R258, R263, R264) -/

/-- The key that signs a cast manifest: the vendor's for a FACTORY cast, else R484's signer. -/
def castSigner (s : State) (m : Bytes) : Option Bytes :=
  let digest := sub m 96 32
  if bits (mFlags m) 1 1 = 1 then
    (if keyDigest Config.vendorKey = digest then some Config.vendorKey else none)
  else signerKey s digest (bits (mFlags m) 0 1 == 1) (mTenant m) 1

/-- The lowest free cast slot. -/
def freeCastSlot (s : State) : Option Nat := (List.range 64).find? (fun c => (castGet s c).state == 0)

/-- The logical sectors that a manifest's cast takes: data and digest. -/
def manifestSpan (m : Bytes) : Nat := castSpan { ({} : CastSlot) with manifest := m }

/-- The code of the first check of R258 that a manifest fails, 0 for none. -/
def castOpenCheck (s : State) (m : Bytes) : Nat :=
  if ¬ castFormOk m then 3
  else match castSigner s m with
    | none => 2
    | some k =>
      if ¬ ecdsaVerify k (m.take 960) (sub m 960 64) then 2
      else if (freeCastSlot s).isNone then 5
      else if (findRun s (manifestSpan m)).isNone then 4
      else 0

/-- The abort code of a refused CastOpen (R258, R517). -/
def castAbortCode (code : Nat) : Nat := match code with
  | 2 => abSignature
  | 3 => abCastForm
  | 4 => abCastSpace
  | _ => abCastSlots

/-- CAST_OPEN (R258, R259). -/
def doCastOpen (a : Access) (m : Bytes) (s : State) : Nat × State :=
  match gate s a oCastOpen m with
  | 0 =>
    if m.length ≠ 1024 then (abLength, s)
    else if s.ingot.session.isSome then (abInUse, s)
    else match castOpenCheck s m with
      | 0 => match freeCastSlot s, findRun s (manifestSpan m) with
        | some c, some first =>
          let s := castMod c (fun k => { k with state := 1, manifest := m, first := first }) s
          let s := setO (setO s oCastStagingTail (getO s oCastStagingHead)) oCastProgressSectors 0
          (abOk, { s with ingot := { s.ingot with session := some ⟨c, 0, false⟩ } })
        | _, _ => (abCastSlots, s)
      | e => (castAbortCode e, setO s oCastLastResult e)
  | e => (e, s)

/-- The open session ends with a code: all but CAST_OK free its slot and sectors at once (R264). -/
def endCast (code : Nat) (s : State) : State :=
  match s.ingot.session with
  | none => s
  | some x =>
    let s := setO { s with ingot := { s.ingot with session := none } } oCastLastResult code
    if code = 1 then s else { s with ingot := { s.ingot with casts := sdel s.ingot.casts x.slot } }

/-- CAST_STAGING_HEAD (R259): the head never moves backwards or past the free entries. -/
def doStagingHead (a : Access) (v : Nat) (s : State) : Nat × State :=
  let n := getO s oCastStagingEntries
  let gap := fun (from' : Nat) => (v + 2 ^ 32 - from' % 2 ^ 32) % 2 ^ 32
  match gate s a oCastStagingHead (natLe 4 v) with
  | 0 =>
    if n < gap (getO s oCastStagingTail) ∨ n < gap (getO s oCastStagingHead) then (abRange, s)
    else if s.ingot.session.isNone then (abCastState, s)
    else (abOk, setO s oCastStagingHead (v % 2 ^ 32))
  | e => (e, s)

/-- CastStagingBase: the start of the staging region (R259, R558). -/
def stagingBase (s : State) : Nat := regionBase s 10

/-- The staging entry that CastStagingTail names. -/
def stagingEntry (s : State) : Option Bytes :=
  match (memRead .stream (stagingBase s + 49216 * (getO s oCastStagingTail % max 1 (getO s oCastStagingEntries))) 49216 s).1 with
  | .ok b => some b
  | .error _ => none

/-- Whether a staging entry is the next of its session and well formed (R259). -/
def entryOk (x : CastSession) (b : Bytes) : Bool :=
  byteAt b 49152 == x.slot && allZero (sub b 49153 3) && fld b 49156 4 == x.next && allZero (sub b 49160 54)
    && (crc16 (b.take 49214)).toNat == fld b 49214 2

/-- The content of data sector i as written: blocks beyond BlockCount are zero (R252, R260). -/
def sectorContent (m : Bytes) (i : Nat) (b : Bytes) : Bytes := padTo 49152 (b.take (48 * min 1024 (mBlocks m - 1024 * i)))

/-- Whether every TILES block of a sector holds valid TP5 codes (R57). -/
def tilesOk (m : Bytes) (i : Nat) (c : Bytes) : Bool :=
  (List.range (min 1024 (mBlocks m - 1024 * i))).all (fun k =>
    !inTiles m (1024 * i + k) || (sub c (48 * k) 48).all (fun x => x.toNat < 243))

/-- STAGING_ENTRY_CONSUMED (R259 to R261): the staged sector is checked, programmed and read back, which fails `fails` times. -/
def doStagingEntry (fails : Nat) (s : State) : State :=
  match s.ingot.session with
  | none => s
  | some x =>
    let m := (castGet s x.slot).manifest
    if x.verifying ∨ getO s oCastStagingHead = getO s oCastStagingTail ∨ dataSectors (mBlocks m) ≤ x.next then s
    else match stagingEntry s with
      | none => endCast 6 s
      | some b =>
        if ¬ entryOk x b then endCast 6 s
        else
          let c := sectorContent m x.next b
          if ¬ tilesOk m x.next c then endCast 3 s
          else
            let w := sectorWrite ((castGet s x.slot).first + x.next) c fails s
            if ¬ w.1 then endCast 7 w.2
            else
              let s := castMod x.slot (fun k => { k with leaves := k.leaves ++ [leafOf x.next c] }) w.2
              let s := setO s oCastStagingTail ((getO s oCastStagingTail + 1) % 2 ^ 32)
              let s := setO s oCastProgressSectors (x.next + 1)
              { s with ingot := { s.ingot with session := some { x with next := x.next + 1 } } }

/-- Write the digest sectors of a cast (R255, R260), of which sector i fails its read-back `nth 0 fails i` times; answers whether
every die had the spares it needed. -/
def writeDigest (c : Nat) (fails : List Nat) (s : State) : Bool × State :=
  let k := castGet s c
  let n := dataSectors (mBlocks k.manifest)
  let d := digestBytes k.leaves
  (List.range (digestSectors n)).foldl (fun (x : Bool × State) i =>
    if x.1 then sectorWrite (k.first + n + i) (padTo 49152 (sub d (49152 * i) 49152)) (nth 0 fails i) x.2 else x) (true, s)

/-- CAST_DATA_COMPLETE (R260, R263): the digest sectors are written, how often each fails to read back being free, and the root
formed is compared with MerkleRoot. -/
def doCastDataComplete (s : State) : State :=
  match s.ingot.session with
  | none => s
  | some x =>
    let k := castGet s x.slot
    if x.verifying ∨ x.next ≠ dataSectors (mBlocks k.manifest) then s
    else
      let y := drawMany (digestSectors (dataSectors (mBlocks k.manifest))) s
      let w := writeDigest x.slot y.1 y.2
      if ¬ w.1 then endCast 7 w.2
      else if merkleRoot k.leaves ≠ mRoot k.manifest then endCast 8 w.2
      else
        let s := castMod x.slot (fun k => { k with state := 2 }) w.2
        { s with ingot := { s.ingot with session := some { x with verifying := true } } }

/-- Whether the sectors of a cast read back as the leaves, nodes and root say (R263). -/
def castReadsBack (s : State) (c : Nat) : Bool :=
  let k := castGet s c
  let n := dataSectors (mBlocks k.manifest)
  let d := digestBytes k.leaves
  (List.range n).all (fun i => leafOf i (sectorGet s (k.first + i)) == k.leaves.getD i [])
    && (List.range (digestSectors n)).all (fun i =>
      sectorGet s (k.first + n + i) == padTo 49152 (sub d (49152 * i) 49152))
    && merkleRoot k.leaves == mRoot k.manifest

/-- CAST_VERIFY_COMPLETE (R263): the read-back and the recipe loader's checks end. -/
def doCastVerify (ok : Bool) (s : State) : State :=
  match s.ingot.session with
  | none => s
  | some x =>
    if ¬ x.verifying then s
    else if ¬ (ok && castReadsBack s x.slot) then endCast 9 s
    else if ¬ castRecipesOk s x.slot then endCast 10 s
    else
      let f := bits (mFlags (castGet s x.slot).manifest) 1 1 == 1
      endCast 1 (castMod x.slot (fun k => { k with state := if f then 3 else 4 }) s)

/-- CAST_ABORT (R264). -/
def doCastAbort (a : Access) (v : Nat) (s : State) : Nat × State :=
  match gate s a oCastAbort (natLe 1 v) with
  | 0 => match s.ingot.session with
    | none => (abCastState, s)
    | some x => if x.slot ≠ v then (abRange, s) else (abOk, endCast 11 s)
  | e => (e, s)

/-- CAST_ADOPT (R265): an adoption that verifies under the owner key makes a FACTORY_HELD cast READY. -/
def doCastAdopt (a : Access) (v : Bytes) (s : State) : Nat × State :=
  match gate s a oCastAdopt v with
  | 0 =>
    let c := byteAt v 0
    match s.sec.ownerKey with
    | none => (abSignature, s)
    | some k =>
      if 64 ≤ c ∨ ¬ allZero (sub v 1 31) then (abRange, s)
      else if ¬ ecdsaVerify k (v.take 64) (sub v 64 64) then (abSignature, s)
      else if (castGet s c).state ≠ 3 then (abCastState, s)
      else if sub v 32 32 ≠ mRoot (castGet s c).manifest then (abCastMismatch, s)
      else (abOk, castMod c (fun k => { k with state := if k.damaged = [] then 4 else 5 }) s)
  | e => (e, s)

/-! ### Pointers and deletion (R267, R269) -/

/-- The object of cast pointer p. -/
def castPtrKey (p : Nat) : Nat := oCastPointer + p

/-- The casts that pointers name, in force, and with `pending` also in pending writes. -/
def castsNamed (s : State) (pending : Bool) : List Nat :=
  ((List.range 64).map (fun p => getO s (castPtrKey p)) ++
    (if pending then (s.dict.pending.filter (fun p => p.key / 256 == 0x3043)).map (fun p => leNat p.value) else [])).filter (· < 64)

/-- CAST_DELETE (R269). -/
def doCastDelete (a : Access) (v : Nat) (s : State) : Nat × State :=
  match gate s a oCastDelete (natLe 1 v) with
  | 0 =>
    if 64 ≤ v then (abRange, s)
    else if (castsNamed s true).contains v then (abCastInUse, s)
    else
      let st := (castGet s v).state
      if st < 3 ∨ st = 6 then (abCastState, s) else (abOk, castMod v (fun k => { k with state := 6 }) s)
  | e => (e, s)

/-- The casts whose recipes are resident, but for one (R267). -/
def residentCasts (s : State) (but : Nat) : List Nat :=
  natsWhere 64 (fun c => c != but && (castGet s c).state != 0
    && ((castsNamed s true).contains c || (castGet s c).pins != 0))

/-- The rules of a cast pointer write (R129, R267). -/
def castPtrRule (s : State) (p v : Nat) : Nat :=
  if v = 0xFF then abOk
  else if 64 ≤ v then abRange
  else
    let k := castGet s v
    let cur := getO s (castPtrKey p)
    let old := (castGet s cur).manifest
    let mine := castStepRefs s v
    let others := ((residentCasts s v).map (castStepRefs s)).flatten
    if k.state ≠ 4 then abCastState
    else if cur < 64 ∧ (mName old ≠ mName k.manifest ∨ mGeneration k.manifest ≤ mGeneration old) then abCastMismatch
    else if mine.any (fun r => others.contains r) then abStepRef
    else if 8192 < mine.length + others.length then abTracker
    else abOk

/-- CAST_POINTER (R267). -/
def doCastPointer (a : Access) (p v : Nat) (s : State) : Nat × State :=
  if 64 ≤ p then (abSubindex, s)
  else match gate s a (castPtrKey p) (natLe 1 v) with
    | 0 => match castPtrRule s p v with
      | 0 => makePending a (castPtrKey p) (natLe 1 v) s
      | e => (e, s)
    | e => (e, s)

/-- DELETING slots without pins become FREE, and their sectors are erased (R269; step 2 of R41). -/
def freeCasts (s : State) : State :=
  let s := (s.ingot.casts.filter (fun e => e.2.state == 6 && e.2.pins == 0)).foldl (fun s e => eraseCast e.2 s) s
  { s with ingot := { s.ingot with casts := s.ingot.casts.filter (fun e => !(e.2.state == 6 && e.2.pins == 0)) } }

/-! ### Reads (R250, R251) -/

/-- A block of the Store. -/
def blockAt (s : State) (ibn : Nat) : Bytes := sectorPiece s (ibn / 1024) (48 * (ibn % 1024)) 48

/-- Whether a block of a TILES region holds an invalid TP5 code. -/
def badTrits (s : State) (ibn : Nat) : Bool := match castOfSector s (ibn / 1024) with
  | some (c, rel) => inTiles (castGet s c).manifest (1024 * rel + ibn % 1024) && (blockAt s ibn).any (fun x => 243 ≤ x.toNat)
  | none => false

/-- Count the corrections of a block: past RefreshBits its sector is queued for refresh. -/
def corrected (l bits : Nat) (s : State) : State :=
  if bits = 0 then s
  else
    let s := bump s oIngotCorrectedBlockCount
    if getO s oRefreshBits < bits then queueRefresh l s else s

/-- What the in-die code finds, with more than the 8 bits it can correct uncorrectable (R250). -/
def withinCode : IngotFinding → IngotFinding
  | .corrected b => if b ≤ 8 then .corrected b else .uncorrectable
  | .retried b => if b ≤ 8 then .retried b else .uncorrectable
  | .uncorrectable => .uncorrectable
  | .crcMismatch => .crcMismatch

/-- The in-die correction, the block's CRC, and the TP5 check of a TILES block, in this order (R250, R251); answers the fault
found. -/
def ingotFind (ibn : Nat) (found : IngotFinding) (s : State) : Option Nat × State :=
  let l := ibn / 1024
  let checked := fun (s : State) =>
    if ¬ blockCrcOk s ibn then (some 0x010A, s)
    else if badTrits s ibn then (some 0x0101, s)
    else (none, s)
  match withinCode found with
  | .corrected b => checked (corrected l b s)
  | .retried b => checked (queueRefresh l (corrected l b (bump s oIngotReadRetryCount)))
  | .uncorrectable => (some 0x0109, bump s oIngotReadRetryCount)
  | .crcMismatch => (some 0x010A, s)

/-- INGOT_READ (R250, R251). -/
def doIngotRead (ibn : Nat) (found : IngotFinding) (reader : Option (Nat × Nat)) (at' : Nat) (s : State) : State :=
  if ingotSectors ≤ ibn / 1024 then s
  else
    let x := ingotFind ibn found (modelEnergy (modelUnit 7 (dieOf (ibn / 1024))) 6 1 (atT at' s))
    match x.1 with
    | some code => ingotFault code ibn reader x.2
    | none => x.2

/-! ### Patrol (R270, R271, R468, R540) -/

/-- Whether the Pilot patrols: in every chip state but off, TRIPPED and while the chip wakes or starts. -/
def patrols (s : State) : Bool := s.boot.porstN && s.boot.chip != .tripped && s.boot.chip != .waking

/-- The runs of the casts the patrol reads: READY, DEGRADED and FACTORY_HELD. -/
def patrolRuns (s : State) : List (Nat × Nat) :=
  (s.ingot.casts.filter (fun e => 3 ≤ e.2.state && e.2.state ≤ 5)).map (fun e => (e.2.first, castSpan e.2))

/-- The first sector of a run on a stack, from a sector on. -/
def runOnStack (stack lo : Nat) (r : Nat × Nat) : Option Nat :=
  ((List.range 48).map (· + max lo r.1)).find? (fun l => l % 48 / 4 == stack && l < r.1 + r.2)

/-- The next sector the patrol reads from a position: stack by stack, rising in each. A position is
stack · 4,718,592 + sector. -/
def patrolNext (runs : List (Nat × Nat)) (pos : Nat) : Option Nat :=
  (List.range 12).findSome? (fun stack =>
    if stack < pos / ingotSectors then none
    else (runs.filterMap (runOnStack stack (if stack = pos / ingotSectors then pos % ingotSectors else 0))).min?)

/-- A cold spare powers the VSTACK domain of the stack under patrol and of no other (R468, R539). -/
def powerPatrol (s : State) : State :=
  if s.boot.chip ≠ .coldSpare then s
  else
    let stack := (patrolNext (patrolRuns s) s.ingot.patrolAt).map (fun l => l % 48 / 4)
    { s with power := { s.power with
      domainOn := (s.power.domainOn.zipIdx).map (fun (x : Bool × Nat) =>
        if 29 ≤ x.2 ∧ x.2 ≤ 40 then stack == some (x.2 - 29) else x.1) } }

/-- The end of a cast's sweep: the root of the stored leaves is compared with MerkleRoot. On a mismatch the sectors whose
leaf a peer's leaf contradicts are DAMAGED: which they are is a free value (R271). -/
def sweepEnd (c : Nat) (s : State) : State :=
  let k := castGet s c
  if merkleRoot k.leaves = mRoot k.manifest then castMod c (fun k => { k with patrolOk := true }) s
  else
    let d := draw s
    (natsWhere (dataSectors (mBlocks k.manifest)) (fun i => bits d.1 i 1 == 1)).foldl (fun s i => damage (k.first + i) s)
      (castMod c (fun k => { k with patrolOk := false }) d.2)

/-- What the patrol finds in each block of a sector (R250, R270): `found` are the blocks with errors; the others read clean. -/
def patrolBlocks (l : Nat) (found : List (Nat × IngotFinding)) (s : State) : State :=
  (List.range 1024).foldl (fun s b =>
    let f := match found.find? (fun x => x.1 == b) with
      | some x => x.2
      | none => .corrected 0
    let x := ingotFind (1024 * l + b) f s
    match x.1 with
    | some code => ingotFault code (1024 * l + b) none x.2
    | none => x.2) s

/-- The patrol's checks of a sector: of its 1,024 blocks, and of its leaf against the stored leaf. -/
def patrolSector (l : Nat) (found : List (Nat × IngotFinding)) (s : State) : State :=
  let s := patrolBlocks l found s
  match castOfSector s l with
  | some (c, rel) =>
    let k := castGet s c
    if rel < dataSectors (mBlocks k.manifest) ∧ leafOf rel (sectorGet s l) ≠ k.leaves.getD rel [] then damage l s else s
  | none => s

/-- PATROL: the next sector in the patrol's order is read and checked. -/
def doPatrol (found : List (Nat × IngotFinding)) (at' : Nat) (s : State) : State :=
  if ¬ patrols s then s
  else match patrolNext (patrolRuns s) s.ingot.patrolAt with
    | none => { s with ingot := { s.ingot with patrolAt := 0 } }
    | some l =>
      let pos := l % 48 / 4 * ingotSectors + l + 1
      let s := patrolSector l found (atT at' s)
      let s := match castOfSector s l with
        | some (c, _) =>
          if (patrolNext [((castGet s c).first, castSpan (castGet s c))] pos).isNone then sweepEnd c s else s
        | none => s
      powerPatrol (if (patrolNext (patrolRuns s) pos).isSome then { s with ingot := { s.ingot with patrolAt := pos } }
        else bump { s with ingot := { s.ingot with patrolAt := 0 } } oPatrolSweepCount)

/-! ### Refresh and repair (R261, R272, R273) -/

/-- Whether content is what a cast's leaves, or its stored nodes, say of a sector. -/
def contentOk (s : State) (c rel : Nat) (d : Bytes) : Bool :=
  let k := castGet s c
  let n := dataSectors (mBlocks k.manifest)
  if rel < n then leafOf rel d == k.leaves.getD rel []
  else d == padTo 49152 (sub (digestBytes k.leaves) (49152 * (rel - n)) 49152)

/-- REFRESH (R272): a queued sector's content is written to a spare sector; the remap switches at the next boundary. -/
def doRefresh (l fails : Nat) (s : State) : State :=
  if ¬ s.ingot.refreshQ.contains l then s
  else
    let off := fun (s : State) => { s with ingot := { s.ingot with refreshQ := s.ingot.refreshQ.filter (· != l) } }
    match castOfSector s l with
    | none => off s
    | some (c, rel) =>
      if ¬ contentOk s c rel (sectorGet s l) then damage l (off s)
      else
        let x := spareWrite (dieOf l) (sectorGet s l) fails s
        match x.1 with
        | none => x.2
        | some p => bump { off x.2 with ingot := { (off x.2).ingot with
            remapDue := (off x.2).ingot.remapDue ++ [⟨l, p, false⟩] } } oSectorRefreshCount

/-- Whether a peer's content passes along the authentication path of stored sibling nodes up to the root (R273). -/
def pathOk (s : State) (c rel : Nat) (d : Bytes) : Bool :=
  let k := castGet s c
  contentOk s c rel d && merkleRoot k.leaves == mRoot k.manifest

/-- REPAIR_DATA_ARRIVAL (R273, R468): repairs run once the chip has left its spare state. -/
def doRepairData (l : Nat) (d : Bytes) (fails : Nat) (s : State) : State :=
  match castOfSector s l with
  | none => s
  | some (c, rel) =>
    if isSpare s ∨ ¬ (castGet s c).damaged.any (fun (x : Nat × Nat) => x.1 == l) ∨ s.ingot.remapDue.any (fun x => x.sector == l && x.repair)
      ∨ d.length ≠ 49152 ∨ ¬ pathOk s c rel d then s
    else
      let x := spareWrite (dieOf l) d fails s
      match x.1 with
      | none => x.2
      | some p => bump { x.2 with ingot := { x.2.ingot with
          remapDue := x.2.ingot.remapDue ++ [⟨l, p, true⟩] } } oSectorRepairCount

/-- Give a physical sector back: its content is erased, and it returns to the spare pool unless it is worn (R261, R272). -/
def giveBack (die p : Nat) (s : State) : State :=
  let s := physErase die p s
  dieMod die (fun d =>
    if 10000 ≤ sget 0 d.writes p then { d with retired := d.retired ++ [p] } else { d with returned := d.returned ++ [p] }) s

/-- The peers asked for a sector (R273): the buddy, then the alternate buddy and the ward (log 93). -/
def repairPeers (s : State) : List Nat :=
  ([getO s oBuddyChipId, getO s oBuddyAltChipId, getO s oWardChipId].eraseDups).filter (· != 0xFFFF)

/-- Whether a sector's repair still waits for its data. -/
def wantsData (s : State) (l : Nat) : Bool := !(s.ingot.remapDue.any (fun x => x.sector == l && x.repair))

/-- Every DAMAGED sector, in rising order. -/
def damagedSectors (s : State) : List Nat := ((s.ingot.casts.map (fun e => e.2.damaged.map (·.1))).flatten).mergeSort (· ≤ ·)

/-- Ask the next peer for a DAMAGED sector by a GET of its 48 KiB in Space INGOT (R273, R398), but in a spare state (R468). -/
def askRepair (l : Nat) (s : State) : State :=
  let k := sget (0, false) s.ingot.asks l
  match (repairPeers s)[k.1]? with
  | none => s
  | some chip =>
    if k.2 ∨ ¬ wantsData s l then s
    else
      let s := { s with ingot := { s.ingot with asks := sput s.ingot.asks l (k.1, true) } }
      flowSend { newFrame s opGet chip with space := 2, address := 1024 * l, operand := 49152, tag := 1024 * l } s

/-- The requests for DAMAGED sectors that a boundary sends (log 93). -/
def askRepairs (s : State) : State := if isSpare s then s else (damagedSectors s).foldl (fun s l => askRepair l s) s

/-- A peer answers that it cannot give a sector: the next is asked. -/
def repairDenied (ibn : Nat) (s : State) : State := match sfind s.ingot.asks (ibn / 1024) with
  | some k => { s with ingot := { s.ingot with asks := sput s.ingot.asks (ibn / 1024) (k.1 + 1, false) } }
  | none => s

/-- A repair has switched: the sector is sound, its cast leaves DEGRADED with its last repair, and requests that waited for
it go on (R251, R273). -/
def repaired (l : Nat) (s : State) : State :=
  let s := match castOfSector s l with
    | some (c, _) => castMod c (fun k =>
        let d := k.damaged.filter (fun (x : Nat × Nat) => x.1 != l)
        { k with damaged := d, state := if d = [] ∧ k.state = 5 then 4 else k.state }) s
    | none => s
  let s := { s with ingot := { s.ingot with asks := sdel s.ingot.asks l } }
  { s with sched := { s.sched with reqs := s.sched.reqs.map (fun (e : Nat × Request) =>
    (e.1, { e.2 with waitSector := e.2.waitSector.filter (· != l) })) } }

/-- The boundary's switch of refreshed and repaired sectors (R272, R273). -/
def switchRemaps (s : State) : State :=
  let due := s.ingot.remapDue
  due.foldl (fun s x =>
    let old := physOf s x.sector
    let s := giveBack (dieOf x.sector) old (remapTo x.sector x.phys s)
    if x.repair then repaired x.sector s else s) { s with ingot := { s.ingot with remapDue := [] } }

/-- INGOT_LOST (R273): a sector has stayed DAMAGED for RepairLimitTicks. -/
def doIngotLost (l at' : Nat) (s : State) : State :=
  match castOfSector s l with
  | none => s
  | some (c, _) =>
    if (castGet s c).damaged.any (fun (x : Nat × Nat) => x.1 == l && x.2 + getO s oRepairLimitTicks ≤ s.time.tickNo) then
      raiseFault 0x0132 .nvDie (dieOf l) none (1024 * l) (atT at' s)
    else s

/-! ### The commands -/

/-- CAST_OPEN. -/
def execCastOpen (a : Access) (m : Bytes) (s : State) : Host.Outcome State Fault Refusal :=
  .next (answerWrite (doCastOpen a m s))

/-- CAST_STAGING_HEAD. -/
def execCastStagingHead (a : Access) (v : Nat) (s : State) : Host.Outcome State Fault Refusal :=
  .next (answerWrite (doStagingHead a v s))

/-- STAGING_ENTRY_CONSUMED. -/
def execStagingEntryConsumed (fails : Nat) (s : State) : Host.Outcome State Fault Refusal := .next (doStagingEntry fails s)

/-- CAST_DATA_COMPLETE. -/
def execCastDataComplete (s : State) : Host.Outcome State Fault Refusal := .next (doCastDataComplete s)

/-- CAST_VERIFY_COMPLETE. -/
def execCastVerifyComplete (ok : Bool) (s : State) : Host.Outcome State Fault Refusal := .next (doCastVerify ok s)

/-- CAST_ABORT. -/
def execCastAbort (a : Access) (v : Nat) (s : State) : Host.Outcome State Fault Refusal :=
  .next (answerWrite (doCastAbort a v s))

/-- CAST_ADOPT. -/
def execCastAdopt (a : Access) (v : Bytes) (s : State) : Host.Outcome State Fault Refusal :=
  .next (answerWrite (doCastAdopt a v s))

/-- CAST_DELETE. -/
def execCastDelete (a : Access) (v : Nat) (s : State) : Host.Outcome State Fault Refusal :=
  .next (answerWrite (doCastDelete a v s))

/-- CAST_POINTER. -/
def execCastPointer (a : Access) (p v : Nat) (s : State) : Host.Outcome State Fault Refusal :=
  .next (answerWrite (doCastPointer a p v s))

/-- INGOT_READ. -/
def execIngotRead (ibn : Nat) (found : IngotFinding) (reader : Option (Nat × Nat)) (t : Nat) (s : State) :
    Host.Outcome State Fault Refusal := .next (doIngotRead ibn found reader t s)

/-- PATROL. -/
def execPatrol (found : List (Nat × IngotFinding)) (t : Nat) (s : State) : Host.Outcome State Fault Refusal := .next (doPatrol found t s)

/-- REFRESH. -/
def execRefresh (l fails : Nat) (s : State) : Host.Outcome State Fault Refusal := .next (doRefresh l fails s)

/-- REPAIR_DATA_ARRIVAL. -/
def execRepairDataArrival (l : Nat) (d : RepairData) (s : State) : Host.Outcome State Fault Refusal :=
  .next (doRepairData l d.content d.fails s)

/-- INGOT_LOST. -/
def execIngotLost (l t : Nat) (s : State) : Host.Outcome State Fault Refusal := .next (doIngotLost l t s)

end Sys2Proof.Machine
end

