-- ==== Sys2Proof/Machine/Operands.lean ====
section
/-! DEFINITION. The operands of a tile: its rows and columns, the blocks of its row operand, of its bit-plane operand and of
its weights, and the exponent summaries (R54 to R73, R81, R88, R115, R116, R122, R123, R144, R153, R197 to R199, R205,
R254, R335 to R340, R365). -/

namespace Sys2Proof.Machine

open Sys2Proof

/-! ### The shape of a tile -/

/-- A row of a tile: its row in the row tensor, the first block its reduction reads, the context and position it dithers
with, its place among the step's rows, its row in the output tensor, its first output block, and its length-table entry. -/
structure TRow where
  ix : Nat
  base : Nat
  ctx : Nat
  pos : Nat
  place : Nat
  out : Nat
  outBlk : Nat
  entry : Nat
deriving DecidableEq, Repr

/-- A tile of a unit: its rows, reduction blocks, weight column tile, KV head, first query row, chunk and its pages, and
the output tiles that its final drain writes. -/
structure TileGeo where
  rows : List TRow
  blocks : Nat
  col : Nat
  head : Nat
  first : Nat
  chunk : Nat
  pages : List Nat
  outTiles : Nat
deriving DecidableEq, Repr

/-- The place of a row of the step among the rows of a tensor whose roles the step selects: its own, or row 0 of a FIXED
tensor of one row. -/
def rowPlace (rc : RecipeD) (d : StepD) (es : List LenEntry) (ix place : Nat) : Nat := match tensorAt rc ix with
  | some t => if t.rowsMode = 0 ∧ t.rows = 1 then 0 else ((rowList t d.roles es)[place]?.map (·.ix)).getD place
  | none => place

/-- Pages of a chunk of a span: 4 on DENSE, 32 on STREAM (R367). -/
def chunkPages (stream : Bool) : Nat := if stream then 32 else 4

/-- The pages of a chunk in page-table order (R198). -/
def pagesOf (s : State) (ctx layer : Nat) (stream : Bool) (chunk : Nat) : List Nat := match kvCtx s ctx with
  | some c => (((nth [] c.tables layer).drop (chunkPages stream * chunk)).take (chunkPages stream)).map (·.1)
  | none => []

/-- Whether a step is a score step: its bit-plane operand is the keys (R197). -/
def isScore (rc : RecipeD) (d : StepD) : Bool := match tensorAt rc d.col with
  | some t => t.storage == 2
  | none => false

/-- Whether a step has the values as its row operand, the Vᵀ·Pᵀ form of R197. -/
def isTransposed (rc : RecipeD) (d : StepD) : Bool := match tensorAt rc d.row with
  | some t => t.storage == 3
  | none => false

/-- Output blocks a chunk of a KV step fills: a tile's blocks for weights, one for values. -/
def chunkBlocks (rc : RecipeD) (d : StepD) : Nat := if isScore rc d then tileParts d.stream else 1

/-- Blocks of an attention weight row for one query head. -/
def headBlocks (rc : RecipeD) (ix group : Nat) : Nat := match tensorAt rc ix with
  | some t => t.blocks / max 1 (rc.kvHeads * group)
  | none => 0

/-- The query rows of a KV tile: position by position, the query heads of its KV head (R197). -/
def queryRows (rc : RecipeD) (d : StepD) (es : List LenEntry) (e h t chunk : Nat) : List TRow :=
  let g := max 1 (costD rc d).group
  let en := nth ⟨0, 0, 0, 0, 0⟩ es e
  let rt := if isTransposed rc d then d.col else d.row
  let mine := (((rowList ((tensorAt rc rt).getD (tensorD [])) d.roles es).zipIdx).filter (fun r => r.1.entry == e))
  let r := rowsOf d
  (List.range (min r (en.count * g - r * t))).filterMap (fun i =>
    let x := r * t + i
    (mine[x / g]?).map (fun m =>
      let q := h * g + x % g
      let base := if isScore rc d then q * d.reduce else q * headBlocks rc rt g + chunk * d.reduce
      ⟨m.1.ix, base, m.1.ctx, m.1.pos, m.2, rowPlace rc d es d.out m.2,
        q * d.outBlocks + chunk * chunkBlocks rc d, e⟩))

/-- The rows of a Vᵀ·Pᵀ tile: the dimensions of its KV head. -/
def dimRows (rc : RecipeD) (es : List LenEntry) (u e h chunk chunks : Nat) : List TRow :=
  let en := nth ⟨0, 0, 0, 0, 0⟩ es e
  (List.range rc.headDim).map (fun j => ⟨j, 0, en.ctx, j, h * rc.headDim + j, h * rc.headDim + j, u * chunks + chunk, e⟩)

/-- The number of tiles of a unit: its row tiles, or the chunks of its span. -/
def unitTiles (rc : RecipeD) (d : StepD) (u : UnitSt) : Nat :=
  if (costD rc d).unitKind ≤ 1 then u.prices.length / max 1 (costD rc d).passes else 1

/-- The rows of a step's row tile, with the first output block of column tile `col`. -/
def plainRows (rc : RecipeD) (d : StepD) (es : List LenEntry) (tile col : Nat) : List TRow :=
  ((((stepRows rc d es).zipIdx).drop (rowsOf d * tile)).take (rowsOf d)).map (fun x =>
    ⟨x.1.ix, 0, x.1.ctx, x.1.pos, x.2, rowPlace rc d es d.out x.2, col * tileParts d.stream, x.1.entry⟩)

/-- The shape of tile `tile` of a unit. -/
def tileGeo (s : State) (r : Request) (rc : RecipeD) (d : StepD) (u : UnitSt) (tile : Nat) : TileGeo :=
  match (costD rc d).unitKind with
  | 0 => ⟨plainRows rc d r.entries tile u.unit, d.reduce, u.unit, 0, 0, 0, [], 1⟩
  | 1 => match (kvUnits rc d r.entries)[u.unit]? with
    | some (e, h, t) =>
      let en := nth ⟨0, 0, 0, 0, 0⟩ r.entries e
      let ps := pagesOf s en.ctx (kvLayerOf rc d) d.stream tile
      let rows := if isTransposed rc d then dimRows rc r.entries u.unit e h tile (unitTiles rc d u)
        else queryRows rc d r.entries e h t tile
      ⟨rows, d.reduce, 0, h, rowsOf d * t, tile, ps, 1⟩
    | none => ⟨[], 0, 0, 0, 0, 0, [], 1⟩
  | _ => ⟨plainRows rc d r.entries u.unit 0, d.reduce, 0, 0, 0, 0, [], d.colTiles⟩

/-! ### Blocks of tensors -/

/-- Read a SLOTTED block: its header burst, then only the bursts that its form uses (R66, R67). -/
def slotBlockAt (s : State) (rc : RecipeD) (r : Request) (t : TensorD) (ix off : Nat) : Except UseFault Block := do
  let f := fmtOf t.format
  let h ← tensorBytes s r t ix off 64
  let used := if sbFormOk f (byteAt h 1) ∧ byteAt h 0 ≤ 240 then slotUsed f h else 64
  let b ← tensorBytes s r t ix off used
  match slotRead f b with
  | .ok x => .ok x
  | .error e => .error (useData rc t ix e)

/-- Read one block of an A8 or A4 tensor (R60 to R71); a block past the row's reads as zeros. -/
def tensorBlock (s : State) (rc : RecipeD) (r : Request) (t : TensorD) (ix row blk : Nat) : Except UseFault Block :=
  let f := fmtOf t.format
  if t.blocks ≤ blk then .ok Block.zero
  else if t.slotted then slotBlockAt s rc r t ix (row * t.stride + blk * slotBytes f)
  else match tensorBytes s r t ix (row * t.stride + blk * blockBytes f) (blockBytes f) with
    | .error e => .error e
    | .ok b => match denseRead f b with
      | .ok x => .ok x
      | .error e => .error (useData rc t ix e)

/-- A row's summary entry of a tensor that carries one (R72, R73). -/
def tensorSummary (s : State) (rc : RecipeD) (r : Request) (t : TensorD) (ix row : Nat) : Except UseFault RowSummary :=
  match (placeRead .normal (summaryPlaceOf rc r t ix) (summaryPlace row).1 64 s).1 with
  | .error f => .error (useMem s f)
  | .ok b => match summaryRead b row (tensorRows t r.entries) with
    | .ok x => .ok x
    | .error e => .error (useData rc t ix e)

/-! ### Page operands (R198) -/

/-- Whether positions rise strictly, from above the last of the page before (R207). -/
def posRise : Option Nat → List Nat → Bool
  | _, [] => true
  | none, p :: ps => posRise (some p) ps
  | some b, p :: ps => b < p && posRise (some p) ps

/-- Whether a values line of a page does not match its CRC (R202, R207). Lines that the device wrote last match theirs. -/
def lineBad (n : Nat) (p : KvPage) : Bool :=
  !p.laid.isEmpty && (let b := pageBytes n p
    (List.range 1920).any (fun l => fld b (4352 + 2 * l) 2 != lineCrc (sub b (8192 + 64 * l) 64)))

/-- Whether a page's header, as it stands, contradicts R203 or its place (R207). -/
def headerBad (n : Nat) (p : KvPage) : Bool :=
  !p.laid.isEmpty && (let h := sub (pageBytes n p) 0 64
    !crcOk h || fld h 0 4 % 2 ^ 21 != n || 60 < byteAt h 8 || byteAt h 9 != validCount p
      || (byteAt h 7 != 1 && byteAt h 7 != 2))

/-- Whether a reserved byte of a page, or one past the elements or exponents of a written slot, is not zero (R202, R207; log 92). -/
def reservedBad (p : KvPage) : Bool :=
  p.laid.any (fun e => e.1 == 319 || (440 ≤ e.1 && e.1 < 512) || (3456 ≤ e.1 && e.1 < 4352)
    || ((e.1 < 4352 || 8192 ≤ e.1) && (List.range p.slots.length).any (fun i => ofSlot i e.1)))

/-- Whether the metadata of a page is not what its reader needs (R204, R207): `before` is the last position of the page before it in
the table. -/
def metaBad (n : Nat) (p : KvPage) (id : Nat) (c : KvCtx) (layer : Nat) (before : Option Nat) : Bool :=
  headerBad n p || (p.ctx != id && c.prefixOf != some p.ctx) || p.layer != layer || p.fmt != c.fmt || p.heads != c.heads
    || p.dim != c.dim || p.slots.any (·.st == 2) || !posRise before (p.slots.map (·.pos)) || reservedBad p

/-- The fault of staging a page (R207, R311): of its memory, of its lines, of its metadata. -/
def pageFault (s : State) (id : Nat) (c : KvCtx) (layer : Nat) (before : Option Nat) (n : Nat) : Option UseFault :=
  let a := (s.dram.kvBase + (n - 1) * 131072) / 64
  match s.dram.marks.find? (fun m => a ≤ m.1 && m.1 < a + 2048) with
  | some m => match m.2 with
    | .dead => some (.status 0x0034)
    | .lost => some (useMem s (.lost m.1))
  | none => match pageGet s n with
    | some p =>
      if lineBad n p then some (.step 0x0102 n)
      else if metaBad n p id c layer before then some (.step 0x0107 n)
      else none
    | none => some (.step 0x0107 n)

/-- The last position of a page. -/
def lastPos (s : State) (n : Nat) : Option Nat := (pageGet s n).bind (fun p => p.slots.getLast?.map (·.pos))

/-- A group of a page operand; a group whose values are all zero has exponent 0. -/
def pageGroup (l : List Int) (e : Int) : List Int × Int :=
  let v := (l ++ List.replicate (60 - l.length) 0).take 60
  (v, if v.all (· == 0) then 0 else e)

/-- A block from its four groups. -/
def groupsBlock (gs : List (List Int × Int)) : Block := ⟨(gs.map (·.1)).flatten, gs.map (·.2)⟩

/-- The keys of one position for a head: the block of dimensions 240·b up. -/
def keyBlock (s : State) (page slot head b : Nat) : Block := match pageGet s page with
  | none => Block.zero
  | some p => match p.slots[slot]? with
    | none => Block.zero
    | some k =>
      if k.st = 0 then Block.zero
      else
        let mine := (k.k.drop (head * p.dim)).take p.dim
        groupsBlock ((List.range 4).map (fun g => pageGroup ((mine.drop (60 * (4 * b + g))).take 60)
          (nth 0 k.kExp (head * dimGroups p.dim + 4 * b + g))))

/-- The values of one head dimension over a chunk: the block of positions 240·b up of the span. -/
def valueBlock (s : State) (pages : List Nat) (head j b : Nat) : Block :=
  groupsBlock ((List.range 4).map (fun g => match pages[4 * b + g]?.bind (pageGet s) with
    | none => pageGroup [] 0
    | some p => pageGroup (p.slots.map (fun k => if k.st = 0 then 0 else nth 0 k.v (head * p.dim + j)))
        (nth 0 p.vExp (head * p.dim + j))))

/-! ### The row operand -/

/-- Block b of a tile row's reduction, with the check against its summary (R73). -/
def rowOperand (s : State) (r : Request) (rc : RecipeD) (d : StepD) (g : TileGeo) (t : TRow) (sum : Option RowSummary)
    (b : Nat) : Except UseFault Block :=
  if isTransposed rc d then .ok (valueBlock s g.pages g.head t.ix b)
  else match tensorAt rc d.row with
    | none => .ok Block.zero
    | some ten => match tensorBlock s rc r ten d.row t.ix (t.base + b) with
      | .error e => .error e
      | .ok x => match sum with
        | some m => if summaryAdmits m x then .ok x else .error (useData rc ten d.row .expSummary)
        | none => .ok x

/-- The summary of a tile row: stored, or formed by the loader from the pages (R72, R198). -/
def rowSummaryOf (s : State) (r : Request) (rc : RecipeD) (d : StepD) (g : TileGeo) (t : TRow) :
    Except UseFault (Option RowSummary) :=
  if isTransposed rc d then .ok (some (rowSummary ((List.range g.blocks).map (valueBlock s g.pages g.head t.ix))))
  else match tensorAt rc d.row with
    | some ten => if ten.summary then match tensorSummary s rc r ten d.row t.ix with
        | .ok m => .ok (some m)
        | .error e => .error e
      else .ok none
    | none => .ok none

/-! ### The bit-plane operand (R115, R116) -/

/-- The columns of a bit-plane tile that hold something. -/
def planeCols (r : Request) (rc : RecipeD) (d : StepD) (g : TileGeo) : Nat :=
  let n := tileCols d.stream
  if isScore rc d then min n (60 * g.pages.length)
  else if isTransposed rc d then
    min n ((queryRows rc d r.entries ((g.rows.map (·.entry)).headD 0) g.head (g.first / max 1 (rowsOf d)) g.chunk).length)
  else match tensorAt rc d.col with
    | some t => if t.storage = 3 then min n rc.headDim else min n (tensorRows t r.entries - n * g.col)
    | none => 0

/-- Column n of a bit-plane tile, block b of its reduction. -/
def planeBlock (s : State) (r : Request) (rc : RecipeD) (d : StepD) (g : TileGeo) (n b : Nat) : Except UseFault Block :=
  match tensorAt rc d.col with
  | none => .ok Block.zero
  | some t =>
    if t.storage = 2 then .ok (keyBlock s (nth 0 g.pages (n / 60)) (n % 60) g.head b)
    else if t.storage = 3 then .ok (valueBlock s g.pages g.head n b)
    else if isTransposed rc d then
      match (queryRows rc d r.entries ((g.rows.map (·.entry)).headD 0) g.head (g.first / max 1 (rowsOf d)) g.chunk)[n]? with
      | some q => tensorBlock s rc r t d.col q.ix (q.base + b)
      | none => .ok Block.zero
    else tensorBlock s rc r t d.col (tileCols d.stream * g.col + n) b

/-- The summaries of the columns: stored, or formed from what the loader staged. -/
def planeSummary (s : State) (r : Request) (rc : RecipeD) (d : StepD) (g : TileGeo) (n : Nat) : Except UseFault RowSummary :=
  match tensorAt rc d.col with
  | none => .ok ⟨0, 0, true⟩
  | some t =>
    if t.storage = 2 ∨ t.storage = 3 then
      match (List.range g.blocks).mapM (planeBlock s r rc d g n) with
      | .ok l => .ok (rowSummary l)
      | .error e => .error e
    else if isTransposed rc d then
      match (queryRows rc d r.entries ((g.rows.map (·.entry)).headD 0) g.head (g.first / max 1 (rowsOf d)) g.chunk)[n]? with
      | some q => tensorSummary s rc r t d.col q.ix
      | none => .ok ⟨0, 0, true⟩
    else tensorSummary s rc r t d.col (tileCols d.stream * g.col + n)

/-- f_ref, the least EMin of the tile's columns, and D_col, the largest e_b − f_ref (R116, R117). -/
def planeRef (ms : List RowSummary) : Int × Nat :=
  let f := minI' (ms.map (·.eMin))
  (f, (maxI' (ms.map (·.eMax)) - f).toNat)

/-- Column n of a bit-plane tile, block b, held against its column's summary (R73). -/
def planeChecked (s : State) (r : Request) (rc : RecipeD) (d : StepD) (g : TileGeo) (m : RowSummary) (n b : Nat) :
    Except UseFault Block :=
  match planeBlock s r rc d g n b, tensorAt rc d.col with
  | .error e, _ => .error e
  | .ok x, some t => if summaryAdmits m x then .ok x else .error (useData rc t d.col .expSummary)
  | .ok x, none => .ok x

/-- The columns of block b with their shifts and check columns (R115, R116, R123); `ms` are the columns' summaries. -/
def planeColumns (s : State) (r : Request) (rc : RecipeD) (d : StepD) (g : TileGeo) (ms : List RowSummary) (fref : Int) (b : Nat) :
    Except UseFault ColBlock :=
  let n := tileCols d.stream
  match (ms.zipIdx).mapM (fun m => planeChecked s r rc d g m.1 m.2 b) with
  | .error e => .error e
  | .ok bs =>
    let pad := n - bs.length
    let cols := bs.map (·.elems) ++ List.replicate pad (List.replicate 240 0)
    let sh := planeShifts fref (bs.map (·.exps)) ++ List.replicate pad [0, 0, 0, 0]
    .ok ⟨cols, planeChecks cols sh, sh⟩

/-- The faults of a tile's pages, before any of them is read: each is checked against the page before it in the table. -/
def pagesFault (s : State) (rc : RecipeD) (d : StepD) (g : TileGeo) : Option UseFault :=
  let id := (g.rows.map (·.ctx)).headD 0
  match kvCtx s id with
  | none => none
  | some c =>
    let table := (nth [] c.tables (kvLayerOf rc d)).map (·.1)
    let at' := chunkPages d.stream * g.chunk
    (g.pages.zipIdx).findSome? (fun x =>
      let before := if at' + x.2 = 0 then none else (table[at' + x.2 - 1]?).bind (lastPos s)
      pageFault s id c (kvLayerOf rc d) before x.1)

/-! ### Weights from the cast (R57, R122, R153, R252, R254, R290) -/

/-- One block of a cast, with its IBN, as trits, before and after the Merge with the pinned variant (R57, R80, R251, R290). -/
def castBlock (v : Option VarSlot) (ibn b : Nat) (raw : Bytes) : Except UseFault (List Int × List Int) :=
  match tp5Unpack raw with
  | .error _ => .error (.ingot ibn)
  | .ok t => match mergedTrits v b t with
    | .ok m => .ok (t, m)
    | .error e => .error (.step (dataCode e) 0)

/-- Blocks b to b + n − 1 of a cast as trits, before and after the Merge. -/
def castPairs (s : State) (r : Request) (b n : Nat) : Except UseFault (List (List Int × List Int)) :=
  if mBlocks (castGet s r.cast).manifest < b + n then .error (.step 0x010B 0)
  else
    let raw := castBlocks s r.cast b n
    let v := r.var.map (varGet s)
    (List.range n).mapM (fun i => castBlock v (1024 * (castGet s r.cast).first + b + i) (b + i) (sub raw (48 * i) 48))

/-- The columns and check planes of one block row of a tile as they leave the Merge (R254, R290, R291). -/
def weightBlock (s : State) (r : Request) (at' cols : Nat) : Except UseFault ColBlock :=
  match castPairs s r at' (cols + 8) with
  | .error e => .error e
  | .ok l => .ok ⟨(l.take cols).map (·.2), mergedChecks ((l.drop cols).map (·.1)) (l.take cols),
      List.replicate cols [0, 0, 0, 0]⟩

/-- Block b of a MATMUL step's weight tile (R254, R337). -/
def weightColumns (s : State) (r : Request) (d : StepD) (tile b : Nat) : Except UseFault ColBlock :=
  weightBlock s r (d.weight + (tile * d.reduce + b) * tileBlocks d.stream) (tileCols d.stream)

/-- Block b of some neuron blocks of the gate's or the up product's weights, assembled into one tile (R153). -/
def neuronColumns (s : State) (r : Request) (d : StepD) (up : Bool) (nbs : List Nat) (b : Nat) : Except UseFault ColBlock :=
  match nbs.mapM (fun nb => weightBlock s r ((if up then d.up else d.weight) + (nb * d.reduce + b) * 248) 240) with
  | .ok l => .ok (joinCols l)
  | .error e => .error e

/-- Neuron block nb of a down tile (R334). -/
def downColumns (s : State) (r : Request) (rc : RecipeD) (d : StepD) (tile nb : Nat) : Except UseFault ColBlock :=
  weightBlock s r (d.down + (tile * (costD rc d).colTiles + nb) * tileBlocks d.stream) (tileCols d.stream)

/-! ### A segment that runs SxS (R139 to R145, R292) -/

/-- The entry list of a segment as the match unit receives it: the cast's, checked, with the changes of each of the variant's
records that falls in the segment, checked again (R142, R151). -/
def mergedList (s : State) (r : Request) (d : StepD) (tile seg first n : Nat) : Except UseFault (List WelEntry) := do
  let b := entryListAt s r.cast d tile seg
  let cols := tileCols d.stream
  let h := elHeader (castAt s r.cast b 64)
  let es ← (match elRead (castAt s r.cast b (elBytes h)) cols n first with
    | .ok l => .ok l
    | .error e => .error (listFault e) : Except UseFault (List WelEntry))
  let run := tileRun d tile first n
  let changed := match r.var.map (varGet s) with
    | none => []
    | some v => (List.range run.2).filter (fun k => k % tileBlocks d.stream < cols
        && (runRecords v (run.1 + k) 1).any (fun _ => true))
  let es ← changed.foldlM (fun es k => (match castPairs s r (run.1 + k) 1 with
    | .ok l => match l.head? with
      | some p => .ok (mergeEntries es (k / tileBlocks d.stream) (k % tileBlocks d.stream) p.1 p.2)
      | none => .ok es
    | .error e => .error e : Except UseFault (List WelEntry))) es
  if entriesOk es cols n then .ok es else .error (.step 0x0104 0)

/-- The columns of each block of a segment that runs SxS: the output columns take the entries of its list, the check columns the
segment's check planes, formed again where a variant changes the block (R122, R142, R144). -/
def listColumns (s : State) (r : Request) (d : StepD) (tile seg first n : Nat) : Except UseFault (List ColBlock) := do
  let es ← mergedList s r d tile seg first n
  let cols := tileCols d.stream
  (List.range n).mapM (fun k =>
    let run := tileRun d tile (first + k) 1
    let changed := match r.var.map (varGet s) with
      | some v => !(runRecords v run.1 cols).isEmpty
      | none => false
    let skip := if changed then 0 else cols
    match castPairs s r (run.1 + skip) (cols + 8 - skip) with
    | .ok p => .ok ⟨elCols es cols k, mergedChecks ((p.drop (cols - skip)).map (·.1)) (p.take (cols - skip)),
        List.replicate cols [0, 0, 0, 0]⟩
    | .error e => .error e)

/-- What a lane inserts for a segment: its row's non-zeros, block by block, in increasing position (R143). -/
def laneEntries (s : State) (r : Request) (rc : RecipeD) (d : StepD) (g : TileGeo) (x : TRow × Option RowSummary) (first n : Nat) :
    Except UseFault (List MEntry) :=
  match (List.range n).mapM (fun k => rowOperand s r rc d g x.1 x.2 (first + k)) with
  | .error e => .error e
  | .ok bs =>
    let es := (bs.mapIdx (fun k b => blockEntries (240 * k) b)).flatten
    if (es.map (·.pos)).Pairwise (· < ·) ∧ es.all (fun e => e.pos < 240 * n) then .ok es
    else match tensorAt rc d.row with
      | some t => .error (useData rc t d.row .sparseMeta)
      | none => .error (.step 0x0104 0)

/-- The tables of a segment's lanes; none where a lane finds a set and the stash both full (R143, R145). -/
def segmentTables (s : State) (r : Request) (rc : RecipeD) (d : StepD) (g : TileGeo) (ms : List (Option RowSummary))
    (first n : Nat) : Except UseFault (Option (List MTable)) :=
  match (g.rows.zip ms).mapM (fun x => laneEntries s r rc d g x first n) with
  | .error e => .error e
  | .ok l => .ok (l.mapM matchTable)

end Sys2Proof.Machine
end

