-- ==== Sys2Proof/Machine/DrainRow.lean ====
section
/-! DEFINITION. The drain of a row: fusion, the operands that meet an output block, the frames a program starts from and what its
lanes give, requantization and row statistics (R97 to R99, R119 to R121, R161 to R166, R177 to R181, R188, R199). -/

namespace Sys2Proof.Machine

open Sys2Proof

/-! ### Frames and programs (R161 to R163, R177, R179) -/

/-- The frame a program starts from for one block of a row (R163). -/
def startFrame (v0 : List Word) (xe : List Int) (side0 side1 : List Nat) (m0 m1 : List Bool) (key pos blk row part parts : Nat) :
    Frame :=
  { lanes := (List.range 240).map (fun j =>
      Lane.load ([nth 0 v0 j, BitVec.ofNat 32 (nth 0 side0 j), BitVec.ofNat 32 (nth 0 side1 j)] ++ List.replicate 13 0)
        (nth false m0 j) (nth false m1 j) (nth 0 xe j))
    key := key
    position := pos
    block := blk
    row := row
    part := part
    parts := parts
    phase := 1
    slots := List.replicate 4 {} }

/-- The table images a step's program enables (R179). -/
def tableImages (s : State) (c : Nat) (d : StepD) (h : ProgHeader) : List (List Nat) :=
  (List.range 4).map (fun t => if bits h.tableEnable t 1 = 0 then []
    else
      let b := castAt s c (d.table + 43 * t) 2048
      (List.range 1024).map (fun i => fld b (2 * i) 2))

/-- A program's constants and tables, each entry with its parity (R166, R179, R192). -/
def progEnv (s : State) (c : Nat) (d : StepD) (h : ProgHeader) (k : List Word) : WhiskEnv :=
  let ts := tableImages s c d h
  ⟨k, ts, h.tabCfg, ts.map (fun t => t.map parityBit)⟩

/-- The output of a lane of a frame that a program has run on (R177). -/
def laneOut (h : ProgHeader) (l : Lane) : OutVal :=
  if h.outKind = 1 then .log (if l.m0 then some (l.l16 h.outReg) else none)
  else .int (if l.m0 then l.int h.outReg else 0) (l.xe + h.outShift)

/-! ### Fusion (R119 to R121, R164) -/

/-- What a fusion operand gives one group: nothing, integers with an exponent, or L16 codes. -/
inductive FuseGroup where
  | none
  | ints (l : List Int) (e : Int)
  | codes (l : List Nat)
deriving DecidableEq, Repr

/-- A fused group: its values for the packer, V0 and XE for the Whisk, SAT, CLIP, and whether it was narrowed. -/
structure Fused where
  vals : List OutVal
  v0 : List Word
  xe : Int
  sat : Bool
  clip : Bool
  narrow : Bool
deriving DecidableEq, Repr

/-- A group that no fusion changes. -/
def fuseNone (e : Int) (accs : List Int) : Fused :=
  ⟨accs.map (fun a => .int a e), accs.map (BitVec.ofInt 32), e, false, false, false⟩

/-- The least k at which every value fits 32 bits after a right shift by k, looking at `fuel` values (R164). -/
def narrowBy (us : List Int) : Nat → Nat → Nat
  | 0, k => k
  | n + 1, k => if us.all (fun u => clampBits 32 (shrFloor u k) == shrFloor u k) then k else narrowBy us n (k + 1)

/-- Fusion ADD of a group: exact in 48 bits at the lesser exponent, narrowed to 32 bits for the Whisk with the draw of
index 1 (R119, R164). -/
def fuseAdd (draw : Nat → Nat) (e et : Int) (accs ts : List Int) : Fused :=
  let e' := if ts.all (· == 0) then e else min e et
  let exact := (accs.zip ts).map (fun x => x.1 * 2 ^ (e - e').toNat + x.2 * 2 ^ (et - e').toNat)
  let us := exact.map (clampBits 48)
  let k := narrowBy us 17 0
  let vs := us.mapIdx (fun j u => (u + ((draw j / 2 ^ (32 - k) : Nat) : Int)).fdiv (2 ^ k))
  let cs := if k = 0 then us else vs.map (clampBits 32)
  ⟨us.map (fun u => .int u e'), cs.map (BitVec.ofInt 32), e' + k, us != exact, k != 0 && cs != vs, k != 0⟩

/-- Fusion MUL of a group in the log domain (R120). -/
def fuseMul (e : Int) (accs : List Int) (ts : List (Nat × Bool)) : Fused :=
  let ps := (accs.zip ts).map (fun x =>
    let a := itolAt x.1 e
    let p := l16Mul a.1 x.2.1
    (p.1, a.2 || x.2.2 || p.2))
  ⟨ps.map (fun p => .log (some p.1)), ps.map (fun p => BitVec.ofNat 32 p.1), 0, false, ps.any (·.2), false⟩

/-- Fuse a group. An L16 operand of an ADD gives a free integer at the row's exponent. -/
def fuseGroup (d : StepD) (draw : Nat → Nat) (e : Int) (accs : List Int) : FuseGroup → Fused
  | .none => fuseNone e accs
  | .ints l et => if d.fuse = 1 then fuseAdd draw e (if l.all (· == 0) then e else et) accs l
      else fuseMul e accs (l.map (fun v => toL16 v et))
  | .codes l => if d.fuse = 1 then fuseAdd draw e e accs (l.map (fun c => if l16IsZero c then 0 else Config.fusedL16 c e))
      else fuseMul e accs (l.map (fun c => (c, false)))

/-! ### Operands that meet an output block -/

/-- The 240 L16 codes of a block of an L16 tensor. -/
def codeBlock (s : State) (r : Request) (t : TensorD) (ix row blk : Nat) : Except UseFault (List Nat) :=
  if t.blocks ≤ blk then .ok (List.replicate 240 0)
  else match tensorBytes s r t ix (row * t.stride + 480 * blk) 480 with
    | .ok b => .ok ((List.range 240).map (fun i => fld b (2 * i) 2))
    | .error e => .error e

/-- A side operand's block as L16 codes (R163), with whether a conversion clipped. -/
def sideBlock (s : State) (r : Request) (rc : RecipeD) (d : StepD) (ix place blk : Nat) : Except UseFault (List Nat × Bool) :=
  match tensorAt rc ix with
  | none => .ok ([], false)
  | some t =>
    let row := rowPlace rc d r.entries ix place
    if t.format = 3 then (match codeBlock s r t ix row blk with
      | .ok l => .ok (l, false)
      | .error e => .error e)
    else match tensorBlock s rc r t ix row blk with
      | .error e => .error e
      | .ok b =>
        let l := b.elems.mapIdx (fun j v => toL16 v (b.exp (j / 60)))
        .ok (l.map (·.1), l.any (·.2))

/-- The fusion operand's four groups that meet an output block. -/
def fuseBlock (s : State) (r : Request) (rc : RecipeD) (d : StepD) (place blk : Nat) : Except UseFault (List FuseGroup) :=
  match tensorAt rc d.fusion with
  | none => .ok (List.replicate 4 .none)
  | some t =>
    let row := rowPlace rc d r.entries d.fusion place
    if t.format = 3 then (match codeBlock s r t d.fusion row blk with
      | .ok l => .ok ((List.range 4).map (fun g => .codes ((l.drop (60 * g)).take 60)))
      | .error e => .error e)
    else match tensorBlock s rc r t d.fusion row blk with
      | .error e => .error e
      | .ok b => .ok ((List.range 4).map (fun g => .ints (b.group g) (b.exp g)))

/-- Columns of an output tile that hold a real output: those below the output's width (R163). A gate's tile holds whole neuron
blocks. -/
def realCols (r : Request) (rc : RecipeD) (d : StepD) (g : TileGeo) (oi : Nat) : Nat :=
  let n := tileCols d.stream
  if d.outKind = 1 then rc.kvHeads * rc.headDim - n * (if d.kind = 0 then g.col else oi)
  else if d.kind = 0 ∧ d.bitPlane ∧ ¬ isScore rc d then planeCols r rc d g
  else n

/-- M1 of an attention row's column (R199). -/
def attendMask (s : State) (g : TileGeo) (layer : Nat) (t : TRow) (col : Nat) : Bool :=
  match g.pages[col / 60]? with
  | none => false
  | some n => match pageGet s n, kvCtx s t.ctx with
    | some p, some c => match p.slots[col % 60]? with
      | some k => (nth [] c.tables layer).any (fun e => e.1 == n) && (k.st == 1 || (k.st == 3 && p.ctx == t.ctx))
          && decide (k.pos ≤ t.pos)
      | none => false
    | _, _ => false

/-- M1 of a block's lanes (R166). -/
def maskBlock (s : State) (r : Request) (rc : RecipeD) (d : StepD) (h : ProgHeader) (g : TileGeo) (t : TRow) (part blk : Nat) :
    Except UseFault (List Bool) :=
  match h.m1Source with
  | 1 => match tensorAt rc d.mask with
    | some m =>
      match tensorBytes s r m d.mask (rowPlace rc d r.entries d.mask t.place * m.stride + 30 * blk) 30 with
      | .ok b => .ok ((List.range 240).map (fun j => byteAt b (j / 8) / 2 ^ (j % 8) % 2 == 1))
      | .error e => .error e
    | none => .ok []
  | 2 => .ok ((List.range 240).map (fun j => attendMask s g (kvLayerOf rc d) t (240 * part + j)))
  | _ => .ok (List.replicate 240 true)

/-! ### One row of an output tile -/

/-- What the drain of one row of an output tile gives. -/
structure RowOut where
  t : TRow
  blk : Nat
  packed : List (List DrainOut)
  vals : List OutVal
  wst : WStat
  sat : Bool
  narrow : Nat
  stats : List (Nat × Bytes)
  accs : List Int
deriving DecidableEq, Repr

/-- What a row of a tile needs besides its accumulators: the step, its format, program and tables; `gate` says that the gate of a
gated step drains, to the program that forms h (R153), and not to the packer. -/
structure DrainEnv where
  rc : RecipeD
  d : StepD
  g : TileGeo
  q : Nat
  prog : Option (ProgHeader × WhiskEnv × List Instr)
  key : Nat → Nat
  fref : Int
  gate : Bool

/-- One part of a row as it meets its operands: fused groups, side codes, masks. -/
structure PartIn where
  fused : List Fused
  side0 : List Nat
  side1 : List Nat
  m0 : List Bool
  m1 : List Bool
  clip : Bool

/-- The inputs of one block of a row (R119, R163). -/
def partIn (s : State) (r : Request) (e : DrainEnv) (oi : Nat) (t : TRow) (blk0 : Nat) (a : RowAcc) (p : Nat) :
    Except UseFault PartIn := do
  let blk := blk0 + p
  let fs ← if e.gate then pure (List.replicate 4 FuseGroup.none) else fuseBlock s r e.rc e.d t.place blk
  let accs := (a.acc.drop (240 * p)).take 240
  let draw := fun g j => dither32 (e.key t.ctx) (ditherCtr t.pos (240 * blk + 60 * g + j) 1)
  let fused := fs.mapIdx (fun g f => fuseGroup e.d (draw g) (a.eref + e.fref) (groupOf accs g) f)
  let real := if e.gate then a.acc.length else realCols r e.rc e.d e.g oi
  let m0 := (List.range 240).map (fun j => decide (240 * p + j < real))
  match e.prog with
  | none => pure ⟨fused, [], [], m0, [], false⟩
  | some (h, _, _) =>
    let a0 ← sideBlock s r e.rc e.d e.d.side0 t.place blk
    let a1 ← sideBlock s r e.rc e.d e.d.side1 t.place blk
    let m1 ← maskBlock s r e.rc e.d h e.g t p blk
    pure ⟨fused, a0.1, a1.1, m0, m1, a0.2 || a1.2⟩

/-- The frame of one part of a row. -/
def partFrame (e : DrainEnv) (t : TRow) (blk p parts : Nat) (x : PartIn) : Frame :=
  startFrame (x.fused.map (·.v0)).flatten ((x.fused.map (fun f => List.replicate 60 f.xe)).flatten) x.side0 x.side1
    x.m0 x.m1 (e.key t.ctx) t.pos blk t.place p parts

/-- The values of one part without a program: masked lanes are zero (R162, R165). -/
def plainVals (x : PartIn) : List OutVal :=
  ((x.fused.map (·.vals)).flatten.zip x.m0).map (fun y => if y.2 then y.1 else match y.1 with
    | .int _ e => .int 0 e
    | .log _ => .log none)

/-- One 8-byte statistics slot (R188). -/
def statSlot (x : Slot) : Nat :=
  ofSigned 48 (slotResult x) + 2 ^ 48 * (x.count % 2048) + (if x.count = 0 then 2 ^ 59 else 0) + (if slotClip x then 2 ^ 60 else 0)

/-- A statistics burst from a frame's slots (R188). -/
def statBurst (mask : Nat) (fr : Frame) : Bytes :=
  withCrc ((List.range 4).flatMap (fun i => natLe 8 (if bits mask i 1 = 1 then statSlot (nth {} fr.slots i) else 0)) ++ zeros 30)

/-- The statistics bursts of a row in a tile with their burst index: per block where a BLOCK-scope slot is named on a
Stream tile, else one per tile (R188). -/
def rowStats (d : StepD) (h : ProgHeader) (p : List Instr) (blk0 : Nat) (frs : List Frame) : List (Nat × Bytes) :=
  if h.statMask = 0 ∨ d.stats = noIx then []
  else if d.stream ∧ (blockSlots p).any (fun x => bits h.statMask x 1 == 1) then
    frs.mapIdx (fun i fr => (blk0 + i, statBurst h.statMask fr))
  else [(blk0 / tileParts d.stream, statBurst h.statMask (frs.getLast?.getD Frame.idle))]

/-- Drain one row of an output tile. -/
def rowDrain (s : State) (r : Request) (e : DrainEnv) (oi : Nat) (t : TRow) (a : RowAcc) : Except UseFault RowOut := do
  let parts := a.acc.length / 240
  let blk0 := if e.d.kind = 0 then t.outBlk else oi * tileParts e.d.stream
  let ins ← (List.range parts).mapM (partIn s r e oi t blk0 a)
  let fr := ins.mapIdx (fun p x => partFrame e t (blk0 + p) p parts x)
  let clip := ins.any (fun x => x.clip || x.fused.any (·.clip))
  let run : List Frame × WStat := match e.prog with
    | none => ([], {})
    | some (_, env, p) => whiskRun env p fr
  let vals : List (List OutVal) := match e.prog with
    | none => ins.map plainVals
    | some (h, _, _) => run.1.map (fun (f : Frame) => f.lanes.map (laneOut h))
  let draw := fun p g j => dither64 (e.key t.ctx) (ditherCtr t.pos (240 * (blk0 + p) + 60 * g + j) 0)
  pure { t := t
         blk := blk0
         packed := if e.d.outKind = 0 ∧ ¬ e.gate then vals.mapIdx (fun p v => (List.range 4).map (fun g =>
           packVals e.q (draw p g) ((v.drop (60 * g)).take 60))) else []
         vals := vals.flatten
         wst := { run.2 with clip := run.2.clip || clip }
         sat := ins.any (fun x => x.fused.any (·.sat))
         narrow := if e.prog.isSome then sumN (ins.map (fun x => (x.fused.filter (·.narrow)).length)) else 0
         stats := match e.prog with
           | none => []
           | some (h, _, p) => rowStats e.d h p blk0 run.1
         accs := a.acc }

/-- Drain every row of what stands in the latches, tile by tile. -/
def tileDrain (s : State) (r : Request) (e : DrainEnv) (subs : List SubTile) : Except UseFault (List (List RowOut)) :=
  (subs.zipIdx).mapM (fun (x : SubTile × Nat) => (e.g.rows.zip x.1.rows).mapM (fun (y : TRow × RowAcc) => rowDrain s r e x.2 y.1 y.2))

/-- Write a row's statistics, within the rows of their tensor (R188). -/
def writeStats (r : Request) (rc : RecipeD) (d : StepD) (o : RowOut) (s : State) : State := match tensorAt rc d.stats with
  | none => s
  | some t =>
    let row := rowPlace rc d r.entries d.stats o.t.place
    if tensorRows t r.entries ≤ row then s
    else (o.stats.filter (fun x => 64 * (x.1 + 1) ≤ t.stride)).foldl (fun s x => placeWrite t.hint (tensorPlace r t d.stats) (row * t.stride + 64 * x.1) x.2 s) s

end Sys2Proof.Machine
end

