-- ==== Sys2Proof/Machine/Engine.lean ====
section
/-! DEFINITION. Issue and the passes of a tile: the queue of a Griddle, dispatch, accumulation, segments' paths, the match unit, the
pass drain with its checksum comparison, the save slots, and a gated step's gate (R38, R81, R84 to R96, R108 to R113, R115 to R118,
R122 to R131, R135 to R159, R238, R376 to R378, R456). -/

namespace Sys2Proof.Machine

open Sys2Proof

/-! ### Units and tiles -/

/-- Step k of a recipe. -/
def stepOf (rc : RecipeD) (k : Nat) : StepD := nth (stepD []) rc.steps k

/-- Change a unit of a request. -/
def unitMod (i step unit : Nat) (f : UnitSt → UnitSt) (s : State) : State :=
  reqMod i (fun r => { r with units := r.units.map (fun u => if u.step = step ∧ u.unit = unit then f u else u) }) s

/-- The tile in the array of a logical Griddle. -/
def tileGet (s : State) (g : Nat) : Option Tile := sfind s.engine.tiles g

/-- Put a tile in the array of a Griddle. -/
def tilePut (g : Nat) (t : Tile) (s : State) : State :=
  { s with engine := { s.engine with tiles := sput s.engine.tiles g t } }

/-- Take the tile out of the array of a Griddle. -/
def tileDel (g : Nat) (s : State) : State := { s with engine := { s.engine with tiles := sdel s.engine.tiles g } }

/-- The tile in the drain latches of a Griddle (R81). -/
def latchGet (s : State) (g : Nat) : Option Tile := sfind s.engine.latches g

/-- Put a tile in the drain latches of a Griddle. -/
def latchPut (g : Nat) (t : Tile) (s : State) : State :=
  { s with engine := { s.engine with latches := sput s.engine.latches g t } }

/-- Empty the drain latches of a Griddle. -/
def latchDel (g : Nat) (s : State) : State := { s with engine := { s.engine with latches := sdel s.engine.latches g } }

/-- Every unit of every request. -/
def allUnits (s : State) : List (Nat × Request × UnitSt) :=
  (s.sched.reqs.map (fun e => e.2.units.map (fun u => (e.1, e.2, u)))).flatten

/-- The unit that runs on a Griddle. -/
def runningOn (s : State) (g : Nat) : Option (Nat × Request × UnitSt) :=
  (allUnits s).find? (fun x => x.2.2.griddle == g && x.2.2.phase == .running)

/-- A unit's place in its Griddle's queue (R376): class, admission tick, AdmitSeq, step, unit. -/
def queueKey (r : Request) (u : UnitSt) : List Nat := [dClass r.desc, r.admitTick, r.admitSeq, u.step, u.unit]

/-- Lexicographic order of queue keys. -/
def keyBefore : List Nat → List Nat → Bool
  | [], _ => true
  | _ :: _, [] => false
  | a :: as, b :: bs => if a = b then keyBefore as bs else decide (a < b)

/-- The units of a Griddle that have passes left, in queue order. -/
def queueOf (s : State) (g : Nat) : List (Nat × Request × UnitSt) :=
  ((allUnits s).filter (fun x => x.2.2.griddle == g && x.2.2.phase != .done && x.2.2.phase != .draining)).mergeSort (fun a b =>
    keyBefore (queueKey a.2.1 a.2.2) (queueKey b.2.1 b.2.2))

/-- Whether a request is a COMPACT, whose one unit works without rows. -/
def isCompact (r : Request) : Bool := dKind r.desc == 3

/-- The runs of blocks that a unit reads from the cast: weights, entry lists with their directory, program and tables (R273). -/
def unitRuns (s : State) (c : Nat) (rc : RecipeD) (d : StepD) (u : UnitSt) : List (Nat × Nat) :=
  let weights := match d.kind with
    | 0 => if d.bitPlane then [] else [tileRun d u.unit 0 d.reduce]
    | 1 => ((List.range (costD rc d).colTiles).map (fun nb =>
        gateRuns rc d 0 nb ++ gateRuns rc d 1 nb ++ gateRuns rc d 2 nb)).flatten
    | _ => []
  let segs := (segmentsOf d).length
  let lists := if d.entryList = allOnes64 then [] else
    (d.entryList, ceilDiv (8 * (d.colTiles * segs)) 48) :: (List.range segs).map (fun k =>
      let b := entryListAt s c d u.unit k
      (b, ceilDiv (elBytes (elHeader (castAt s c b 64))) 48))
  let prog := match progOf s c d with
    | some (h, _, _) => (d.program, ceilDiv (128 + 4 * h.instrCount) 48) ::
        ((List.range 4).filter (fun t => bits h.tableEnable t 1 == 1)).map (fun t => (d.table + 43 * t, 43))
    | none => []
  weights ++ lists ++ prog

/-- Whether a DAMAGED sector stands in what a unit reads from the cast (R251, R273). -/
def unitDamaged (s : State) (r : Request) (rc : RecipeD) (d : StepD) (u : UnitSt) : Bool :=
  let c := castGet s r.cast
  !c.damaged.isEmpty && (unitRuns s r.cast rc d u).any (fun x =>
    (runSectors s r.cast x.1 x.2).any (fun l => c.damaged.any (fun m => m.1 == l)))

/-- Whether the steps a step waits for have completed (R339). -/
def depsDone (r : Request) (d : StepD) : Bool := d.deps.all (fun k => k == noIx || (stepGet r k).complete)

/-- Whether a step reads the K or V pages of a layer. -/
def readsLayer (rc : RecipeD) (d : StepD) : Bool := isKv rc d.row || isKv rc d.col

/-- Whether the appends that stand before a step and write the layer it reads have completed (R205). -/
def appendsDone (r : Request) (rc : RecipeD) (k : Nat) (d : StepD) : Bool :=
  !readsLayer rc d || ((rc.steps.zipIdx).take k).all (fun x => !(x.1.outKind == 1 && (match tensorAt rc x.1.out with
    | some t => t.layer == kvLayerOf rc d
    | none => false)) || (stepGet r x.2).complete)

/-- Whether the steps before a step that write a tensor it reads have completed, their summaries written (R101). -/
def inputsDone (r : Request) (rc : RecipeD) (k : Nat) (d : StepD) : Bool :=
  ([d.row, d.col, d.fusion, d.side0, d.side1, d.mask].filter (· != noIx)).all (fun ix =>
    ((rc.steps.zipIdx).take k).all (fun x => x.1.out != ix || (stepGet r x.2).complete))

/-- Whether the phase of the tick lets a unit issue (R34, R38, R380): before the admit mark only work admitted in earlier
ticks, after the late mark LIVE work and what the walk left in. -/
def phaseAllows (s : State) (i : Nat) (r : Request) (step unit : Nat) : Bool := match s.time.phase with
  | .window => decide (r.admitTick < s.time.tickNo)
  | .late => dClass r.desc == 0 || !s.sched.lateHeld.contains (i, step, unit)
  | _ => true

/-- Bursts of a Hopper's first block (R238): a block of each row of a tile for ACT; a block of the tile's columns with its check
planes, or a block of each column of a bit-plane operand, for WEIGHT. -/
def firstBursts (rc : RecipeD) (d : StepD) (rows consumer : Nat) : Nat :=
  let f := fmtOf (((tensorAt rc d.row).map (·.format)).getD 1)
  if consumer = 1 then rows * (blockBytes f / 64)
  else if d.bitPlane then tileCols d.stream * (blockBytes d.planeFmt / 64)
  else ceilDiv (tileBlocks d.stream * 48) 64

/-- The filled bursts of a Hopper (R233). -/
def hopperFill (h : Hopper) : Nat :=
  let n := 2 * (h.size / 64)
  if n = 0 then 0 else (h.head + n - h.tail) % n

/-- A Tile Store. -/
def storeGet (s : State) (n : Nat) : TileStore := sget {} s.engine.stores n

/-- Change a Tile Store. -/
def storeMod (n : Nat) (f : TileStore → TileStore) (s : State) : State :=
  { s with engine := { s.engine with stores := supd {} s.engine.stores n f } }

/-- The consumer of a bound Hopper by its step's plan. -/
def hopperPlan (rc : RecipeD) (d : StepD) (h : Hopper) : Option PlanD := (stepPlan rc d).find? (fun p => p.slot == h.slot)

/-- Whether each ACT and WEIGHT Hopper of a step's plan is bound on a Griddle and holds its first block, or is full (R238). -/
def hoppersReady (s : State) (i : Nat) (r : Request) (rc : RecipeD) (d : StepD) (k g : Nat) : Bool := match physGriddle s g with
  | none => false
  | some p =>
    let rows := min (rowsOf d) (stepRows rc d r.entries).length
    (stepPlan rc d).all (fun pl => 3 ≤ pl.consumer || (storeGet s p).hoppers.any (fun h =>
      h.bound && h.request == i && h.step == k && h.slot == pl.slot
        && decide (min (h.size / 64) (firstBursts rc d rows pl.consumer) ≤ hopperFill h)))

/-- Whether a unit is ready to issue on its Griddle (R376). -/
def unitReady (s : State) (i : Nat) (r : Request) (u : UnitSt) : Bool :=
  (u.phase == .ready || u.phase == .paused || u.phase == .held) && !r.finished && !(tenantGet s r.tenant).resetting
    && r.waitSector.isEmpty && phaseAllows s i r u.step u.unit
    && (isCompact r || (let rc := reqRecipe s r
        let d := stepOf rc u.step
        depsDone r d && appendsDone r rc u.step d && inputsDone r rc u.step d && hoppersReady s i r rc d u.step u.griddle && !unitDamaged s r rc d u))

/-! ### What a pass works on -/

/-- A unit's remaining priced cycles (R380): its unfinished passes, the running one in full, and its FixedCycles until its first pass
has drained; once resumed, as a dispatch of its remaining passes (R239). -/
def remaining (u : UnitSt) : Nat := match u.again with
  | some p => p.1 + p.2 + sumN (u.prices.drop (u.done + 1))
  | none => (if u.done = 0 then u.fixed else 0) + sumN (u.prices.drop u.done)

/-- The blocks of the pass a MATMUL unit stands at: first block and count. -/
def passRange (d : StepD) (u : UnitSt) : Nat × Nat := nth (0, 0) (d.passes d.reduce) u.pass

/-- A row's reference exponent: the summary's EMin, or the tracker's (R87, R88). -/
def startRef (s : State) (d : StepD) (m : Option RowSummary) : Int := match m with
  | some x => if x.allZeroRow then 0 else x.eMin
  | none => (trackerGet s d.ref).eref

/-- The summaries of a tile's rows. -/
def tileSummaries (s : State) (r : Request) (rc : RecipeD) (d : StepD) (g : TileGeo) :
    Except UseFault (List (Option RowSummary)) := g.rows.mapM (rowSummaryOf s r rc d g)

/-- The column summaries of a bit-plane tile; none for a ternary tile. -/
def planeSummaries (s : State) (r : Request) (rc : RecipeD) (d : StepD) (g : TileGeo) : Except UseFault (List RowSummary) :=
  if d.bitPlane then (List.range (planeCols r rc d g)).mapM (planeSummary s r rc d g) else .ok []

/-- A segment that runs SxS in a pass: its first block, its blocks, its lanes' tables, its columns block by block. -/
structure Matched where
  first : Nat
  blocks : Nat
  lanes : List MTable
  cols : List ColBlock

/-- What a pass works on: the step with its format, the tile's shape, the summaries of its rows and of a bit-plane operand's
columns, the neuron blocks assembled into each tile of a gate or up pass, the product blocks of a down pass by neuron block, and the
segments that run SxS. -/
structure PassEnv where
  rc : RecipeD
  d : StepD
  g : TileGeo
  fmt : Fmt
  sums : List (Option RowSummary)
  cols : List RowSummary
  chunks : List (List Nat)
  prods : List (Nat × List Block)
  clips : TileStatus × WStat
  matched : List Matched

/-- A list cut into pieces of n. -/
def chunksOf (n : Nat) (l : List Nat) : List (List Nat) :=
  (List.range (ceilDiv l.length n)).map (fun k => (l.drop (n * k)).take n)

/-- Whether a value of h is zero. -/
def valZero : OutVal → Bool
  | .int v _ => v == 0
  | .log none => true
  | .log (some c) => l16IsZero c

/-- The active neuron blocks of a unit: those with a non-zero h in any row (R153). -/
def activeOf (h : List (List (List OutVal))) : List Nat :=
  natsWhere h.length (fun nb => (nth [] h nb).any (fun row => row.any (fun v => !valZero v)))

/-- The integer of a value of h. -/
def valInt : OutVal → Int
  | .int v _ => v
  | .log _ => 0

/-- The L16 code of a value of h. -/
def valCode : OutVal → Option Nat
  | .int _ _ => none
  | .log c => c

/-- One block of h ⊙ u as an operand (R77, R153), with DRAIN_CLIP and CLIP. The spec names no draw index for its rounding: each
element's draw is free (log 81). -/
def productBlock (q key pos nb : Nat) (h : List OutVal) (u : RowAcc) : Block × Bool × Bool :=
  let gs := (List.range 4).map (fun g =>
    let hs := (h.drop (60 * g)).take 60
    let us := groupOf u.acc g
    let draw := fun j => Config.gatedDraw key pos (240 * nb + 60 * g + j) % 2 ^ 64
    (match hs.head? with
      | some (.int _ e) =>
        let o := productInts q (e + u.eref) draw (hs.map valInt) us
        (o, o.clip, false)
      | some (.log _) =>
        let o := productCodes q u.eref draw (hs.map valCode) us
        (o.1, o.1.clip, o.2)
      | none => (⟨List.replicate 60 0, 0, false, true⟩, false, false)))
  (groupsBlock (gs.map (fun x => (x.1.elems, x.1.exp))), gs.any (fun x => x.2.1), gs.any (fun x => x.2.2))

/-- The key under which a step keeps the rows of u of a neuron block of a unit. -/
def upKey (unit nb : Nat) : Nat := 128 * unit + nb

/-- The product blocks of a unit's active neuron blocks, row by row, with DRAIN_CLIP and CLIP (R153). -/
def productBlocks (s : State) (r : Request) (d : StepD) (g : TileGeo) (q : Nat) (st : StepSt) (unit : Nat) :
    List (Nat × List (Block × Bool × Bool)) :=
  let h := sget [] st.h unit
  (activeOf h).map (fun nb => (nb, (g.rows.zip ((nth [] h nb).zip (sget [] st.ups (upKey unit nb)))).map (fun x =>
    productBlock q (ditherKey x.1.ctx d.ref (reqGeneration s r)) x.1.pos nb x.2.1 x.2.2)))

/-- What the pass a unit stands at works on, but for its SxS segments. -/
def passEnv (s : State) (r : Request) (rc : RecipeD) (d : StepD) (u : UnitSt) : Except UseFault PassEnv := do
  let g := tileGeo s r rc d u u.tile
  let st := stepGet r u.step
  let f := st.fmt.getD (stepFmt s d)
  match pagesFault s rc d g with
  | some e => .error e
  | none =>
    let ms ← tileSummaries s r rc d g
    let cs ← planeSummaries s r rc d g
    let nbs := if d.kind ≠ 1 then [] else match u.pass with
      | 0 => List.range (costD rc d).colTiles
      | 1 => st.predicted
      | _ => []
    let ps := if d.kind = 1 ∧ u.pass = 2 then productBlocks s r d g (fmtQ f) st u.unit else []
    return { rc := rc
             d := d
             g := g
             fmt := f
             sums := ms
             cols := cs
             chunks := chunksOf (tileParts d.stream) nbs
             prods := ps.map (fun p => (p.1, p.2.map (·.1)))
             clips := ({ drainClip := ps.any (fun p => p.2.any (fun x => x.2.1)) },
               { clip := ps.any (fun p => p.2.any (fun x => x.2.2)) })
             matched := [] }

/-- The blocks of a pass, numbered from where it starts: a MATMUL's own; of a gate or up pass, the reduction of each assembled tile
in turn; of a down pass, the active neuron blocks for each output tile in turn (R157); of an ELEMENT step, its output tiles. -/
def passSpan (e : PassEnv) (u : UnitSt) : Nat × Nat := match e.d.kind with
  | 0 => passRange e.d u
  | 1 => if u.pass < 2 then (0, e.chunks.length * e.d.reduce) else (0, e.g.outTiles * e.prods.length)
  | _ => (0, e.g.outTiles)

/-! ### The bound (R94, R95, R117) -/

/-- Largest magnitudes of the operands of R94 and R117. -/
def formatBound : Fmt → Nat
  | .a4 => 8
  | _ => 128

/-- The row operand's format. -/
def rowFmt (rc : RecipeD) (d : StepD) : Fmt := match tensorAt rc d.row with
  | some t => if t.storage = 3 then d.planeFmt else fmtOf t.format
  | none => .a8

/-- K_safe at a row spread for a step and column spread (R94, R117). -/
def stepSafe (rc : RecipeD) (d : StepD) (drow dcol : Nat) : Nat :=
  kSafe (groupBound (formatBound (rowFmt rc d)) (if d.bitPlane then formatBound d.planeFmt else 1)) (drow + dcol)

/-- The total K of a step (R95). -/
def totalK (d : StepD) : Nat := 240 * (if d.total = 0 then d.reduce else d.total)

/-- D over the rows with a summary (R94). -/
def summarySpread (ms : List (Option RowSummary)) : Nat :=
  (ms.map (fun m => match m with
    | some x => if x.allZeroRow then 0 else (x.eMax - x.eMin).toNat
    | none => 0)).foldl max 0

/-- D_col of a bit-plane tile; 0 for a ternary tile (R117). -/
def colSpread (e : PassEnv) : Nat := if e.d.bitPlane then (planeRef e.cols).2 else 0

/-- Whether the rows of a pass have summaries: the rows of a down pass, which take h ⊙ u, have none. -/
def passSums (e : PassEnv) (pass : Nat) : List (Option RowSummary) :=
  if e.d.kind = 1 ∧ pass = 2 then e.sums.map (fun _ => none) else e.sums

/-- K_safe of a pass at a row spread: a down pass takes blocks in the step's format. -/
def passSafe (e : PassEnv) (pass drow : Nat) : Nat :=
  if e.d.kind = 1 ∧ pass = 2 then kSafe (groupBound (formatBound e.fmt) 1) drow else stepSafe e.rc e.d drow (colSpread e)

/-- Whether the rows without a summary have shown a spread past the bound (R95). -/
def observedLapse (e : PassEnv) (pass : Nat) (rows : List RowAcc) : Bool :=
  ((passSums e pass).zip rows).any (fun x => x.1.isNone && (match x.2.seen with
    | some m => decide (passSafe e pass (m.2 - x.2.eref).toNat < totalK e.d)
    | none => false))

/-- The status that the summaries give a tile at its start: BOUND_LAPSED and CHECK_NA (R95, R117, R123). -/
def startStatus (e : PassEnv) (pass : Nat) : TileStatus :=
  let ms := passSums e pass
  { ({} : TileStatus) with
    boundLapsed := e.d.kind != 2 && ms.all Option.isSome && decide (passSafe e pass (summarySpread ms) < totalK e.d)
    checkNa := e.d.bitPlane && !planeCheckApplies (tileCols e.d.stream) (formatBound e.d.planeFmt) (colSpread e)
    drainClip := e.clips.1.drainClip }

/-- The cleared tiles of a pass: its columns, and each row at its reference exponent (R87, R88). -/
def freshSubs (s : State) (e : PassEnv) (pass : Nat) : List SubTile :=
  let rows := fun (cols : Nat) => (passSums e pass).map (fun m => RowAcc.clear cols (startRef s e.d m))
  let one := fun (cols : Nat) => (⟨startStatus e pass, rows cols⟩ : SubTile)
  match e.d.kind with
  | 0 => [one (tileCols e.d.stream)]
  | 1 => if pass < 2 then e.chunks.map (fun c => one (240 * c.length))
      else List.replicate e.g.outTiles (one (tileCols e.d.stream))
  | _ => List.replicate e.g.outTiles (one (tileCols e.d.stream))

/-- A fresh tile of the pass a unit stands at. -/
def freshTile (s : State) (i : Nat) (e : PassEnv) (u : UnitSt) : Tile :=
  let subs := freshSubs s e u.pass
  { request := i
    step := u.step
    unit := u.unit
    tile := u.tile
    pass := u.pass
    subs := subs
    fref := if e.d.bitPlane then (planeRef e.cols).1 else 0
    block := (passSpan e u).1
    waitsDrain := false
    waitsFinal := false
    planes := e.d.bitPlane
    rebases := 0
    skips := 0
    lapses := (subs.filter (·.status.boundLapsed)).length
    begunAt := (passSpan e u).1
    begun := subs
    per := (passSpan e u).2 / max 1 subs.length }

/-! ### Accumulation -/

/-- Add one block to every row of a tile: the tile, and its rows' rebases. -/
def addRows (cb : ColBlock) (bs : List Block) (t : SubTile) : SubTile × Nat :=
  let rs := (t.rows.zip bs).map (fun x => rowBlock x.2 cb (x.1, {}))
  (⟨rs.foldl (fun t x => t.join x.2) t.status, rs.map (·.1)⟩, sumN (rs.map (fun x => x.2.rebaseCount)))

/-- Add one block to tile k of a pass. -/
def addTo (k : Nat) (cb : ColBlock) (bs : List Block) (t : Tile) : Tile :=
  let y := addRows cb bs (nth ⟨{}, []⟩ t.subs k)
  { t with subs := t.subs.set k y.1, rebases := t.rebases + y.2 }

/-- Whole-tile plane skips of a bit-plane block (R118): planes that are zero across every column. -/
def planeZeros (planes : Nat) (cols : List (List Int)) : Nat :=
  ((List.range planes).filter (fun j => cols.all (fun c => c.all (fun v => ofSigned planes v / 2 ^ j % 2 == 0)))).length

/-- Block b of the row operand, row by row. -/
def rowBlocks (s : State) (r : Request) (e : PassEnv) (b : Nat) : Except UseFault (List Block) :=
  (e.g.rows.zip e.sums).mapM (fun x => rowOperand s r e.rc e.d e.g x.1 x.2 b)

/-- The columns of block b of a MATMUL tile. -/
def tileColumns (s : State) (r : Request) (e : PassEnv) (fref : Int) (b : Nat) : Except UseFault ColBlock :=
  if e.d.bitPlane then planeColumns s r e.rc e.d e.g e.cols fref b else weightColumns s r e.d e.g.col b

/-- Add block b of a MATMUL tile: from the lanes' tables and the entry list in a segment that runs SxS (R144), else from the row
operand and the weights. -/
def addMatmul (s : State) (r : Request) (e : PassEnv) (t : Tile) (b : Nat) : Except UseFault Tile :=
  match e.matched.find? (fun m => m.first ≤ b && b < m.first + m.blocks) with
  | some m => .ok (addTo 0 (nth ⟨[], [], []⟩ m.cols (b - m.first)) (m.lanes.map (fun l => tableBlock l (b - m.first))) t)
  | none => do
    let bs ← rowBlocks s r e b
    let cb ← tileColumns s r e t.fref b
    return addTo 0 cb bs { t with skips := t.skips + (if e.d.bitPlane then planeZeros (planesOf e.d) cb.cols else 0) }

/-- Add block x of a gate or up pass: block x mod ReduceBlocks to the assembled tile it falls in (R153, R154, R156). -/
def addNeurons (s : State) (r : Request) (e : PassEnv) (t : Tile) (x : Nat) : Except UseFault Tile := do
  let bs ← rowBlocks s r e (x % e.d.reduce)
  let cb ← neuronColumns s r e.d (decide (t.pass = 1)) (nth [] e.chunks (x / e.d.reduce)) (x % e.d.reduce)
  return addTo (x / e.d.reduce) cb bs t

/-- Add block x of a down pass: an active neuron block to the output tile it falls in, in increasing order (R157). -/
def addDown (s : State) (r : Request) (e : PassEnv) (t : Tile) (x : Nat) : Except UseFault Tile :=
  let n := e.prods.length
  let p := nth (0, []) e.prods (x % n)
  match downColumns s r e.rc e.d (x / n) p.1 with
  | .error f => .error f
  | .ok cb => .ok (addTo (x / n) cb p.2 t)

/-- The elements of blocks loaded at their shifts from a row's reference (R340), and whether any clamped. -/
def loadBlocks (e0 : Int) (bs : List Block) : List (Int × Bool) :=
  (bs.map (fun (b : Block) => b.elems.mapIdx (fun j v => if v = 0 then ((0 : Int), false) else
    satAdd 0 v (b.exp (j / 60) - e0).toNat))).flatten

/-- One row of output tile oi of an ELEMENT step: its blocks loaded at their shifts. -/
def elementRow (s : State) (r : Request) (e : PassEnv) (oi : Nat) (x : TRow × Option RowSummary) :
    Except UseFault (RowAcc × Bool) :=
  let parts := tileParts e.d.stream
  match (List.range parts).mapM (fun p => rowOperand s r e.rc e.d e.g x.1 x.2 (oi * parts + p)) with
  | .error f => .error f
  | .ok bs =>
    let e0 := startRef s e.d x.2
    let vs := loadBlocks e0 bs
    .ok (⟨vs.map (·.1), List.replicate 8 0, e0, none⟩, vs.any (·.2))

/-- Load output tile oi of an ELEMENT step: every group at its shift from the row's EMin (R340). -/
def addElement (s : State) (r : Request) (e : PassEnv) (t : Tile) (oi : Nat) : Except UseFault Tile :=
  match (e.g.rows.zip e.sums).mapM (elementRow s r e oi) with
  | .error f => .error f
  | .ok l =>
    let old := (nth ⟨{}, []⟩ t.subs oi).status
    .ok { t with subs := t.subs.set oi ⟨{ old with sat := old.sat || l.any (·.2) }, l.map (·.1)⟩ }

/-- Add block x of a pass. -/
def addBlock (s : State) (r : Request) (e : PassEnv) (t : Tile) (x : Nat) : Except UseFault Tile := match e.d.kind with
  | 0 => addMatmul s r e t x
  | 1 => if t.pass < 2 then addNeurons s r e t x else addDown s r e t x
  | _ => addElement s r e t x

/-- BOUND_LAPSED of the tiles whose rows have shown a spread past the bound, and the count of those that it is new to (R95). -/
def lapseTile (e : PassEnv) (t : Tile) : Tile :=
  let hit := fun (x : SubTile) => e.d.kind != 2 && !x.status.boundLapsed && observedLapse e t.pass x.rows
  { t with
    subs := t.subs.map (fun x => if hit x then { x with status := { x.status with boundLapsed := true } } else x)
    lapses := t.lapses + (t.subs.filter hit).length }

/-- Accumulate blocks b to b + n − 1 of a pass, in order (R92). -/
def runBlocks (s : State) (r : Request) (e : PassEnv) (b n : Nat) (t : Tile) : Except UseFault Tile :=
  match (List.range n).foldlM (fun t k => addBlock s r e t (b + k)) t with
  | .ok t => .ok (lapseTile e { t with block := b + n })
  | .error f => .error f

/-! ### Save slots (R108, R112, R113) -/

/-- The lowest free save slot. -/
def freeSave (s : State) : Option Nat :=
  (List.range (getO s oSaveSlotCount)).find? (fun n => !shas s.engine.saves n)

/-- The Tag of a save (R113): the step instance, which is the request's slot, the step and the replays so far, above the save
sequence number (log 82). -/
def saveTag (s : State) (t : Tile) : Nat :=
  let replays := match reqGet s t.request with
    | some r => r.replays
    | none => 0
  2 ^ 32 * (t.request % 4096 + 2 ^ 12 * (t.step % 4096) + 2 ^ 24 * (replays % 256)) + s.engine.saveSeq % 2 ^ 32

/-- Count what a tile has met since it was last counted: rebases, skipped planes, tiles whose bound lapsed (R90, R95, R118). -/
def countTile (t : Tile) (s : State) : State :=
  addO (addO (addO s oGriddleRebaseCount t.rebases) oPlaneSkipCount t.skips) oGriddleBoundLapsedCount t.lapses

/-- A tile whose counts are taken. -/
def Tile.counted (t : Tile) : Tile := { t with rebases := 0, skips := 0, lapses := 0 }

/-- Save a tile: into its unit's slot, or the lowest free one. Answers the slot. -/
def saveTile (g : Nat) (u : UnitSt) (t : Tile) (s : State) : Option Nat × State :=
  match u.saveSlot.orElse (fun _ => freeSave s) with
  | none => (none, s)
  | some n =>
    let tag := saveTag s t
    let v : SaveSlot := ⟨t.request, t.step, t.unit, g, t.subs, t.fref, t.block, tag, t.per⟩
    let s := { s with engine := { s.engine with saves := sput s.engine.saves n v, saveSeq := s.engine.saveSeq + 1 } }
    (some n, unitMod t.request t.step t.unit (fun u => { u with saveSlot := some n, tag := tag }) s)

/-- A saved tile back in the array, for the pass its unit stands at. -/
def savedTile (v : SaveSlot) (u : UnitSt) (planes : Bool) : Tile :=
  ⟨v.request, v.step, v.unit, u.tile, u.pass, v.subs, v.fref, v.block, false, false, planes, 0, 0, 0, v.block, v.subs, v.per⟩

/-- The tile of a pass as it starts: the saved one, whose Tag must be the one expected (R113), or the one that stayed in the array
for want of a slot, or a fresh one. The error is the Griddle that saved the tile. -/
def passStart (s : State) (i : Nat) (e : PassEnv) (u : UnitSt) : Except (Option Nat) Tile :=
  match u.saveSlot with
  | some n => match sfind s.engine.saves n with
    | some v => if v.tag = u.tag then .ok (savedTile v u e.d.bitPlane) else .error (physGriddle s v.griddle)
    | none => .error none
  | none => match tileGet s u.griddle with
    | some t => .ok (if t.request = i ∧ t.step = u.step ∧ t.unit = u.unit ∧ t.tile = u.tile then { t with pass := u.pass }
        else freshTile s i e u)
    | none => .ok (freshTile s i e u)

/-! ### Paths and the match unit (R135 to R149) -/

/-- Save what a step has seen of status: its tile flags (R96). -/
def noteFlags (i k : Nat) (t : TileStatus) (s : State) : State :=
  stepMod i k (fun x => { x with flags := Nat.lor x.flags (t.toWord % 32) }) s

/-- The choices of the segments of a unit's tile (R148, R149), by the headers that now exist. -/
def tileChoices (s : State) (r : Request) (rc : RecipeD) (d : StepD) (u : UnitSt) (tile : Nat) : Except UseFault (List SegPrice) :=
  match tensorAt rc d.row with
  | none => .ok []
  | some t =>
    if d.kind ≠ 0 ∨ d.bitPlane ∨ d.sparseMode = 0 ∨ ¬ t.slotted ∨ ¬ (costD rc d).sparse then .ok []
    else
      let rows := (tileGeo s r rc d u tile).rows.map (·.ix)
      segChoices s r.cast (r.var.map (varGet s)) d ((stepGet r u.step).fmt.getD (stepFmt s d))
        (passRate s rc d (passD rc d u.pass) tile) u.unit (segHeads s rc r t d.row rows)

/-- The segments of the pass a unit stands at: index, first block and blocks, choice. -/
def passSegments (d : StepD) (u : UnitSt) (l : List SegPrice) : List (Nat × (Nat × Nat) × SegPrice) :=
  let all := (((segmentsOf d).zip l).zipIdx).map (fun x => (x.2, x.1.1, x.1.2))
  if d.resident then all else (all.drop u.pass).take 1

/-- Count the paths of a pass (R145, R148, R160); a segment whose build was abandoned runs SxD. A tile run dense though a sparse path
was permitted counts once, at its first pass (log 80). -/
def countPaths (d : StepD) (u : UnitSt) (l : List SegPrice) (lost : Nat → Bool) (s : State) : State :=
  let s := (passSegments d u l).foldl (fun s x =>
    let s := if x.2.2.rowOver then bump s oMatchRowOverflowCount else s
    match x.2.2.path with
    | .sxd => bump s oSparseSxdSegmentCount
    | .sxs => bump s (if lost x.1 then oSparseSxdSegmentCount else oSparseSxsSegmentCount)
    | .dense => s) s
  if u.pass = 0 ∧ l.any (·.choice) ∧ l.all (fun x => x.path == .dense) then bump s oSparseDenseChoiceCount else s

/-- The key of a segment of the tile a unit stands at. -/
def segKey (i : Nat) (u : UnitSt) (seg : Nat) : SegKey := ⟨i, u.step, u.unit, u.tile, seg⟩

/-- The lanes' tables of a segment: those of a bank that holds it, or built now into the bank longer unused; none where the build was
or is abandoned, which is counted once (R143, R145). -/
def matchLanes (g i : Nat) (r : Request) (e : PassEnv) (u : UnitSt) (seg first n : Nat) (s : State) :
    Except UseFault (Option (List MTable)) × State :=
  let key := segKey i u seg
  let mine := sget [] s.engine.banks g
  if s.engine.overflow.contains key then (.ok none, s)
  else match mine.find? (fun b => b.key == key) with
    | some b => (.ok (some b.lanes), s)
    | none => match segmentTables s r e.rc e.d e.g e.sums first n with
      | .error f => (.error f, s)
      | .ok none => (.ok none, { bump s oMatchSetOverflowCount with
          engine := { s.engine with overflow := s.engine.overflow ++ [key] } })
      | .ok (some l) =>
        let bank : MatchBank := ⟨key, l⟩
        (.ok (some l), { s with
          engine := { s.engine with banks := sput s.engine.banks g ((mine ++ [bank]).drop (mine.length - 1)) } })

/-- The segments of a pass that run SxS: their tables and columns. -/
def matchPass (g i : Nat) (r : Request) (e : PassEnv) (u : UnitSt) (l : List SegPrice) (s : State) :
    Except UseFault (List Matched) × State :=
  (passSegments e.d u l).foldl (fun (y : Except UseFault (List Matched) × State) x =>
    match y.1 with
    | .error f => (.error f, y.2)
    | .ok ms =>
      if x.2.2.path ≠ .sxs then y
      else
        let z := matchLanes g i r e u x.1 x.2.1.1 x.2.1.2 y.2
        match z.1 with
        | .error f => (.error f, z.2)
        | .ok none => (.ok ms, z.2)
        | .ok (some lanes) => (match listColumns z.2 r e.d u.unit x.1 x.2.1.1 x.2.1.2 with
          | .error f => (.error f, z.2)
          | .ok cols => (.ok (ms ++ [⟨x.2.1.1, x.2.1.2, lanes, cols⟩]), z.2))) (.ok [], s)

/-- The match tables of a unit are dropped: a pause leaves none, and the tile is built again on resume (R147). -/
def dropBanks (g : Nat) (s : State) : State :=
  if shas s.engine.banks g then { s with engine := { s.engine with banks := sdel s.engine.banks g } } else s

/-! ### Running a pass -/

/-- Start a COMPACT's unit: it works without rows. -/
def startCompact (i : Nat) (u : UnitSt) (s : State) : State :=
  tilePut u.griddle ⟨i, u.step, u.unit, 0, 0, [], 0, 0, true, false, false, 0, 0, 0, 0, [], 0⟩ s

/-- Whether a unit's next pass may start: a gated unit's up pass waits for the gate's h, its down pass for the gate and the make-up
blocks (R156, R157). -/
def passReady (s : State) (r : Request) (u : UnitSt) : Bool :=
  if isCompact r then true
  else
    let rc := reqRecipe s r
    let d := stepOf rc u.step
    let st := stepGet r u.step
    if d.kind = 1 ∧ u.pass = 2 then
      match sfind st.active u.unit with
      | some a => (a.filter (fun b => !st.predicted.contains b)).all (fun b => (sget [] st.madeUp u.unit).contains b)
      | none => false
    else true

/-- Run the pass of a unit over what it works on, up to its drain. -/
def runTile (i : Nat) (r : Request) (u : UnitSt) (e : PassEnv) (l : List SegPrice) (s : State) : State :=
  match passStart s i e u with
  | .error p => stepFaultReplay 0x0106 .griddle (p.getD 0) i u.step 0 s
  | .ok t =>
    let y := matchPass u.griddle i r e u l s
    match y.1 with
    | .error f => useFault f u.griddle i u.step y.2
    | .ok ms =>
      let s := countTile t y.2
      let span := passSpan e u
      let b := max span.1 u.block
      let s := if span.1 < u.block then s
        else countPaths e.d u l (fun k => s.engine.overflow.contains (segKey i u k)) s
      let t := { t.counted with
        begunAt := b
        begun := t.subs }
      match runBlocks s r { e with matched := ms } b (span.1 + span.2 - b) t with
      | .error f => useFault f u.griddle i u.step s
      | .ok t => tilePut u.griddle { t with waitsDrain := true } s

/-- Run the pass a unit stands at, up to its drain. -/
def runPass (i : Nat) (r : Request) (u : UnitSt) (s : State) : State :=
  if isCompact r then startCompact i u s
  else
    let rc := reqRecipe s r
    let d := stepOf rc u.step
    match passEnv s r rc d u with
    | .error f => useFault f u.griddle i u.step s
    | .ok e => match tileChoices s r rc d u u.tile with
      | .error f => useFault f u.griddle i u.step s
      | .ok l => runTile i r u e l (stepMod i u.step (fun x => { x with whisk := x.whisk.or e.clips.2 }) s)

/-- A PAUSE or RESUME entry (R384). -/
def pauseEntry (kind i : Nat) (u : UnitSt) (point cause save block off remain : Nat) : Bytes :=
  entry kind (natLe 2 i ++ natLe 2 u.step ++ natLe 1 (u.griddle + 64 * point) ++ natLe 1 cause ++ natLe 2 save
    ++ natLe 4 block ++ natLe 4 off ++ natLe 4 remain ++ natLe 4 u.unit)

/-- The formats of a step's execution: those a replay keeps, or the tick's (R128, R414). -/
def dispatchFmt (s : State) (r : Request) (rc : RecipeD) (k : Nat) : Fmt :=
  match r.fmts.find? (fun x => x.1 == k) with
  | some x => x.2
  | none => stepFmt s (stepOf rc k)

/-- The price of a resumed unit's remaining passes (R239): the step's FixedCycles, and its current pass over the blocks that are left,
with the preload of its slot; a part of a gated step's pass costs its part of the pass (log 87). -/
def resumePrice (s : State) (r : Request) (u : UnitSt) : Nat × Nat :=
  let rc := reqRecipe s r
  let d := stepOf rc u.step
  let full := nth 0 u.prices u.done
  let rg := passRange d u
  let p := passD rc d u.pass
  let left := rg.1 + rg.2 - u.block
  ((costD rc d).fixed,
    if d.kind = 0 ∧ rg.1 < u.block then
      let w := if readsPages rc d then pageTerm rc d left else ceilDiv (p.bytes * left) (max 1 rg.2)
      min (full + 480) (passDense s rc d ((stepGet r u.step).fmt.getD .a8) { p with
        blocks := left
        bytes := w
        preload := true } u.tile (tileGeo s r rc d u u.tile).rows.length 0)
    else if d.kind = 1 ∧ 0 < u.block then (match passEnv s r rc d u with
      | .ok e =>
        let n := max 1 (passSpan e u).2
        ceilDiv (full * (n - u.block)) n + 480
      | .error _ => full)
    else full)

/-- Dispatch a unit: the step's format is taken, a paused unit resumes with its entry, and an IDLE chip is ACTIVE (R471). -/
def dispatch (i : Nat) (r : Request) (u : UnitSt) (s : State) : State :=
  let s := if s.boot.chip = .idle then { s with boot := { s.boot with chip := .active, idleBoundaries := 0, engineGated := false } }
    else s
  let s := if u.phase = .paused then addEntry (pauseEntry 0x04 i u 0 0 0xFFFF 0 (offsetNs s) 0) s else s
  let rc := reqRecipe s r
  let s := if isCompact r then s else stepMod i u.step (fun x => { x with
    fmt := x.fmt.orElse (fun _ => some (dispatchFmt s r rc u.step)) }) s
  let s := { s with sched := { s.sched with lateHeld := s.sched.lateHeld.filter (fun h => h != (i, u.step, u.unit)) } }
  let again := if u.phase = .paused ∧ ¬ isCompact r then some (resumePrice s r u) else u.again
  unitMod i u.step u.unit (fun u => { u with
    phase := .running
    again := again }) s

/-- Change a Whisk. -/
def whiskMod (n : Nat) (f : Whisk → Whisk) (s : State) : State :=
  { s with engine := { s.engine with whisks := supd {} s.engine.whisks n f } }

/-- Load the tables of a step's program into the free one of the Whisk's two table sets, while the step before may still drain with
the other (R180). -/
def loadTables (g i : Nat) (r : Request) (u : UnitSt) (s : State) : State :=
  if isCompact r then s
  else
    let d := stepOf (reqRecipe s r) u.step
    match physGriddle s g, progOf s r.cast d with
    | some p, some (h, k, _) => whiskMod p (fun w =>
        if w.sets.any (fun t => t.request == i && t.step == u.step) then w
        else
          let drains := w.sets.filter (fun t => (latchGet s g).any (fun x => x.request == t.request && x.step == t.step))
          let kept := if drains.isEmpty then w.sets.drop (w.sets.length - 1) else drains
          { w with sets := kept ++ [⟨i, u.step, progEnv s r.cast d h k⟩] }) s
    | _, _ => s

/-- Drop the table sets that a test picks. -/
def dropSets (f : TableSet → Bool) (s : State) : State :=
  { s with engine := { s.engine with
    whisks := s.engine.whisks.map (fun e => (e.1, { e.2 with sets := e.2.sets.filter (fun t => !f t) })) } }

/-- Run the next pass of a unit that runs. -/
def nextPass (i step unit : Nat) (s : State) : State :=
  match reqGet s i with
  | none => s
  | some r => match r.units.find? (fun u => u.step == step && u.unit == unit) with
    | some u => if passReady s r u then runPass i r u s else s
    | none => s

/-- The first fault that the headers of a unit's segments show when the Expediter reads them at dispatch (R149). -/
def headerFault (s : State) (r : Request) (u : UnitSt) : Option UseFault :=
  if isCompact r then none
  else
    let rc := reqRecipe s r
    let d := stepOf rc u.step
    (List.range (unitTiles rc d u)).findSome? (fun t => match tileChoices s r rc d u t with
      | .error f => some f
      | .ok _ => none)

/-- Dispatch a unit and run its pass, unless a header faults the step before (R149). -/
def startUnit (i : Nat) (r : Request) (u : UnitSt) (s : State) : State := match headerFault s r u with
  | some f => useFault f u.griddle i u.step s
  | none => nextPass i u.step u.unit (loadTables u.griddle i r u (dispatch i r u s))

/-- UNIT_ISSUE (R38, R376): the running unit's next pass, or the first ready unit of the queue. The latches may hold the tile before
(R81). -/
def doUnitIssue (g : Nat) (s : State) : State :=
  if ¬ alive s ∨ 64 ≤ g ∨ (physGriddle s g).isNone then s
  else match tileGet s g with
    | some t => if t.waitsDrain then s else go s
    | none => go s
where
  /-- Issue with no tile in the array that waits for its drain. -/
  go (s : State) : State := match runningOn s g with
    | some (i, _, u) => nextPass i u.step u.unit s
    | none => match (queueOf s g).find? (fun x => unitReady s x.1 x.2.1 x.2.2) with
      | some (i, r, u) => startUnit i r u s
      | none => s

/-! ### Trackers (R129 to R131) -/

/-- Change a step's tracker, before the check mark only (R129). -/
def trackerMod (ref : Nat) (f : Tracker → Tracker) (s : State) : State :=
  if s.time.phase = .sealed then s
  else { s with sched := { s.sched with trackers := supd {} s.sched.trackers ref f } }

/-- What a step's dispatch and tiles tell its tracker: its policy, that it ran, and in which format. -/
def trackerRan (rc : RecipeD) (d : StepD) (f : Fmt) (t : Tracker) : Tracker :=
  { t with
    adaptive := d.policy == 2
    fixed := if d.policy = 1 then .a4 else .a8
    a4Limit := d.a4Limit
    a8Limit := d.a8Limit
    ran := true
    ranA4 := t.ranA4 || f == .a4
    noSummary := t.noSummary || !hasSummary rc d.row }

/-- Note that a step of a request fed its tracker in this tick (R131). -/
def stepTracked (i k : Nat) (s : State) : State := stepMod i k (fun x => { x with tracked := some s.time.tickNo }) s

/-- Mark a request whose execution contributed to a distressed step (R131). -/
def distress (i : Nat) (s : State) : State := reqMod i (fun r => { r with distress := true }) s

/-- Whether an execution of the step `ref` of a request has drained a tile in this tick. -/
def fedStep (s : State) (r : Request) (ref : Nat) : Bool :=
  dKind r.desc == 0 && (r.steps.zipIdx).any (fun x => x.1.tracked == some s.time.tickNo
    && (stepOf (reqRecipe s r) x.2).ref == ref)

/-- PRECISION_DISTRESS reaches every request whose execution of the step contributed in the tick (R131). -/
def distressAll (ref : Nat) (s : State) : State :=
  s.sched.reqs.foldl (fun s e => if fedStep s e.2 ref then distress e.1 s else s) s

/-- SAT on a tile of a step raises its PRECISION_DISTRESS in the tick (R131). -/
def satDistress (ref : Nat) (sat : Bool) (s : State) : State :=
  let s := if sat then { s with sched := { s.sched with trackers := supd {} s.sched.trackers ref (fun t => { t with sat := true }) } }
    else s
  if (trackerGet s ref).sat then distressAll ref s else s

/-! ### The pass drain (R91, R108, R124 to R127) -/

/-- A withheld request runs on and completes at its commit with INEXACT (R126). -/
def withhold (i : Nat) (s : State) : State := reqMod i (fun r => if r.status = 0 then { r with status := 0x0001 } else r) s

/-- Whether a step's flags withhold its request: SAT or CHECK_NA in WITHHOLD, and BOUND_LAPSED of a split reduction (R126,
R329). -/
def withheld (d : StepD) (t : TileStatus) : Bool :=
  d.withhold && (t.sat || t.checkNa || (d.total != 0 && t.boundLapsed))

/-- The activity model outside service (R456): cell cycles of a pass on its physical Griddle. -/
def modelCells (g cycles : Nat) (f : Fmt) (s : State) : State := match physGriddle s g with
  | none => s
  | some p => modelEnergy (modelUnit 1 p) (match f with | .a4 => 1 | _ => 0) (57600 * cycles) s

/-- The activity model outside service (R456): a program's lane instructions on the 240 lanes of each block, on the Whisk of a
physical Griddle. -/
def modelLanes (g instrs blocks : Nat) (s : State) : State := match physGriddle s g with
  | none => s
  | some p => modelEnergy (modelUnit 2 p) 2 (240 * instrs * blocks) s

/-- A unit is done. -/
def finishUnit (i step unit : Nat) (s : State) : State := unitMod i step unit (fun u => { u with phase := .done }) s

/-- A step completes when every unit of it is done; a request when every step is. -/
def settleStep (i k : Nat) (s : State) : State :=
  match reqGet s i with
  | none => s
  | some r =>
    if (r.units.filter (fun u => u.step == k)).any (fun u => u.phase != .done) then s
    else
      let s := stepMod i k (fun x => { x with complete := true }) (dropSets (fun t => t.request == i && t.step == k) s)
      let s := { s with engine := { s.engine with
        saves := s.engine.saves.filter (fun e => !(e.2.request == i && e.2.step == k))
        overflow := s.engine.overflow.filter (fun e => !(e.request == i && e.step == k)) } }
      reqMod i (fun r => if r.steps.all (·.complete) then { r with finished := true } else r) s

/-- The number of passes of a unit's tile. -/
def tilePasses (rc : RecipeD) (d : StepD) : Nat := max 1 (costD rc d).passes

/-- The comparison of a tile's drain (R124, R125): none for an ELEMENT step, not applicable with SAT or CHECK_NA. -/
def passCompare (d : StepD) (planes : Bool) (t : SubTile) : Option Bool :=
  if d.kind ≥ 2 ∨ t.status.sat ∨ t.status.checkNa then none else some (t.rows.all (rowChecks planes))

/-- Count the comparisons made and those not applicable (R133). -/
def countCompares (d : StepD) (planes : Bool) (l : List SubTile) (s : State) : State :=
  if d.kind ≥ 2 then s
  else
    let n := (l.filter (fun x => (passCompare d planes x).isSome)).length
    addO (addO s oCheckCompareCount n) oCheckNaCount (l.length - n)

/-- The flags of a tile after its comparison: CHECK_NA with SAT. -/
def drainStatus (d : StepD) (t : TileStatus) : TileStatus := { t with checkNa := t.checkNa || (t.sat && decide (d.kind < 2)) }

/-- What the drained tiles of a pass tell their step and request: flags, tracker, distress and the integrity class. The least exponents
reach the tracker where the drain is the tiles' last (R127). -/
def noteDrain (i k : Nat) (rc : RecipeD) (d : StepD) (f : Fmt) (last : Bool) (l : List SubTile) (s : State) : State :=
  let s := l.foldl (fun s x => noteFlags i k x.status s) s
  let s := stepTracked i k (trackerMod d.ref (trackerRan rc d f) s)
  let s := satDistress d.ref (l.any (·.status.sat)) s
  let s := if last ∧ d.kind < 2 then
    trackerMod d.ref (fun x => { x with least := l.foldl (fun m y => optMin m y.least) x.least }) s else s
  if l.any (fun x => withheld d x.status) then withhold i s else s

/-- Count the programs' blocks, empty scopes and table edges of drained rows (R196). -/
def countProg (os : List RowOut) (s : State) : State :=
  let s := addO s oWhiskProgramBlockCount (sumN (os.map (fun o => o.vals.length / 240)))
  let s := addO s oWhiskEmptyCount (os.filter (fun o => o.wst.empty)).length
  addO s oWhiskTableEdgeCount (os.filter (fun o => o.wst.tabEdge)).length

/-! ### h of a gated step (R153 to R156) -/

/-- What the gate of a gated step drains to: its activation program, or nothing. -/
def gateEnv (s : State) (r : Request) (rc : RecipeD) (d : StepD) (g : TileGeo) : DrainEnv :=
  { rc := rc
    d := d
    g := g
    q := 127
    prog := (progOf s r.cast d).map (fun p => (p.1, progEnv s r.cast d p.1 p.2.1, p.2.2))
    key := fun c => ditherKey c d.ref (reqGeneration s r)
    fref := 0
    gate := true }

/-- h of a unit by neuron block and row, from what its gate tiles drained. -/
def gateH (d : StepD) (n : Nat) (os : List (List RowOut)) : List (List (List OutVal)) :=
  let w := tileParts d.stream
  (List.range n).map (fun nb => (nth [] os (nb / w)).map (fun o => (o.vals.drop (240 * (nb % w))).take 240))

/-- Form h when the gate has drained (R153): the program runs on each tile's rows, with side operands, masks and statistics. -/
def formGate (gr : Nat) (r : Request) (rc : RecipeD) (d : StepD) (u : UnitSt) (t : Tile) (s : State) : Bool × State :=
  let e := gateEnv s r rc d (tileGeo s r rc d u u.tile)
  match tileDrain s r e t.subs with
  | .error f => (false, useFault f gr t.request t.step s)
  | .ok os =>
    let l := os.flatten
    let w := l.foldl (fun x o => x.or o.wst) ({} : WStat)
    if w.check then (false, stepFaultReplay 0x0111 .whisk ((physGriddle s gr).getD 0) t.request t.step 0 s)
    else
      let s := if e.prog.isSome then countProg l s else s
      let s := stepMod t.request t.step (fun x => { x with
        h := sput x.h u.unit (gateH d (costD rc d).colTiles os)
        whisk := x.whisk.or w }) s
      (true, l.foldl (fun s o => writeStats r rc d o s) s)

/-- The rows of one neuron block of an assembled tile. -/
def neuronRows (p : Nat) (t : SubTile) : List RowAcc :=
  t.rows.map (fun x => { x with acc := (x.acc.drop (240 * p)).take 240, chk := [] })

/-- Keep the rows of u of the neuron blocks in a unit's up tiles. -/
def keepUps (unit : Nat) (chunks : List (List Nat)) (subs : List SubTile) (m : SMap (List RowAcc)) : SMap (List RowAcc) :=
  (chunks.zip subs).foldl (fun m x => (x.1.zipIdx).foldl (fun m y => sput m (upKey unit y.1) (neuronRows y.2 x.2)) m) m

/-! ### PASS_DRAIN -/

/-- The place of a unit after a pass that is not its tile's last: SPILL saves the tile, or leaves it in the array where no slot is free
(R108; log 83); a gated step's tiles are done. -/
def spill (g : Nat) (d : StepD) (u : UnitSt) (t : Tile) (s : State) : State :=
  let next := fun (s : State) => unitMod t.request t.step t.unit (fun u => { u with pass := u.pass + 1, block := 0 }) s
  if d.kind = 1 then next (tileDel g s)
  else
    let s := bump s oSpillPassCount
    match saveTile g u t s with
    | (some _, s) => next (tileDel g s)
    | (none, s) => next (tilePut g t s)

/-- After the last pass of a tile: it moves to the latches, and its unit goes on to its next tile, or drains (R81). -/
def latchTile (g : Nat) (rc : RecipeD) (d : StepD) (u : UnitSt) (t : Tile) (s : State) : State :=
  let s := latchPut g { t with waitsFinal := true } (dropBanks g (tileDel g s))
  unitMod t.request t.step t.unit (fun x =>
    if u.tile + 1 < unitTiles rc d u then { x with tile := u.tile + 1, pass := 0, block := 0, saveSlot := none }
    else { x with phase := .draining }) s

/-- The end of a COMPACT's unit. -/
def drainCompact (g : Nat) (t : Tile) (s : State) : State :=
  let s := unitMod t.request t.step t.unit (fun u => { u with done := u.prices.length }) (tileDel g s)
  settleStep t.request t.step (finishUnit t.request t.step t.unit s)

/-- What the gate's and the up product's drains give their step: h, and the rows of u. -/
def drainGated (g : Nat) (r : Request) (rc : RecipeD) (d : StepD) (u : UnitSt) (t : Tile) (s : State) : Bool × State :=
  if d.kind ≠ 1 ∨ 2 ≤ u.pass then (true, s)
  else
    let s := addO s oGriddleSatTileCount (t.subs.filter (·.status.sat)).length
    if u.pass = 0 then formGate g r rc d u t s
    else (true, stepMod t.request t.step (fun x => { x with
      ups := keepUps u.unit (chunksOf (tileParts d.stream) x.predicted) t.subs x.ups }) s)

/-- A pass drain that compares (R124 to R127). -/
def drainPass (g : Nat) (t : Tile) (r : Request) (u : UnitSt) (s : State) : State :=
  let rc := reqRecipe s r
  let d := stepOf rc u.step
  let f := ((stepGet r u.step).fmt).getD .a8
  let s := countCompares d t.planes t.subs (countTile t s)
  if t.subs.any (fun x => passCompare d t.planes x == some false) then
    stepFaultReplay 0x0110 .griddle ((physGriddle s g).getD 0) t.request t.step 0 s
  else
    let last := decide (tilePasses rc d ≤ u.pass + 1)
    let subs := t.subs.map (fun x => { x with status := drainStatus d x.status })
    let t := { t.counted with subs := subs, waitsDrain := false }
    let s := noteDrain t.request t.step rc d f (last || d.kind = 1) subs s
    let s := modelCells g (nth 0 u.prices u.done) f s
    let s := unitMod t.request t.step t.unit (fun u => { u with
      done := u.done + 1
      again := none }) s
    let y := drainGated g r rc d u t s
    if ¬ y.1 then y.2
    else if last then latchTile g rc d u t y.2
    else spill g d u t y.2

/-- PASS_DRAIN: the accumulators move to the latches, which must be free. -/
def doPassDrain (g at' : Nat) (s : State) : State :=
  match tileGet s g with
  | none => s
  | some t =>
    if ¬ t.waitsDrain ∨ (latchGet s g).isSome ∨ ¬ alive s then s
    else
      let s := atT at' s
      match reqGet s t.request with
      | none => s
      | some r =>
        if isCompact r then drainCompact g t s
        else match r.units.find? (fun u => u.step == t.step && u.unit == t.unit) with
          | some u => drainPass g t r u s
          | none => s

/-! ### Gate known, make-up (R156 to R159) -/

/-- Count a gated step's blocks: those that have become active, missed and wasted in an execution. -/
def gateCount (ref : Nat) (p a missed wasted : Nat) (s : State) : State :=
  let s := addO s oGatePredictedBlockCount p
  let s := addO s oGateActiveBlockCount a
  let s := addO s oGateWastedBlockCount wasted
  let s := addO s oGateMakeUpBlockCount missed
  { s with sched := { s.sched with gates := supd {} s.sched.gates ref (fun g => { g with
    makeUp := g.makeUp + missed
    active := g.active + a }) } }

/-- GATE_KNOWN: the gate's drain and h of a unit are complete, and its part of A is what h gives (R153, R156). A block counts once in
an execution: as active and missed when the first unit finds it, as wasted when no unit is left that might. -/
def doGateKnown (i k u : Nat) (act : List Nat) (s : State) : State :=
  match reqGet s i with
  | none => s
  | some r =>
    let st := stepGet r k
    match sfind st.h u with
    | none => s
    | some h =>
      if (sfind st.active u).isSome ∨ activeOf h ≠ act then s
      else
        let before := (st.active.map (·.2)).flatten
        let new := act.filter (fun b => !before.contains b)
        let units := (r.units.filter (fun x => x.step == k)).length
        let wasted := if st.active.length + 1 = units then
          (st.predicted.filter (fun b => !(before ++ act).contains b)).length else 0
        let s := gateCount (stepOf (reqRecipe s r) k).ref (if st.active.isEmpty then st.predicted.length else 0) new.length
          (new.filter (fun b => !st.predicted.contains b)).length wasted s
        stepMod i k (fun x => { x with active := sput x.active u act }) s

/-- The tile of a missed neuron block, accumulated. -/
def makeUpTile (s : State) (i : Nat) (r : Request) (rc : RecipeD) (d : StepD) (u : UnitSt) (b : Nat) : Except UseFault Tile := do
  let u := { u with pass := 1 }
  let e ← passEnv s r rc d u
  let e := { e with chunks := [[b]] }
  runBlocks s r e 0 d.reduce (freshTile s i e u)

/-- MAKE_UP_ARRIVAL: the up weights of a missed block are there, and its up product is formed, compared and drained like any tile (R96,
R124 to R126, R156). -/
def doMakeUp (i k u b : Nat) (s : State) : State :=
  match reqGet s i with
  | none => s
  | some r =>
    let st := stepGet r k
    match sfind st.active u, r.units.find? (fun x => x.step == k && x.unit == u) with
    | some a, some un =>
      if ¬ a.contains b ∨ st.predicted.contains b ∨ (sget [] st.madeUp u).contains b ∨ r.finished then s
      else
        let rc := reqRecipe s r
        let d := stepOf rc k
        match makeUpTile s i r rc d un b with
        | .error e => useFault e un.griddle i k s
        | .ok t =>
          let s := countCompares d false t.subs (countTile t s)
          if t.subs.any (fun x => passCompare d false x == some false) then
            stepFaultReplay 0x0110 .griddle ((physGriddle s un.griddle).getD 0) i k 0 s
          else
            let subs := t.subs.map (fun x => { x with status := drainStatus d x.status })
            let s := noteDrain i k rc d (st.fmt.getD .a8) true subs s
            let s := addO s oGriddleSatTileCount (subs.filter (·.status.sat)).length
            stepMod i k (fun x => { x with
              madeUp := supd [] x.madeUp u (fun l => l ++ [b])
              ups := keepUps u [[b]] subs x.ups }) s
    | _, _ => s

/-! ### The match unit (R143, R145) -/

/-- The segments of a unit's tile that run SxS and whose tables are neither built nor abandoned, from the pass it stands at on. -/
def unbuilt (s : State) (g i : Nat) (d : StepD) (u : UnitSt) (l : List SegPrice) : List (Nat × (Nat × Nat)) :=
  let from' := if d.resident then 0 else u.pass
  (((((segmentsOf d).zip l).zipIdx).filter (fun x => x.1.2.path == .sxs && decide (from' ≤ x.2)
    && !s.engine.overflow.contains (segKey i u x.2)
    && !(sget [] s.engine.banks g).any (fun b => b.key == segKey i u x.2))).map (fun x => (x.2, x.1.1)))

/-- MATCH_BUILD_COMPLETE: the build of the running tile's next SxS segment, which overlaps the lookups of the segment before, is
complete, or is abandoned where a lane's set and stash are both full (R143 to R145). -/
def doMatchBuild (g : Nat) (s : State) : State :=
  match runningOn s g with
  | none => s
  | some (i, r, u) =>
    if isCompact r then s
    else
      let rc := reqRecipe s r
      let d := stepOf rc u.step
      match tileChoices s r rc d u u.tile with
      | .error f => useFault f g i u.step s
      | .ok l => match unbuilt s g i d u l with
        | [] => s
        | (k, seg) :: _ => match passEnv s r rc d u with
          | .error f => useFault f g i u.step s
          | .ok e =>
            let y := matchLanes g i r e u k seg.1 seg.2 s
            match y.1 with
            | .error f => useFault f g i u.step y.2
            | .ok _ => y.2

/-! ### Meanings -/

/-- UNIT_ISSUE. -/
def execUnitIssue (g : Nat) (s : State) : Host.Outcome State Fault Refusal := .next (doUnitIssue g s)

/-- MATCH_BUILD_COMPLETE. -/
def execMatchBuildComplete (g t : Nat) (s : State) : Host.Outcome State Fault Refusal := .next (doMatchBuild g (atT t s))

/-- GATE_KNOWN. -/
def execGateKnown (i k u : Nat) (act : List Nat) (s : State) : Host.Outcome State Fault Refusal :=
  .next (doGateKnown i k u act s)

/-- MAKE_UP_ARRIVAL. -/
def execMakeUpArrival (i k u b : Nat) (s : State) : Host.Outcome State Fault Refusal := .next (doMakeUp i k u b s)

end Sys2Proof.Machine
end

