-- ==== Sys2Proof/Machine/Drain.lean ====
section
/-! DEFINITION. The effects of a tile's final drain: outputs, statistics, summaries, trackers, scores and KV appends; and
TOKEN_SELECT (R101, R106, R128 to R131, R188, R195, R196, R205, R206, R217, R339 to R341). -/

namespace Sys2Proof.Machine

open Sys2Proof

/-! ### Effects of a drained tile -/

/-- Parts of a tile that an output tensor takes: all, or the first of a value step's. -/
def partsOut (rc : RecipeD) (d : StepD) : Nat :=
  if (costD rc d).unitKind = 1 then chunkBlocks rc d else tileParts d.stream

/-- Write a row's blocks to the output tensor in its layout (R65 to R67, R101). -/
def writeRow (r : Request) (rc : RecipeD) (d : StepD) (o : RowOut) (s : State) : State := match tensorAt rc d.out with
  | none => s
  | some t =>
    if tensorRows t r.entries ≤ o.t.out then s
    else
      let f := fmtOf t.format
      let n := if t.slotted then slotBytes f else blockBytes f
      ((o.packed.zipIdx).take (partsOut rc d)).foldl (fun s x =>
        let blk := o.blk + x.2
        if t.blocks ≤ blk then s
        else
          let b : Block := ⟨(x.1.map (·.elems)).flatten, x.1.map (·.exp)⟩
          let bytes := if t.slotted then slotBlock f t.threshold b else denseBlock f b
          placeWrite t.hint (tensorPlace r t d.out) (o.t.out * t.stride + blk * n) bytes s) s

/-- The exponents of a row's non-zero output groups, joined to those its earlier tiles had (R101). -/
def noteRow (o : RowOut) (m : SMap (Int × Int)) : SMap (Int × Int) :=
  let es := (o.packed.flatten.filter (fun x => x.elems.any (· != 0))).map (·.exp)
  es.foldl (fun m e => match sfind m o.t.out with
    | some x => sput m o.t.out (min x.1 e, max x.2 e)
    | none => sput m o.t.out (e, e)) m

/-- The score step whose layout a step's columns have: the step itself, or, for an ELEMENT step, the last score step before it
(R200, R217; log 85). -/
def scoreStep (rc : RecipeD) (k : Nat) : Option StepD :=
  if isScore rc (stepOf rc k) then some (stepOf rc k)
  else if (stepOf rc k).kind = 2 then ((rc.steps.take k).filter (isScore rc)).getLast? else none

/-- The deltas of part p of some rows of a tile: the ITOL of each packed element, folded by column in row order, apart for each
context and each query position of a VERIFY entry. Column j is slot j mod 60 of page ix + j/60 of its context's table. -/
def partDeltas (s : State) (r : Request) (layer ix p order : Nat) (os : List RowOut) : List Delta :=
  let posOf := fun (o : RowOut) => if (nth ⟨0, 0, 0, 0, 0⟩ r.entries o.t.entry).role = 2 then o.t.pos else 0
  let elem := fun (o : RowOut) (j : Nat) => match (nth [] o.packed p)[j / 60]? with
    | some x => (itolAt (nth 0 x.elems (j % 60)) x.exp).1
    | none => 0
  ((os.map (fun o => (o.t.ctx, posOf o))).eraseDups.map (fun q => (List.range 240).filterMap (fun j => do
    let c ← kvCtx s q.1
    let page ← (nth [] c.tables layer)[ix + j / 60]?
    let pg ← pageGet s page.1
    let code := (os.filter (fun o => o.t.ctx == q.1 && posOf o == q.2)).foldl (fun c o => (l16Add c (elem o j)).1) 0
    if code = 0 ∨ pg.slots.length ≤ j % 60 then none
    else some ⟨q.1, layer, 64 * page.1 + j % 60, q.2, order, code⟩))).flatten

/-- The score contributions of a tile's rows (R217), where its step is marked as the layer's source. -/
def scoreDeltas (s : State) (r : Request) (rc : RecipeD) (k : Nat) (d : StepD) (g : TileGeo) (u : UnitSt) (os : List RowOut) :
    List Delta := match scoreStep rc k with
  | none => []
  | some sc =>
    if ¬ d.scoreSource then []
    else if isScore rc d then
      ((List.range (tileParts d.stream)).map (fun p =>
        partDeltas s r (kvLayerOf rc sc) (chunkPages d.stream * g.chunk + 4 * p) p (u.unit * 65536 + g.chunk) os)).flatten
    else
      let blk := (os.map (·.blk)).headD 0
      ((List.range (tileParts d.stream)).map (fun p =>
        let b := blk + p
        partDeltas s r (kvLayerOf rc sc) (4 * (b % max 1 sc.outBlocks)) p (b / max 1 sc.outBlocks * 65536 + u.unit) os)).flatten

/-- A group's contribution to the step's tracker (R129). -/
def trackGroup (d : StepD) (accs : List Int) (clip : Bool) (t : Tracker) : Tracker :=
  if accs.all (· == 0) then t
  else
    let rho := trackerRatio accs
    { t with
      total := t.total + 1
      unsafeA4 := t.unsafeA4 + (if (d.ratio : Int) < rho then 1 else 0)
      unsafeA8 := t.unsafeA8 + (if (d.ratio : Int) + 2048 < rho ∨ clip then 1 else 0) }

/-- A drained row's groups in the tracker. -/
def trackRow (d : StepD) (o : RowOut) (t : Tracker) : Tracker :=
  let clips := o.packed.flatten.map (·.clip)
  (List.range (o.accs.length / 60)).foldl (fun t g =>
    trackGroup d ((o.accs.drop (60 * g)).take 60) (nth false clips g) t) t

/-- Count the groups of drained rows (R106, R121): a zero group is exact, for its error is zero (R100); a group packed from L16 has
no s and counts as exact only where it is zero (log 86). -/
def countDrain (os : List RowOut) (s : State) : State :=
  let gs := (os.map (fun o => o.packed.flatten)).flatten
  let s := addO s oDrainGroupCount gs.length
  let s := addO s oDrainExactGroupCount (gs.filter (·.exact)).length
  let s := addO s oDrainClipCount (gs.filter (·.clip)).length
  addO s oFusedNarrowCount (sumN (os.map (·.narrow)))

/-! ### KV appends at the end of a step (R205, R206) -/

/-- The values a step keeps for its append, by row place and block. -/
def keepVals (os : List RowOut) (m : SMap (List OutVal)) : SMap (List OutVal) :=
  os.foldl (fun m o => (List.range (o.vals.length / 240)).foldl (fun m p =>
    sput m (o.t.place * 1024 + o.blk + p) ((o.vals.drop (240 * p)).take 240)) m) m

/-- The output values of a row that its tiles have kept. -/
def keptRow (m : SMap (List OutVal)) (place width : Nat) : List OutVal :=
  (((List.range (ceilDiv width 240)).map (fun b => sget [] m (place * 1024 + b))).flatten).take width

/-- Open the slots of rows, from a reservation. -/
def openRows (layer : Nat) (rows : List (Row × Nat)) (res : List Nat) (s : State) :
    List (Nat × Nat × Row × Nat) × List Nat × State :=
  rows.foldl (fun x r =>
    let o := openSlot r.1.ctx layer r.1.pos x.2.1 x.2.2
    match o.1 with
    | some p => (x.1 ++ [(p.1, p.2, r.1, r.2)], o.2.1, o.2.2)
    | none => (x.1, o.2.1, o.2.2)) ([], res, s)

/-- Append the keys or values of a step's rows: their slots are opened from the request's reservation, then the keys of each row are
written, or the values of all of them, whose exponents the whole step fixes (R205, R206). -/
def appendRows (i k : Nat) (r : Request) (d : StepD) (t : TensorD) (q : Nat) (m : SMap (List OutVal)) (width : Nat)
    (rows : List (Row × Nat)) (s : State) : State :=
  let key := fun (c : Nat) => ditherKey c d.ref (reqGeneration s r)
  let res := match reqGet s i with
    | some x => x.reserved
    | none => []
  let o := openRows t.layer rows res s
  let s := reqMod i (fun x => { x with reserved := o.2.1 }) o.2.2
  if t.storage = 2 then
    o.1.foldl (fun s x =>
      let y := appendK x.1 x.2.1 q (fun j => dither64 (key x.2.2.1.ctx) (ditherCtr x.2.2.1.pos j 0))
        (keptRow m x.2.2.2 width) s
      let s := addO y.2 oDrainGroupCount y.1.length
      let s := addO s oDrainExactGroupCount (y.1.filter (·.exact)).length
      if y.1.any (·.clip) then noteFlags i k { drainClip := true } (addO s oDrainClipCount (y.1.filter (·.clip)).length)
      else s) s
  else
    let y := appendV q (fun n j => match o.1[n]? with
      | some x => dither64 (key x.2.2.1.ctx) (ditherCtr x.2.2.1.pos j 0)
      | none => 0) (o.1.map (fun x => (x.1, x.2.1, keptRow m x.2.2.2 width))) s
    let s := addO y.2 oKvVClipCount y.1
    if y.1 = 0 then s else noteFlags i k { drainClip := true } s

/-- The append of a whole step. -/
def appendStep (i k : Nat) (r : Request) (rc : RecipeD) (d : StepD) (s : State) : State := match tensorAt rc d.out with
  | none => s
  | some t =>
    let st := stepGet r k
    stepMod i k (fun x => { x with kvVals := [] })
      (appendRows i k r d t (fmtQ (st.fmt.getD .a8)) st.kvVals (rc.kvHeads * rc.headDim) (stepRows rc d r.entries).zipIdx s)

/-! ### The row exponent summary at a step's end (R72, R101) -/

/-- The rows of the output tensor that a step writes. -/
def outRows (r : Request) (rc : RecipeD) (d : StepD) : List Nat :=
  if (costD rc d).unitKind = 1 ∧ isTransposed rc d then List.range (rc.kvHeads * rc.headDim)
  else ((stepRows rc d r.entries).zipIdx.map (fun x => rowPlace rc d r.entries d.out x.2)).eraseDups

/-- A summary burst with the entries of the rows a step wrote; the others keep a valid entry or read as all zero. -/
def summaryBurst (old : Bytes) (rows k : Nat) (mine : Nat → Option RowSummary) : Bytes :=
  withCrc (padTo 62 ((List.range (min 15 (rows - 15 * k))).flatMap (fun j =>
    match mine (15 * k + j) with
    | some m => summaryEntry m
    | none => if crcOk old then sub old (4 * j) 4 else summaryEntry ⟨0, 0, true⟩)))

/-- Write the summary of a step's output tensor. -/
def writeSummary (i k : Nat) (r : Request) (rc : RecipeD) (d : StepD) (s : State) : State := match tensorAt rc d.out with
  | none => s
  | some t =>
    if ¬ t.summary ∨ d.outKind ≠ 0 then s
    else
      let rows := tensorRows t r.entries
      let wrote := (outRows r rc d).filter (· < rows)
      let exps := match reqGet s i with
        | some x => (stepGet x k).rowExps
        | none => []
      let mine := fun x => if wrote.contains x then some (match sfind exps x with
        | some e => (⟨e.1, e.2, false⟩ : RowSummary)
        | none => ⟨0, 0, true⟩) else none
      let p := summaryPlaceOf rc r t d.out
      (List.range (ceilDiv rows 15)).foldl (fun s b =>
        if wrote.any (fun x => x / 15 == b) then
          let old := match (placeRead .normal p (64 * b) 64 s).1 with
            | .ok x => x
            | .error _ => []
          placeWrite t.hint p (64 * b) (summaryBurst old rows b mine) s
        else s) s

/-- The end of a step: its summary or its append, the count of its clips, then completion (R101, R196, R205, R339). -/
def endStep (i k : Nat) (s : State) : State :=
  match reqGet s i with
  | none => s
  | some r =>
    if (r.units.filter (fun u => u.step == k)).any (fun u => u.phase != .done) then s
    else
      let rc := reqRecipe s r
      let d := stepOf rc k
      let s := if d.outKind = 1 then appendStep i k r rc d s else writeSummary i k r rc d s
      let s := if (stepGet r k).whisk.clip then bump s oWhiskClipStepCount else s
      settleStep i k s

/-! ### FINAL_DRAIN -/

/-- What the final drain of a tile needs. Where the output tensor's Format is not the one that the step's policy has taken, the lesser
range of the two is packed, in the tensor's layout (log 84). The tables are those the Whisk has loaded (R180). -/
def drainEnv (s : State) (gr : Nat) (r : Request) (rc : RecipeD) (d : StepD) (u : UnitSt) (f : Fmt) (t : Tile) : DrainEnv :=
  let q := match tensorAt rc d.out with
    | some o => if o.format = 2 then 7 else fmtQ f
    | none => fmtQ f
  let loaded := match physGriddle s gr with
    | some p => (sget ({} : Whisk) s.engine.whisks p).sets.find? (fun (x : TableSet) => x.request == t.request && x.step == t.step)
    | none => none
  { rc := rc
    d := d
    g := tileGeo s r rc d u t.tile
    q := q
    prog := if d.kind = 1 then none else (progOf s r.cast d).map (fun p =>
      (p.1, (loaded.map (·.env)).getD (progEnv s r.cast d p.1 p.2.1), p.2.2))
    key := fun c => ditherKey c d.ref (reqGeneration s r)
    fref := if t.planes then t.fref else 0
    gate := false }

/-- The frames that a tile's first rows load: up to 16 rows of a Dense tile, or 2 rows of 8 blocks of a Stream tile (R161,
R163). -/
def firstFrames (s : State) (r : Request) (e : DrainEnv) (t : SubTile) : SMap Frame :=
  let parts := tileParts e.d.stream
  (((e.g.rows.zip t.rows).zipIdx).take (16 / parts)).foldl (fun m x =>
    let blk := if e.d.kind = 0 then x.1.1.outBlk else 0
    (List.range parts).foldl (fun m p => match partIn s r e 0 x.1.1 blk x.1.2 p with
      | .ok y => sput m (parts * x.2 + p) (partFrame e x.1.1 (blk + p) p parts y)
      | .error _ => m) m) []

/-- The request and unit of a tile. -/
def tileOwner (s : State) (t : Tile) : Option (Request × UnitSt) :=
  (reqGet s t.request).bind (fun r => (r.units.find? (fun u => u.step == t.step && u.unit == t.unit)).map (fun u => (r, u)))

/-- Load the Whisk of a Griddle as a final drain with an element program starts (R162, R163). -/
def loadWhisk (gr : Nat) (s : State) : State :=
  match latchGet s gr, physGriddle s gr with
  | some t, some p => (match tileOwner s t with
    | some (r, u) =>
      let rc := reqRecipe s r
      let e := drainEnv s gr r rc (stepOf rc t.step) u (((stepGet r t.step).fmt).getD .a8) t
      (match e.prog, t.subs with
        | some (_, env, _), x :: _ => whiskMod p (fun k => { k with
            frames := firstFrames s r e x
            env := env
            status := {} }) s
        | _, _ => s)
    | none => s)
  | _, _ => s

/-- Clear the frames of a Griddle's Whisk: but for the table sets it holds nothing between drains (R194). -/
def clearWhisk (gr : Nat) (s : State) : State := match physGriddle s gr with
  | some p => if shas s.engine.whisks p then whiskMod p (fun w => { sets := w.sets }) s else s
  | none => s

/-- What the drained rows of one tile give: its flags, with those of fusion and of the packer. -/
def drainedStatus (x : SubTile) (os : List RowOut) : TileStatus :=
  { x.status with
    sat := x.status.sat || os.any (·.sat)
    drainClip := x.status.drainClip || os.any (fun o => o.packed.any (fun l => l.any (·.clip))) }

/-- What the final drain of a tile leaves in its step: flags, status, exponents for the summary, values for an append. -/
def noteRows (i k : Nat) (d : StepD) (ts : List TileStatus) (os : List RowOut) (s : State) : State :=
  let w := os.foldl (fun x o => x.or o.wst) ({} : WStat)
  stepMod i k (fun x => { x with
    whisk := x.whisk.or w
    rowExps := os.foldl (fun m o => noteRow o m) x.rowExps
    kvVals := if d.outKind = 1 then keepVals os x.kvVals else x.kvVals }) (ts.foldl (fun s t => noteFlags i k t s) s)

/-- The effects of a tile whose rows have drained: counts, flags, the tracker, distress, deltas, then what is written. -/
def applyDrain (r : Request) (u : UnitSt) (t : Tile) (e : DrainEnv) (l : List (List RowOut)) (s : State) : State :=
  let i := t.request
  let os := l.flatten
  let s := match e.prog with
    | some p => modelLanes u.griddle p.2.2.length (sumN (os.map (fun o => o.vals.length / 240))) s
    | none => s
  let ts := (t.subs.zip l).map (fun x => drainedStatus x.1 x.2)
  let s := addO (countDrain os s) oGriddleSatTileCount (ts.filter (·.sat)).length
  let s := noteRows i t.step e.d ts os (if e.prog.isSome then countProg os s else s)
  let s := if e.d.kind < 2 then
    stepTracked i t.step (trackerMod e.d.ref (fun x => os.foldl (fun x o => trackRow e.d o x) x) s) else s
  let s := satDistress e.d.ref (os.any (·.sat)) s
  let s := if e.d.withhold ∧ os.any (·.sat) then withhold i s else s
  let ds := (l.map (scoreDeltas s r e.rc t.step e.d e.g u)).flatten
  let s := reqMod i (fun x => { x with deltas := x.deltas ++ ds }) s
  os.foldl (fun s o => writeStats r e.rc e.d o (writeRow r e.rc e.d o s)) s

/-- After a tile has drained: the end of a unit that drained its last, and perhaps of its step. -/
def drained (rc : RecipeD) (d : StepD) (u : UnitSt) (t : Tile) (s : State) : State :=
  if u.phase = .draining ∧ unitTiles rc d u ≤ t.tile + 1 then endStep t.request t.step (finishUnit t.request t.step t.unit s)
  else s

/-- FINAL_DRAIN (R97 to R101): the final drain of the tile in the latches of a Griddle. A check of the Whisk that fails withholds what
would be written (R193). -/
def doFinalDrain (gr : Nat) (s : State) : State :=
  match latchGet s gr with
  | none => s
  | some t =>
    if ¬ alive s then s
    else match tileOwner s t with
      | none => s
      | some (r, u) =>
        let rc := reqRecipe s r
        let d := stepOf rc t.step
        let e := drainEnv s gr r rc d u (((stepGet r t.step).fmt).getD .a8) t
        match tileDrain s r e t.subs with
        | .error f => useFault f gr t.request t.step s
        | .ok l =>
          if l.flatten.any (·.wst.check) then
            stepFaultReplay 0x0111 .whisk ((physGriddle s gr).getD 0) t.request t.step 0 s
          else drained rc d u t (latchDel gr (applyDrain r u t e l (clearWhisk gr s)))

/-! ### TOKEN_SELECT (R341) -/

/-- The tile's burst of a row in a statistics tensor: the first block's where it was written per block (R188, R341). -/
def statAt (per : Bool) (tile : Nat) : Nat := if per then 8 * tile else tile

/-- How a statistics tensor was written: the tiles, the columns of a tile, and whether per block. -/
def statLayout (s : State) (r : Request) (rc : RecipeD) (ix : Nat) : Nat × Nat × Bool :=
  match rc.steps.find? (fun d => d.stats == ix) with
  | some d => match progOf s r.cast d with
    | some (h, _, p) => (d.colTiles, tileCols d.stream, d.stream && (blockSlots p).any (fun x => bits h.statMask x 1 == 1))
    | none => (d.colTiles, tileCols d.stream, false)
  | none => (1, 240, false)

/-- One tile's slots of a row: the greatest value, its index, and whether it is empty. -/
def selectRead (s : State) (r : Request) (t : TensorD) (ix row : Nat) (per : Bool) (tile : Nat) :
    Except UseFault (Nat × Nat × Bool) :=
  match tensorBytes s r t ix (row * t.stride + 64 * statAt per tile) 64 with
  | .error e => .error e
  | .ok b => if crcOk b then .ok (fld b 0 2, fld b 8 2, bits (fld b 0 8) 59 1 == 1) else .error (useData (reqRecipe s r) t ix .burstCrc)

/-- The token of a row: the first tile with the greatest slot-0 value gives n0 and slot 1 (R341). -/
def selectToken (cols : Nat) (l : List (Nat × Nat × Bool)) : Nat :=
  if l.all (fun x => x.2.2) then 0xFFFFFFFF
  else
    let best := l.foldl (fun (b : Option (Nat × Nat × Nat) × Nat) x => (match b.1 with
      | none => some (x.1, x.2.1, b.2)
      | some y => if l16Key y.1 < l16Key x.1 then some (x.1, x.2.1, b.2) else some y, b.2 + 1)) (none, 0)
    match best.1 with
    | some y => cols * y.2.2 + y.2.1
    | none => 0xFFFFFFFF

/-- The tokens of a step's rows by row place, from the statistics that the row operand holds (R341). -/
def selectRows (s : State) (r : Request) (rc : RecipeD) (d : StepD) (t : TensorD) : Except UseFault (List (Nat × Nat)) :=
  let (tiles, cols, per) := statLayout s r rc d.row
  ((stepRows rc d r.entries).zipIdx).mapM (fun (x : Row × Nat) =>
    match (List.range tiles).mapM (selectRead s r t d.row x.1.ix per) with
    | .ok l => .ok (x.2, selectToken cols l)
    | .error e => .error e)

/-- Whether the phase of the tick lets a TOKEN_SELECT issue (R34, R38): before the admit mark only for a request admitted in an earlier
tick, after the late mark only for a LIVE one. -/
def selectAllowed (s : State) (r : Request) : Bool := match s.time.phase with
  | .window => decide (r.admitTick < s.time.tickNo)
  | .late => dClass r.desc == 0
  | _ => true

/-- TOKEN_SELECT of a step whose dependencies are complete. -/
def doTokenSelect (i k : Nat) (s : State) : State :=
  match reqGet s i with
  | none => s
  | some r =>
    let rc := reqRecipe s r
    let d := stepOf rc k
    if isCompact r ∨ r.steps.length ≤ k ∨ d.kind ≠ 3 ∨ (stepGet r k).complete ∨ r.finished ∨ ¬ depsDone r d ∨ ¬ alive s
      ∨ ¬ inputsDone r rc k d ∨ ¬ selectAllowed s r ∨ ¬ r.waitSector.isEmpty ∨ (tenantGet s r.tenant).resetting then s
    else match tensorAt rc d.row, tensorAt rc d.out with
      | some t, some o =>
        match selectRows s r rc d t with
        | .error e => useFault e 0 i k s
        | .ok toks =>
          let s := toks.foldl (fun s x =>
            let row := rowPlace rc d r.entries d.out x.1
            if tensorRows o r.entries ≤ row then s
            else placeWrite o.hint (tensorPlace r o d.out) (row * o.stride) (natLe 4 x.2) s) s
          settleStep i k s
      | _, _ => settleStep i k s

/-- PASS_DRAIN: after the last pass of a tile the Whisk loads its frames. -/
def execPassDrain (g t : Nat) (s : State) : Host.Outcome State Fault Refusal := .next (loadWhisk g (doPassDrain g t s))

/-- FINAL_DRAIN. -/
def execFinalDrain (g : Nat) (s : State) : Host.Outcome State Fault Refusal := .next (doFinalDrain g s)

/-- TOKEN_SELECT. -/
def execTokenSelect (i k : Nat) (s : State) : Host.Outcome State Fault Refusal := .next (doTokenSelect i k s)

end Sys2Proof.Machine
end

