-- ==== Sys2Proof/Machine/Commit.lean ====
section
/-! DEFINITION. The release of a commit set: tokens, completion records, notices, KV state, and the tenant reset (R41 step
1, R155, R216 to R223, R268, R300, R353 to R359, R382, R386, R404). -/

namespace Sys2Proof.Machine

open Sys2Proof

/-! ### Tokens and rounds (R221, R222, R341, R353) -/

/-- A token to release: its length-table entry, its context, its value, whether it is an accepted draft token. -/
structure Tok where
  entry : Nat
  ctx : Nat
  token : Nat
  accepted : Bool
deriving DecidableEq, Repr

/-- A speculative round: its VERIFY entry, both contexts, its draft and main tokens, w, a and P_acc (R222). -/
structure Round where
  entry : Nat
  main : Nat
  draft : Nat
  ds : List Nat
  ms : List Nat
  w : Nat
  a : Nat
  pacc : Nat
deriving DecidableEq, Repr

/-- The TOKENS values of an entry's rows in the output of the token step. -/
def entryTokens (s : State) (r : Request) (rc : RecipeD) (e : Nat) : List Nat :=
  match rc.steps[rc.tokenStep]? with
  | none => []
  | some d => match tensorAt rc d.out with
    | none => []
    | some t => ((rowList t 7 r.entries).filter (fun x => x.entry == e)).map (fun x =>
        match tensorBytes s r t d.out (x.ix * t.stride) 4 with
        | .ok b => leNat b
        | .error _ => 0)

/-- What stands in the way of reading the TOKENS values of a request that has run (R311, R319, R325). -/
def tokenFault (s : State) (r : Request) : Option UseFault :=
  let rc := reqRecipe s r
  match rc.steps[rc.tokenStep]? with
  | none => none
  | some d => match tensorAt rc d.out with
    | none => none
    | some t => (rowList t 7 r.entries).findSome? (fun x => match tensorBytes s r t d.out (x.ix * t.stride) 4 with
      | .ok _ => none
      | .error e => some e)

/-- The rounds of a request, one for each VERIFY entry with rows. -/
def roundsOf (s : State) (r : Request) (rc : RecipeD) : List Round :=
  (r.entries.zipIdx).filterMap (fun x =>
    let e := x.1
    if e.role ≠ 2 ∨ e.count = 0 then none
    else
      let ds := match r.entries.findIdx? (fun f => f.role == 1 && f.ctx == e.pair) with
        | some j => entryTokens s r rc j
        | none => []
      let ms := entryTokens s r rc x.2
      let w := e.count - 1
      let a := if rc.tokenMode = 0 then 0 else acceptedCount (ds.take w) ms
      some ⟨x.2, e.ctx, e.pair, ds, ms, w, a, e.start + a + 1⟩)

/-- The tokens a round releases: d_1 to d_a and m_(a+1). -/
def roundTokens (k : Round) : List Tok :=
  (k.ds.take k.a).map (fun d => ⟨k.entry, k.main, d, true⟩) ++ [⟨k.entry, k.main, nth 0 k.ms k.a, false⟩]

/-- The tokens a request that completes with OK releases, in entry order and then position order (R333, R350, R353). -/
def tokensOf (s : State) (r : Request) (rc : RecipeD) : List Tok :=
  match rc.tokenMode, rc.steps[rc.tokenStep]? with
  | 0, _ => []
  | _, none => []
  | m, some d =>
    let rounds := roundsOf s r rc
    ((r.entries.zipIdx).map (fun x =>
      if ¬ roleIn d.roles x.1.role ∨ x.1.count = 0 then []
      else match x.1.role with
        | 0 =>
          let l := entryTokens s r rc x.2
          (if m = 1 then l.drop (l.length - 1) else l).map (fun v => ⟨x.2, x.1.ctx, v, false⟩)
        | 2 => ((rounds.filter (fun k => k.entry == x.2)).map roundTokens).flatten
        | _ => [])).flatten

/-- What the release of one request does: its slot, the request, its tokens and rounds. -/
structure Release where
  slot : Nat
  req : Request
  toks : List Tok
  rounds : List Round
deriving DecidableEq, Repr

/-- Whether a request ran and completes with its results. -/
def withResults (r : Request) : Bool := !r.refused && r.status == 0

/-- What the release of a request does. -/
def releaseOf (s : State) (i : Nat) (r : Request) : Release :=
  if withResults r ∧ dKind r.desc = 0 ∧ ¬ idleRun r then
    let rc := reqRecipe s r
    ⟨i, r, tokensOf s r rc, roundsOf s r rc⟩
  else ⟨i, r, [], []⟩

/-! ### Order of release (R355) -/

/-- A ring's outstanding requests, in submission order. -/
def ringReqs (s : State) (t r : Nat) : List (Nat × Request) :=
  let c := (ringGet s t r).consumer
  (s.sched.reqs.filter (fun e => e.2.tenant == t && e.2.ring == r)).mergeSort (fun a b =>
    (a.2.index + 2 ^ 32 - c % 2 ^ 32) % 2 ^ 32 ≤ (b.2.index + 2 ^ 32 - c % 2 ^ 32) % 2 ^ 32)

/-- The tenants that have outstanding requests, increasing. -/
def busyTenants (s : State) : List Nat := natsWhere 1024 (fun t => s.sched.reqs.any (fun e => e.2.tenant == t))

/-- The requests of a commit set that a boundary releases, by tenant, ring and submission order: none behind one that is
not in the set. -/
def releasedOf (s : State) (set : List Nat) : List (Nat × Request) :=
  ((busyTenants s).map (fun t => ((List.range 4).map (fun r =>
    (ringReqs s t r).takeWhile (fun e => set.contains e.1 && e.2.finished))).flatten)).flatten

/-! ### Flags and the COMMIT entry (R354, R386) -/

/-- Whether a round changes its main context's width (R223). -/
def changesWidth (s : State) (k : Round) : Bool :=
  ((kvCtx (widthAfter k.main k.a k.w s) k.main).map (·.specWidth)) != ((kvCtx s k.main).map (·.specWidth))

/-- The Flags byte of a completion record. -/
def cplFlags (s : State) (x : Release) : Nat :=
  let bit := fun (b : Bool) (v : Nat) => if b then v else 0
  bit x.req.late 1 + bit x.req.missed 2 + bit x.req.distress 4 + bit (x.rounds.any (changesWidth s)) 8 + bit x.req.repinned 16

/-- The contexts that release tokens, in entry order, with their counts and first sequence numbers. -/
def tokenGroups (s : State) (x : Release) : List (Nat × Nat × Nat) :=
  ((x.toks.map (·.ctx)).eraseDups).map (fun c =>
    (c, (x.toks.filter (fun t => t.ctx == c)).length, ((kvCtx s c).map (·.tokenSeq)).getD 0))

/-- The COMMIT entry of a request. -/
def commitEntry (s : State) (x : Release) : Bytes :=
  let gs := tokenGroups s x
  entry 0x06 (natLe 2 x.slot ++ natLe 2 x.req.status ++ natLe 1 (cplFlags s x) ++ [0] ++ natLe 2 gs.length
    ++ (gs.map (fun g => natLe 2 g.1 ++ natLe 2 g.2.1 ++ zeros 4 ++ natLe 8 g.2.2)).flatten)

/-! ### KV state at commit (R155, R216 to R223) -/

/-- What a request's completion does to one context it names: whether its results commit, the layers whose scores are
updated, P_acc, the next position, and its round as a main context. -/
structure CtxAct where
  ctx : Nat
  slot : Nat
  ok : Bool
  layers : List Nat
  pacc : Option Nat
  next : Option Nat
  round : Option Round
  deltas : List Delta
deriving DecidableEq, Repr

/-- The layers in which an entry commits query positions: those whose keys a step over rows of its role scores (R197, R217). -/
def queryLayers (rc : RecipeD) (e : LenEntry) : List Nat :=
  if e.count = 0 then []
  else (((rc.steps.filter (fun d => isScore rc d && roleIn d.roles e.role)).map (kvLayerOf rc)).eraseDups).mergeSort (· ≤ ·)

/-- The action on an entry's context when the request's results commit. -/
def entryAct (x : Release) (rc : RecipeD) (e : LenEntry) : CtxAct :=
  let n := queryLayers rc e
  match e.role with
  | 0 => ⟨e.ctx, x.slot, true, n, none, some (e.start + e.count), none, x.req.deltas⟩
  | 2 => match x.rounds.find? (fun k => k.main == e.ctx) with
    | some k => ⟨e.ctx, x.slot, true, n, some k.pacc, some k.pacc, some k, x.req.deltas⟩
    | none => ⟨e.ctx, x.slot, false, [], none, none, none, []⟩
  | _ => match x.rounds.find? (fun k => k.draft == e.ctx) with
    | some k => ⟨e.ctx, x.slot, true, n, some k.pacc, some (min k.pacc (e.start + e.count)), none, x.req.deltas⟩
    | none => ⟨e.ctx, x.slot, false, [], none, none, none, []⟩

/-- The actions on the contexts a request names through its length table. -/
def ctxActs (s : State) (x : Release) : List CtxAct :=
  if x.req.refused ∨ dKind x.req.desc ≠ 0 then []
  else if withResults x.req then x.req.entries.map (entryAct x (reqRecipe s x.req))
  else x.req.entries.map (fun e => ⟨e.ctx, x.slot, false, [], none, none, none, []⟩)

/-- Resolve a round (R222, R223). -/
def resolveRound (k : Round) (s : State) : State :=
  widthAfter k.main k.a k.w (addO (bump s oSpecRoundCount) oSpecAcceptedTokenCount k.a)

/-- Set a context's TENTATIVE slots to COMMITTED, and clear those from P_acc on (R208, R216, R222). -/
def commitSlots (id : Nat) (pacc : Option Nat) (s : State) : State :=
  slotsMap id (fun k =>
    if k.st ≠ 3 then k
    else match pacc with
      | some p => if k.pos < p then { k with st := 1 } else k.clear
      | none => { k with st := 1 }) s

/-- Keep the VExp in force as what a later rollback restores. -/
def settleVExp (id : Nat) (s : State) : State := match kvCtx s id with
  | some c => (allOwn c).foldl (fun s n => pageMod n (fun p => { p with vBase := p.vExp }) s) s
  | none => s

/-- The order of R216 on one context. -/
def commitCtx (a : CtxAct) (s : State) : State :=
  let s := match a.round with
    | some k => resolveRound k s
    | none => s
  let s := if a.ok then commitSlots a.ctx a.pacc s else clearTentative a.ctx s
  let layers := match kvCtx s a.ctx with | some c => c.layers | none => 0
  let s := a.layers.foldl (fun s l => scoreLayer a.ctx l a.deltas a.pacc s) s
  let s := match a.next with
    | some p => (List.range layers).foldl (fun s l => evictLayer a.ctx l p s) s
    | none => s
  let s := freeEmpty a.ctx s
  let s := match a.next with
    | some p => kvCtxMod a.ctx (fun c => { c with nextPos := p }) s
    | none => s
  settleVExp a.ctx s

/-- The active neuron blocks of each context in the gated steps of a request: context, layer of history, blocks (R155). -/
def gateHistories (s : State) (x : Release) : List (Nat × Nat × List Nat) :=
  if ¬ withResults x.req ∨ dKind x.req.desc ≠ 0 then []
  else
    let rc := reqRecipe s x.req
    ((x.req.steps.zipIdx).map (fun k =>
      let d := stepOf rc k.2
      if d.kind ≠ 1 then []
      else
        let rows := ((x.req.units.filter (fun u => u.step == k.2)).map (fun u =>
          let h := sget [] k.1.h u.unit
          ((tileGeo s x.req rc d u u.tile).rows.zipIdx).map (fun t =>
            (t.1.ctx, natsWhere h.length (fun nb => (nth [] (nth [] h nb) t.2).any (fun v => !valZero v)))))).flatten
        ((rows.map (·.1)).eraseDups).map (fun c =>
          (c, gateLayer rc k.2, ((rows.filter (fun t => t.1 == c)).map (·.2)).flatten.eraseDups)))).flatten

/-- Write gate histories. -/
def noteHistories (l : List (Nat × Nat × List Nat)) (s : State) : State :=
  l.foldl (fun s x => kvCtxMod x.1 (fun c => { c with history := sput c.history x.2.1 (x.2.2.mergeSort (· ≤ ·)) }) s) s

/-- The effect of a context request at its commit (R220, R348). -/
def commitKind (x : Release) (s : State) : State :=
  if ¬ withResults x.req then s
  else match dKind x.req.desc with
    | 1 => createCtx (descId x.req.kvDesc) x.req.tenant x.req.kvDesc s
    | 2 => deleteCtx (dContext x.req.desc) s
    | 3 => ((List.range (dLayers x.req.desc)).foldl (fun y l =>
        compactLayer (dContext x.req.desc) (dFirstLayer x.req.desc + l) y.1 y.2) (x.req.reserved, s)).2
    | 4 => freezeCtx (dContext x.req.desc) s
    | _ => s

/-- KV state of the requests of a release, in increasing ContextId (R216). -/
def commitKv (xs : List Release) (s : State) : State :=
  let hs := (xs.map (gateHistories s)).flatten
  let acts := ((xs.map (ctxActs s)).flatten).mergeSort (fun a b => a.ctx ≤ b.ctx)
  let s := acts.foldl (fun s a => commitCtx a s) s
  noteHistories hs (xs.foldl (fun s x => commitKind x s) s)

/-! ### Records and notices (R353 to R357, R404) -/

/-- Give each token its sequence number, context by context, and write the token records. Answers their bytes. -/
def writeTokens (x : Release) (s : State) : Bytes × State :=
  let y := x.toks.foldl (fun (y : Bytes × State) t =>
    let seq := ((kvCtx y.2 t.ctx).map (·.tokenSeq)).getD 0
    (y.1 ++ natLe 4 t.token ++ natLe 2 t.entry ++ natLe 1 (if t.accepted then 1 else 0) ++ [0] ++ natLe 8 seq,
      kvCtxMod t.ctx (fun c => { c with tokenSeq := (seq + 1) % 2 ^ 64 }) y.2)) ([], s)
  if y.1.isEmpty then y else (y.1, tenantWrite .normal x.req.tenant (dTokens x.req.desc) y.1 y.2)

/-- The StepFlags of a request: the flags of its tiles and its Whisk status (R354). -/
def stepFlags (r : Request) : Nat :=
  let or := fun (f : StepSt → Nat) (n : Nat) => sumN ((List.range n).map (fun i =>
    if r.steps.any (fun x => bits (f x) i 1 == 1) then 2 ^ i else 0))
  or (·.flags) 5 + 32 * or (fun x => x.whisk.toWord) 3

/-- The Spec byte: the width in force after the round and its accepted tokens; where a request held several rounds, for which the
record has one byte, a free value of their widths and accepted tokens, so that equal rounds give equal records (R5, R354). -/
def specByte (x : Release) (s : State) : Nat := match x.rounds with
  | [] => 0
  | [k] => (((kvCtx s k.main).map (·.specWidth)).getD 0) % 16 + 16 * (k.a % 16)
  | ks => Config.specOf (ks.map (fun k => (((kvCtx s k.main).map (·.specWidth)).getD 0, k.a))) % 256

/-- Send a commit notice to a tenant's NoticeTarget (R357, R404). -/
def noticeTo (n : Nat) (record toks : Bytes) (s : State) : State :=
  let nt := natLe 8 (getO s (tkey oNoticeTarget n))
  let route := byteAt nt 0
  if route = 0 ∨ 2 < route then s
  else
    let room := if route = 1 then 252 else 558
    let short := decide (16 * room < toks.length)
    let head := natLe 2 n ++ zeros 14 ++ record ++ sub nt 4 4
    let s := linkBump 12 s
    if route = 1 then
      flowSend { newFrame s opNotice (fld nt 2 2) with
        lastFrame := true
        operand2 := if short then 1 else 0
        payload := toBursts (head ++ zeros 12 ++ toks.take (16 * room)) } s
    else
      let dest := getS s (oNoticeDest + fld nt 2 2)
      if 64 ≤ fld nt 2 2 then s
      else emit (.udp (byteAt dest 18) (dest.take 16) (fld dest 16 2)
        (head ++ zeros 8 ++ natLe 4 (if short then 1 else 0) ++ toks.take (16 * room))) s

/-- The commit notice of a request that asks for one. -/
def sendNotice (x : Release) (record toks : Bytes) (s : State) : State :=
  if dNotify x.req.desc then noticeTo x.req.tenant record toks s else s

/-- Write the records of one request: tokens, its completion record, its notice. The flags are those of the state before
the widths changed. -/
def writeRecords (tick : Nat) (flags : Nat) (x : Release) (s : State) : State :=
  let y := writeTokens x s
  let rec' := cplRecord (fld x.req.desc 8 8) x.req.status x.req.ring (if x.req.refused then 0 else flags) (stepFlags x.req)
    (specByte x y.2) tick x.toks.length (x.req.index % 65536)
  sendNotice x rec' y.1 (cplPut x.req.tenant rec' y.2)

/-- A request leaves: its pins, pages, scratch, Griddle resources and image are released (R211, R268, R300, R428). -/
def dropRequest (i : Nat) (r : Request) (s : State) : State :=
  let s := releaseUnits i s
  let run := !r.refused && dKind r.desc == 0
  let s := if run then castMod r.cast (fun c => { c with pins := c.pins - 1 }) s else s
  let s := match r.var with
    | some v => if run then varMod v (fun k => { k with pins := k.pins - 1 }) s else s
    | none => s
  flushParts { s with
    sched := { s.sched with
      reqs := sdel s.sched.reqs i
      commitSet := s.sched.commitSet.filter (· != i) }
    mirror := { s.mirror with imagesHeld := s.mirror.imagesHeld.filter (fun x => x.1 != i) } }

/-- The requests of a set that R355 holds, counted once each. -/
def markHeld (set : List Nat) (s : State) : State :=
  set.foldl (fun s i => match reqGet s i with
    | some r => if r.held then s else bump (reqMod i (fun r => { r with held := true }) s) oRequestHeldCount
    | none => s) s

/-- Release the requests of a commit set that stand first in their rings, as the commit set of tick `tick` (R37, R41,
R216, R355). -/
def releaseSet (tick : Nat) (set : List Nat) (s : State) : State :=
  if ¬ alive s then s
  else
    let rs := releasedOf s set
    let xs := rs.map (fun e => releaseOf s e.1 e.2)
    let flags := xs.map (cplFlags s)
    let s := commitKv xs s
    let s := (xs.zip flags).foldl (fun s x => writeRecords tick x.2 x.1 s) s
    let s := rs.foldl (fun s e => dropRequest e.1 e.2 s) s
    let s := ((rs.map (fun e => e.2.tenant)).eraseDups).foldl (fun s t => cplPublish t s) s
    markHeld set s

/-- The COMMIT entries of the admitted requests that the boundary will release (R386). -/
def commitEntries (set : List Nat) (s : State) : State :=
  (releasedOf s set).foldl (fun s e => if e.2.refused then s else addEntry (commitEntry s (releaseOf s e.1 e.2)) s) s

/-- Deadlines due at the boundary ending a tick: a LIVE request that is not among those released has missed (R382). -/
def missDeadlines (tick : Nat) (released : List Nat) (s : State) : State :=
  s.sched.reqs.foldl (fun s e =>
    if ¬ e.2.refused ∧ dClass e.2.desc = 0 ∧ ¬ e.2.missed ∧ e.2.admitTick + dDeadline e.2.desc ≤ tick
        ∧ ¬ released.contains e.1 then
      bump (reqMod e.1 (fun r => { r with missed := true }) s) oDeadlineMissCount
    else s) s

/-! ### Tenant reset (R359) -/

/-- The entries of a tenant that were published and not taken: ring, index and UserTag, in ring and index order. -/
def untaken (s : State) (t : Nat) : List (Nat × Nat × Nat) :=
  ((List.range 4).map (fun r =>
    let k := ringGet s t r
    let n := (k.producer + 2 ^ 32 - k.consumer) % 2 ^ 32
    if ¬ k.wasRead ∨ k.entries < n then []
    else (List.range n).map (fun j =>
      let ix := (k.consumer + j) % 2 ^ 32
      let tag := match peekTenant s t (k.base + 64 + 64 * (ix % k.entries) + 8) 8 with
        | .ok b => leNat b
        | .error _ => 0
      (r, ix, tag)))).flatten

/-- Write records of entries that were not taken, as many as the completion ring has free slots. The rings are read again
after the last of them. -/
def drainTail (tick t : Nat) (s : State) : State :=
  let tail := (tenantGet s t).tail
  if tail.isEmpty then s
  else
    let room := getO s (tkey oCplRingEntries t) - heldSlots s t - unconsumed s t
    let s := (tail.take room).foldl (fun s x => cplPut t (cplRecord x.2.2 0x0002 x.1 0 0 0 tick 0 (x.2.1 % 65536)) s) s
    let s := tenantMod t (fun k => { k with tail := tail.drop room, resetting := !(tail.drop room).isEmpty }) s
    cplPublish t s

/-- Carry out a tenant reset at the boundary that ends a tick. -/
def resetTenant (tick t : Nat) (s : State) : State :=
  let rs := ((List.range 4).map (fun r => ringReqs s t r)).flatten
  let rest := untaken s t
  let xs : List Release := rs.map (fun e => ⟨e.1, { e.2 with status := 0x0002 }, [], []⟩)
  let s := rs.foldl (fun s e => releaseUnits e.1 s) s
  let acts := ((xs.filter (fun x => !x.req.refused)).map (ctxActs s)).flatten.mergeSort (fun a b => a.ctx ≤ b.ctx)
  let s := acts.foldl (fun s a => commitCtx a s) s
  let s := xs.foldl (fun s x => writeRecords tick (cplFlags s x) x s) s
  let s := rs.foldl (fun s e => dropRequest e.1 e.2 s) s
  let s := (List.range 4).foldl (fun s r => publishConsumer t r (ringMod t r (fun k => { k with consumer := k.producer }) s)) s
  let s := addEntry (entry 0x0E (natLe 2 t ++ zeros 2 ++ natLe 4 (rs.length + rest.length))) s
  let s := bump s oTenantResetCount
  let s := tenantMod t (fun k => { k with tail := rest, resetting := !rest.isEmpty }) s
  drainTail tick t (cplPublish t s)

end Sys2Proof.Machine
end

