-- ==== Sys2Proof/Machine/MirrorBytes.lean ====
section
/-! DEFINITION. The MIRROR_KV part of a tick's mirror message (R399): a record and the values of each slot that was appended or
cleared since the message before, and the rest, whose layout the spec does not give. -/

/-- The 64-byte slot record of R399, of the header's page and slot numbers, Pos, State, Score and the KExp and VExp bytes. The spec
names its fields and not their places (log 10): a free value. -/
opaque Sys2Proof.Config.slotRecord : Nat → Nat → Sys2Proof.Machine.KvSlot → List Int → Sys2Proof.Bytes

/-- The rest of a mirror message or of a snapshot (R399, R428): page-table and descriptor changes in PUT form, the commit payload, the
configuration writes. The spec names their contents; their bytes are a free value. -/
opaque Sys2Proof.Config.mirrorMessage : Sys2Proof.Machine.KvState → Sys2Proof.Machine.SchedState →
  List (Nat × Sys2Proof.Bytes) → Nat → Sys2Proof.Bytes

namespace Sys2Proof.Machine

open Sys2Proof

/-- A slot of a page: page number and place. -/
abbrev SlotNo := Nat × Nat

/-- Whether two pages are the same page of the same context. -/
def samePage (a b : KvPage) : Bool := a.ctx == b.ctx && a.layer == b.layer && a.allocTick == b.allocTick

/-- The places of a page's slots that were appended or cleared since `old`. -/
def slotChanges (old : Option KvPage) (p : KvPage) : List Nat :=
  natsWhere p.slots.length (fun i => match p.slots[i]?, (old.bind (fun q => if samePage q p then q.slots[i]? else none)) with
    | some k, some q => (k.st == 0) != (q.st == 0) || k.pos != q.pos
    | some k, none => k.st != 0
    | none, _ => false)

/-- The slots appended or cleared since the pages stood as in `old`, by page and place. -/
def changedSlots (old new : SMap KvPage) : List (SlotNo × KvPage) :=
  new.flatMap (fun e => (slotChanges (sfind old e.1) e.2).map (fun i => ((e.1, i), e.2)))

/-- The stored elements of a slot in chunks of 240, the last filled with zeros: its keys, then its values (log 94). -/
def slotChunks (k : KvSlot) : List (List Int) :=
  let l := k.k ++ k.v
  (List.range (ceilDiv l.length 240)).map (fun i => ((l.drop (240 * i)).take 240))

/-- A chunk as it is sent: an SB8 or SB4 block with exponents 0 where that takes fewer bursts than its raw bytes (R399). -/
def chunkBytes (f : Fmt) (l : List Int) : Bytes :=
  let raw := if f = .a4 then nibPack l else l.map i8
  let raw := padTo (64 * ceilDiv raw.length 64) raw
  let sb := sbBlock f ⟨l ++ List.replicate (240 - l.length) 0, [0, 0, 0, 0]⟩
  if sb.length < raw.length then sb else raw

/-- A slot's record and values. -/
def slotMessage (n : SlotNo) (p : KvPage) : Bytes := match p.slots[n.2]? with
  | none => []
  | some k => padTo 64 ((Config.slotRecord n.1 n.2 k p.vExp).take 64) ++ (slotChunks k).flatMap (chunkBytes p.fmt)

/-- The slot records and values of a mirror message. -/
def slotMessages (old new : SMap KvPage) : Bytes := (changedSlots old new).flatMap (fun x => slotMessage x.1 x.2)

end Sys2Proof.Machine
end

