-- ==== Sys2Proof/Machine/TileStore.lean ====
section
/-! DEFINITION. Tile Stores and Hoppers: binding, producer writes, consumer reads, ECC and the scrubber (R230 to R245). -/

namespace Sys2Proof.Machine

open Sys2Proof

/-! ### Binding (R230, R238, R239) -/

/-- The bursts of a Hopper. -/
def hopperBursts (h : Hopper) : Nat := h.size / 64

/-- The byte ranges that bound Hoppers take, rising. -/
def hopperRuns (t : TileStore) : List (Nat × Nat) :=
  ((t.hoppers.filter (·.bound)).map (fun h => (h.base, h.size))).mergeSort (fun a b => a.1 ≤ b.1)

/-- The first Hopper number that is not bound. -/
def freeHopper (t : TileStore) : Option Nat := t.hoppers.findIdx? (fun h => !h.bound)

/-- What the producer of a MATMUL step's operand gathers from when its Hoppers are bound: the row tiles of the step's units on the
Griddle that are left, each from its first block, the one a paused unit stands at from its NextBlock (R239). Weights that are reused
over the row tiles are gathered once for a unit (R235). -/
def bindPieces (r : Request) (rc : RecipeD) (d : StepD) (k g : Nat) (once : Bool) : List Piece :=
  if d.kind ≠ 0 then []
  else ((r.units.filter (fun u => u.step == k && u.griddle == g && u.phase != .done)).map (fun u =>
    (List.range (if once then 1 else unitTiles rc d u - u.tile)).map (fun j =>
      let first := if j = 0 then max (passRange d u).1 u.block else 0
      ⟨u.unit, u.tile + j, first, d.reduce - first⟩))).flatten

/-- Place one Hopper of a plan in a store: the lowest gap that holds it, where one of the 16 Hoppers is free (R230). -/
def placeHopper (i k : Nat) (src : PlanD → List Piece) (p : PlanD) (t : TileStore) : Option TileStore :=
  match freeHopper t, firstGap 2097152 (4096 * p.pages) 0 (hopperRuns t) with
  | some n, some b => some { t with hoppers := t.hoppers.set n { ({} : Hopper) with
      base := b
      size := 4096 * p.pages
      bound := true
      slot := p.slot
      passesLeft := if p.extra = 0 then 0 else p.extra + 1
      request := i
      step := k
      src := src p } }
  | _, _ => none

/-- Place every Hopper of a plan, or none. -/
def placePlan (i k : Nat) (src : PlanD → List Piece) (ps : List PlanD) (t : TileStore) : Option TileStore :=
  ps.foldl (fun t p => t.bind (placeHopper i k src p)) (some t)

/-- The plan entry of a bound Hopper. -/
def boundPlan (s : State) (h : Hopper) : Option PlanD := (reqGet s h.request).bind (fun r =>
  let rc := reqRecipe s r
  hopperPlan rc (stepOf rc h.step) h)

/-- The steps of a Griddle in dispatch order: those with a running unit first, then queue order (R238, R376). -/
def dispatchOrder (s : State) (g : Nat) : List (Nat × Nat) :=
  let q := queueOf s g
  ((q.filter (fun x => x.2.2.phase == .running) ++ q.filter (fun x => x.2.2.phase != .running)).filter (fun x =>
    !isCompact x.2.1)).map (fun x => (x.1, x.2.2.step)) |>.eraseDups

/-- Bind the steps of a list until one does not fit, which waits with those behind it. -/
def bindSteps (g p : Nat) : List (Nat × Nat) → State → State
  | [], s => s
  | (i, k) :: rest, s =>
    let t := storeGet s p
    if t.hoppers.any (fun h => h.bound && h.request == i && h.step == k) then bindSteps g p rest s
    else match reqGet s i with
      | none => bindSteps g p rest s
      | some r =>
        let rc := reqRecipe s r
        let d := stepOf rc k
        match placePlan i k (fun pl => bindPieces r rc d k g (pl.consumer == 2 && pl.extra != 0)) (stepPlan rc d) t with
        | some t' => bindSteps g p rest (storeMod p (fun _ => t') s)
        | none => bump s oHopperBindWaitCount

/-- HOPPER_BIND (R238): the running step and up to PrefetchDepthSteps further steps bind as long as they fit. -/
def doHopperBind (g : Nat) (s : State) : State :=
  match physGriddle s g with
  | none => s
  | some p => if ¬ alive s then s else bindSteps g p ((dispatchOrder s g).take (getO s oPrefetchDepthSteps + 1)) s

/-- Unbind the Hoppers of a step on a physical Griddle, each DMA_OUT consumer having emptied its own (R239). -/
def unbindStep (p i k : Nat) (s : State) : State :=
  if (storeGet s p).hoppers.any (fun h => h.bound && h.request == i && h.step == k) then
    storeMod p (fun t => { t with hoppers := t.hoppers.map (fun h =>
      if h.bound && h.request == i && h.step == k then {} else h) }) s
  else s

/-- Whether a step has no unit left on a Griddle. -/
def stepLeft (s : State) (g i k : Nat) : Bool := match reqGet s i with
  | none => true
  | some r => (r.units.filter (fun u => u.step == k && u.griddle == g)).all (fun u => u.phase == .done)

/-- HOPPER_UNBIND (R239): the steps that have ended on a Griddle give their Hoppers back. -/
def doHopperUnbind (g : Nat) (s : State) : State :=
  match physGriddle s g with
  | none => s
  | some p =>
    ((((storeGet s p).hoppers.filter (·.bound)).map (fun h => (h.request, h.step))).eraseDups).foldl (fun s x =>
      if stepLeft s g x.1 x.2 then unbindStep p x.1 x.2 s else s) s

/-! ### Griddles (R419 to R421) -/

/-- The requests with a unit that runs or drains on a logical Griddle. -/
def runsOn (s : State) (g : Nat) : List Nat :=
  (s.sched.reqs.filter (fun e => e.2.units.any (fun u => u.griddle == g && (u.phase == .running || u.phase == .draining)))).map (·.1)

/-- The lowest spare of a logical Griddle's kind. -/
def spareFor (s : State) (g : Nat) : Option Nat := s.faults.spares.find? (fun p => decide (34 ≤ p) == decide (32 ≤ g))

/-- Units that stood on an OUT Griddle go to the least loaded Griddle of its cluster, at their prices. -/
def moveUnits (g : Nat) (s : State) : State :=
  match leastLoaded s.sched.load (clusterOf s (decide (32 ≤ g))) with
  | none => s
  | some q =>
    let cost := sumN ((allUnits s).map (fun x =>
      if x.2.2.griddle = g ∧ x.2.2.phase ≠ .done then remaining x.2.2 else 0))
    let move := fun (u : UnitSt) => if u.griddle = g ∧ u.phase ≠ .done then { u with griddle := q } else u
    { s with sched := { s.sched with
      load := updNth s.sched.load q (· + cost)
      reqs := s.sched.reqs.map (fun (e : Nat × Request) => (e.1, { e.2 with units := e.2.units.map move })) } }

/-- Take a physical Griddle out of a logical one's place: its units' requests are replayed, its Whisk and Tile Store go
with it. -/
def abandon (g p : Nat) (s : State) : State :=
  let s := (runsOn s g).foldl (fun s i => replayRequest i s) s
  let s := dropBanks g (latchDel g (tileDel g s))
  { s with
    engine := { s.engine with stores := sdel s.engine.stores p, whisks := sdel s.engine.whisks p }
    faults := { s.faults with retired := s.faults.retired ++ [p] } }

/-- Swap a logical Griddle to a spare, or take it OUT where its cluster has none (R420, R421). -/
def swapGriddle (g cause : Nat) (s : State) : State :=
  match physGriddle s g with
  | none => s
  | some p =>
    let s := abandon g p s
    match spareFor s g with
    | some q =>
      let s := { s with faults := { s.faults with
        griddleMap := s.faults.griddleMap.set g (some q)
        spares := s.faults.spares.filter (· != q) } }
      recast 0 cause p q 0 (bump (doHopperBind g s) oGriddleSwapCount)
    | none =>
      let s := { s with faults := { s.faults with griddleMap := s.faults.griddleMap.set g none } }
      recast 1 cause p 0xFFFF 0 (raiseFault 0x0121 .griddle p none 0 (moveUnits g s))

/-! ### Bursts and their check bits (R226, R240) -/

/-- The index in its Tile Store of the burst at a Hopper's position. -/
def hopperBurst (h : Hopper) (pos : Nat) : Nat := h.base / 64 + pos % max 1 (hopperBursts h)

/-- The bank of a burst: bits [10:6] of its address, so that 32 bursts in a row lie in 32 banks (R226). That a bank serves one read and
one write a cycle is timing (log 139). -/
def tileBank (burst : Nat) : Nat := burst % 32

/-- The check bits of a burst's eight words (R226). -/
def checkBits (d : Bytes) : Bytes := (List.range 8).map (fun w => Config.secDed (fld d (8 * w) 8))

/-- The content of a burst of a Tile Store. -/
def burstGet (t : TileStore) (b : Nat) : Bytes := sget (zeros 64) t.bursts b

/-- Whether the stored check bits of a burst are those of its words, and it is not poisoned (R240, R243). -/
def burstSound (t : TileStore) (b : Nat) : Bool :=
  !t.poison.contains b && sget (checkBits (zeros 64)) t.checks b == checkBits (burstGet t b)

/-- Write a burst with its check bits; a write ends its poison, and the scrubber's write-back of it is dropped (R240, R241). -/
def burstPut (b : Nat) (d : Bytes) (t : TileStore) : TileStore :=
  { t with
    bursts := sset (zeros 64) t.bursts b d
    checks := sput t.checks b (checkBits d)
    poison := t.poison.filter (· != b) }

/-- Change Hopper n of a store. -/
def hopperMod (n : Nat) (f : Hopper → Hopper) (t : TileStore) : TileStore := { t with hoppers := t.hoppers.modify n f }

/-! ### What a DMA producer gathers (R233) -/

/-- The bursts of a piece: of the row operand block by block, each block row by row; of the weights, the tile's blocks and check-plane
blocks one after the other. -/
def pieceBursts (s : State) (r : Request) (rc : RecipeD) (d : StepD) (act : Bool) (p : Piece) : Nat :=
  if act then
    p.blocks * (tileRowsAt p).length * (blockBytes (fmtOf (((tensorAt rc d.row).map (·.format)).getD 1)) / 64)
  else p.blocks * (tileBlocks d.stream * 48 / 64)
where
  /-- The rows of the piece's tile. -/
  tileRowsAt (p : Piece) : List TRow := match r.units.find? (fun u => u.unit == p.unit && (stepOf rc u.step).ref == d.ref) with
    | some u => (tileGeo s r rc d u p.tile).rows
    | none => []

/-- The piece in which burst m of a gathered operand lies, and its place there. -/
def pieceAt (len : Piece → Nat) : List Piece → Nat → Option (Piece × Nat)
  | [], _ => none
  | p :: ps, m => if m < len p then some (p, m) else pieceAt len ps (m - len p)

/-- Burst m that the DMA producer of a bound Hopper gathers; none where the order is not the model's to form: a SLOTTED or KV operand,
weights that a variant changes, another producer or consumer (log 88). -/
def gathered (s : State) (h : Hopper) (pl : PlanD) (m : Nat) : Option Bytes := do
  let r ← reqGet s h.request
  let rc := reqRecipe s r
  let d := stepOf rc h.step
  if pl.producer ≠ 1 ∧ pl.producer ≠ 2 then none
  else
    let x ← pieceAt (pieceBursts s r rc d (pl.consumer == 1)) h.src m
    if pl.consumer = 1 then
      let t ← tensorAt rc d.row
      let rows := pieceBursts.tileRowsAt s r rc d x.1
      let n := blockBytes (fmtOf t.format) / 64
      let row ← rows[x.2 / n % max 1 rows.length]?
      let blk := row.base + x.1.first + x.2 / (n * max 1 rows.length)
      if t.slotted ∨ 2 ≤ t.storage ∨ t.blocks ≤ blk then none
      else (tensorBytes s r t d.row (row.ix * t.stride + 64 * (n * blk + x.2 % n)) 64).toOption
    else if pl.consumer = 2 ∧ d.kind = 0 ∧ ¬ d.bitPlane ∧ r.var.isNone then
      let run := tileRun d x.1.unit x.1.first x.1.blocks
      some (castBytes s r.cast 3 (48 * run.1 + 64 * x.2) 64)
    else none

/-! ### Producer writes (R233, R234, R236) -/

/-- A Hopper with a burst more at Head; a Tail that has yet to move on goes with it. -/
def headOn (h : Hopper) : Hopper :=
  let m := 2 * hopperBursts h
  { h with
    head := (h.head + 1) % m
    made := h.made + 1
    tail := if h.skip = 0 then h.tail else (h.tail + 1) % m
    skip := h.skip - 1
    fullSince := none }

/-- HOPPER_PRODUCER_WRITE (R233, R234): a whole burst at Head, or a stall where there is no credit. A DMA producer writes the burst that
comes next of what it gathers. -/
def doHopperWrite (g n : Nat) (d : Bytes) (at' : Nat) (s : State) : State :=
  match physGriddle s g with
  | none => s
  | some p =>
    let h := nth {} (storeGet s p).hoppers n
    if ¬ h.bound ∨ d.length ≠ 64 then s
    else
      let s := atT at' s
      let s := addO s oHopperFullStallCycles (stallCycles s h.fullSince)
      if hopperBursts h ≤ hopperFill h then storeMod p (hopperMod n (fun h => { h with fullSince := some s.time.now })) s
      else
        let d := ((boundPlan s h).bind (fun pl => gathered s h pl h.made)).getD d
        let s := modelEnergy (modelUnit 4 p) 3 1 s
        storeMod p (fun t => hopperMod n headOn (burstPut (hopperBurst h h.head) d t)) s

/-! ### ECC (R240 to R244) -/

/-- A burst reports an error: within 1,000 ms of a correcting or zeroing write-back of it, a hard fault, and the Griddle is swapped for
a spare (R244). -/
def reportError (p b : Nat) (s : State) : State :=
  if (storeGet s p).errors.any (fun e => e.1 == b && within s e.2 1000000000) then
    let s := raiseFault 0x0120 .tileStore p none b (bump s oTileStoreHardCount)
    match logicalOf s p with
    | some g => swapGriddle g 0x0120 s
    | none => s
  else s

/-- Note a correcting or zeroing write-back of a burst. -/
def noteBack (p b : Nat) (s : State) : State :=
  storeMod p (fun t => { t with errors := (t.errors.filter (fun e => e.1 != b && within s e.2 1000000000)) ++ [(b, s.time.now)] }) s

/-- A single-bit error: corrected in the data delivered, written back and counted (R240). -/
def correctBurst (p b : Nat) (s : State) : State := noteBack p b (reportError p b (bump s oTileEccCorrectedCount))

/-! ### Consumer reads (R235 to R237, R242) -/

/-- The reads that a consumer makes before Tail moves: how many, the burst of read j from Tail, the bursts read j needs, and how far Tail
moves then. -/
structure ReadPlan where
  n : Nat
  place : Nat → Nat
  need : Nat → Nat
  move : Nat

/-- The reads of a plan entry (R235 to R237): LINEAR burst by burst, or window by window; STRIDED pattern by pattern, or the whole
patterns that start in a window (log 89); TRANSPOSED the 60 rows of a group, an A4 burst once for each of its halves. -/
def readPlan (p : PlanD) (f : Fmt) : ReadPlan :=
  if p.readMode = 1 then
    let n := p.runBursts * p.runCount
    let extent := (p.runCount - 1) * p.innerStride + p.runBursts
    let at_ := fun (j : Nat) => p.innerStride * (j / max 1 p.runBursts) + j % max 1 p.runBursts
    if p.extra = 0 then ⟨n, at_, fun _ => extent, p.outerStep⟩
    else
      let k := max 1 (ceilDiv p.window (max 1 p.outerStep))
      ⟨k * n, fun j => p.outerStep * (j / max 1 n) + at_ (j % max 1 n), fun j => p.outerStep * (j / max 1 n) + extent, p.window⟩
  else if p.readMode = 2 then ⟨if f = .a4 then 120 else 60, fun j => j % 60, fun _ => 60, 60⟩
  else if p.extra = 0 then ⟨1, fun _ => 0, fun _ => 1, 1⟩
  else ⟨p.window, fun j => j, fun j => j + 1, p.window⟩

/-- The Hopper after a read: the next of its reads, the next pass over its window, or Tail moves as far as the bursts are there. -/
def advance (p : PlanD) (x : ReadPlan) (h : Hopper) : Hopper :=
  let m := 2 * max 1 (hopperBursts h)
  if h.offset + 1 < x.n then { h with offset := h.offset + 1 }
  else if 1 < h.passesLeft then { h with offset := 0, passesLeft := h.passesLeft - 1 }
  else
    let go := min x.move (hopperFill h)
    { h with
      offset := 0
      passesLeft := if p.extra = 0 then 0 else p.extra + 1
      tail := (h.tail + go) % m
      skip := x.move - go }

/-- The format of the bursts that a TRANSPOSED Hopper holds. -/
def hopperFmt (s : State) (h : Hopper) (pl : PlanD) : Fmt := match reqGet s h.request with
  | some r =>
    let rc := reqRecipe s r
    let d := stepOf rc h.step
    if pl.consumer = 2 then (if d.bitPlane then d.planeFmt else .a8) else rowFmt rc d
  | none => .a8

/-- One source row of a TRANSPOSED group: its elements and exponent, from one A8 burst or half an A4 burst. -/
def transposedRow (f : Fmt) (half : Nat) (b : Bytes) : Except DataFault (List Int × Int) := match f with
  | .a4 => match a4Read b with
    | .ok x => .ok ((x.1.drop (60 * half)).take 60, if half = 0 then x.2.1 else x.2.2)
    | .error e => .error e
  | _ => a8Read b

/-- The column vectors that TRANSPOSED mode delivers of a group's rows (R237): vector j holds element j of each row. -/
def columnVectors (rows : List (List Int × Int)) : List (List Int) :=
  (List.range 60).map (fun j => rows.map (fun r => nth 0 r.1 j))

/-- The rows of the group at a Hopper's Tail. -/
def groupRows (t : TileStore) (h : Hopper) (f : Fmt) (half : Nat) : Except DataFault (List (List Int × Int)) :=
  (List.range 60).mapM (fun i => transposedRow f half (burstGet t (hopperBurst h (h.tail + i))))

/-- The tensor a Hopper's consumer reads, for a fault of its data. -/
def hopperFault (s : State) (h : Hopper) (pl : PlanD) (e : DataFault) : UseFault := match reqGet s h.request with
  | some r =>
    let rc := reqRecipe s r
    let d := stepOf rc h.step
    let ix := if pl.consumer = 2 then d.col else d.row
    (match tensorAt rc ix with
      | some t => useData rc t ix e
      | none => .step (dataCode e) 0)
  | none => .step (dataCode e) 0

/-- A sound read: at the last row of a TRANSPOSED group every source burst has been checked, and its vectors are delivered. -/
def delivered (p n g : Nat) (pl : PlanD) (s : State) : State :=
  let t := storeGet s p
  let h := nth {} t.hoppers n
  let f := hopperFmt s h pl
  let x := readPlan pl f
  if pl.readMode = 2 ∧ (h.offset + 1) % 60 = 0 then
    match groupRows t h f (h.offset / 60) with
    | .error e => useFault (hopperFault s h pl e) g h.request h.step s
    | .ok rows => storeMod p (hopperMod n (fun h => { advance pl x h with
        port := columnVectors rows
        exps := rows.map (·.2) })) s
  else storeMod p (hopperMod n (advance pl x)) s

/-- HOPPER_CONSUMER_READ (R234 to R237, R240, R242): the next burst of the read mode, or a stall beyond the filled region.
A single-bit error is corrected and written back; an uncorrectable or poisoned burst faults the step. -/
def doHopperRead (g n : Nat) (found : Finding) (at' : Nat) (s : State) : State :=
  match physGriddle s g with
  | none => s
  | some p =>
    let h := nth {} (storeGet s p).hoppers n
    match h.bound, boundPlan s h with
    | true, some pl =>
      let x := readPlan pl (hopperFmt s h pl)
      let s := atT at' s
      let s := addO s oHopperEmptyStallCycles (stallCycles s h.emptySince)
      if hopperFill h < x.need h.offset then storeMod p (hopperMod n (fun h => { h with emptySince := some s.time.now })) s
      else
        let s := modelEnergy (modelUnit 4 p) 3 1 (storeMod p (hopperMod n (fun h => { h with emptySince := none })) s)
        let b := hopperBurst h (h.tail + x.place h.offset)
        if found = .uncorrectable ∨ ¬ burstSound (storeGet s p) b then
          reportError p b (stepFaultReplay 0x0108 .tileStore p h.request h.step 0 (bump s oTileEccUncorrectableCount))
        else
          let s := match found with
            | .corrected _ => correctBurst p b s
            | _ => s
          if (nth {} (storeGet s p).hoppers n).bound then delivered p n g pl s else s
    | _, _ => s

/-! ### The scrubber (R241 to R244) -/

/-- Whether a burst lies in the filled region of a bound Hopper. -/
def burstFilled (t : TileStore) (b : Nat) : Bool :=
  t.hoppers.any (fun h => h.bound && (List.range (hopperFill h)).any (fun j => hopperBurst h (h.tail + j) == b))

/-- What the scrubber does with an uncorrectable burst (R243): poison in a filled region, zeros with valid check bits elsewhere. -/
def scrubBad (p b : Nat) (s : State) : State :=
  let s := bump s oTileEccUncorrectableCount
  if burstFilled (storeGet s p) b then
    reportError p b (storeMod p (fun t => { t with poison := t.poison.filter (· != b) ++ [b] }) s)
  else noteBack p b (reportError p b (storeMod p (burstPut b (zeros 64)) s))

/-- TILE_SCRUB (R241 to R244): the scrubber reads its next burst. A poisoned burst reads as uncorrectable. -/
def doTileScrub (p : Nat) (found : Finding) (at' : Nat) (s : State) : State :=
  if 68 ≤ p ∨ ¬ s.boot.porstN then s
  else
    let s := atT at' s
    let b := (storeGet s p).scrubAt
    let s := if b + 1 = 32768 then bump s oTileScrubSweepCount else s
    let s := storeMod p (fun t => { t with scrubAt := (b + 1) % 32768 }) s
    if found = .uncorrectable ∨ ¬ burstSound (storeGet s p) b then scrubBad p b s
    else match found with
      | .corrected _ => correctBurst p b s
      | _ => s

/-! ### The commands -/

/-- HOPPER_BIND. -/
def execHopperBind (g : Nat) (s : State) : Host.Outcome State Fault Refusal := .next (doHopperBind g s)

/-- HOPPER_UNBIND. -/
def execHopperUnbind (g : Nat) (s : State) : Host.Outcome State Fault Refusal := .next (doHopperUnbind g s)

/-- HOPPER_PRODUCER_WRITE. -/
def execHopperProducerWrite (g hopper : Nat) (b : TimedBurst) (s : State) : Host.Outcome State Fault Refusal :=
  .next (doHopperWrite g hopper b.data b.t s)

/-- HOPPER_CONSUMER_READ. -/
def execHopperConsumerRead (g hopper : Nat) (found : Finding) (t : Nat) (s : State) : Host.Outcome State Fault Refusal :=
  .next (doHopperRead g hopper found t s)

/-- TILE_SCRUB. -/
def execTileScrub (store : Nat) (found : Finding) (t : Nat) (s : State) : Host.Outcome State Fault Refusal :=
  .next (doTileScrub store found t s)

end Sys2Proof.Machine
end

