-- ==== Sys2Proof/Machine/Marks.lean ====
section
/-! DEFINITION. Pauses and resumes, the late mark, the check mark with its carries, the seal of the tick record, the mirror
message and its acknowledgement (R44 to R51, R111 to R113, R131, R239, R377 to R381, R384, R385, R427 to R430). -/

namespace Sys2Proof.Machine

open Sys2Proof

/-- The unit of a request. -/
def unitGet (s : State) (i step unit : Nat) : Option UnitSt :=
  (reqGet s i).bind (fun r => r.units.find? (fun u => u.step == step && u.unit == unit))

/-! ### Pausing (R111 to R113, R379) -/

/-- A unit stands paused: its match tables and its Whisk tables are dropped, its Hoppers on the Griddle are unbound, its Sieve's queue
is flushed, and a PAUSE entry is written (R147, R194, R239, R294, R384). -/
def pausedAt (point cause block g i : Nat) (u : UnitSt) (s : State) : State :=
  let s := unitMod i u.step u.unit (fun u => { u with phase := .paused }) s
  let s := dropSets (fun t => t.request == i && t.step == u.step) (dropBanks g s)
  let s := match physGriddle s g with
    | some p => unbindStep p i u.step s
    | none => s
  let s := match reqGet s i with
    | some r => if r.var.isSome then flushSieve (sieveOf s g) s else s
    | none => s
  let save := if point = 2 then u.saveSlot.getD 0xFFFF else 0xFFFF
  addEntry (pauseEntry 0x03 i u point cause save block (offsetNs s) (remaining u)) s

/-- Pause at a pass boundary, where the unit still runs (R379, points 1 and 2): a tile that still stands in the array needs
a save slot. -/
def pausePass (cause g i step unit : Nat) (s : State) : State :=
  match unitGet s i step unit with
  | none => s
  | some u =>
    if u.phase ≠ .running then s
    else
      let y : Option Unit × State := match tileGet s g with
        | none => (some (), s)
        | some t => match saveTile g u t s with
          | (some _, s) => (some (), tileDel g s)
          | (none, s) => (none, bump s oPauseDeferredCount)
      match y.1, unitGet y.2 i step unit, reqGet y.2 i with
      | some _, some u, some r =>
        let d := stepOf (reqRecipe y.2 r) step
        pausedAt 1 cause (if d.kind = 0 then (passRange d u).1 else 0) g i u y.2
      | _, _, _ => y.2

/-- Whether the pass a unit stands at is its last. -/
def lastPass (rc : RecipeD) (d : StepD) (u : UnitSt) : Bool :=
  decide (tilePasses rc d ≤ u.pass + 1 ∧ unitTiles rc d u ≤ u.tile + 1)

/-- Run the pass in flight to its end, with the tile's final drain where it is the last of the tile, then pause (R379,
point 2); a unit in its last pass runs on to its end. -/
def pauseAfterPass (cause g i : Nat) (r : Request) (u : UnitSt) (t : Tile) (s : State) : State :=
  let rc := reqRecipe s r
  if lastPass rc (stepOf rc u.step) u then s
  else
    let s := if t.waitsDrain then drainPass g t r u s else s
    pausePass cause g i u.step u.unit (if (latchGet s g).isSome then doFinalDrain g s else s)

/-- The tile after `k` of the blocks that the pass in flight had left. -/
def partTile (s : State) (i : Nat) (r : Request) (u : UnitSt) (t : Tile) (k : Nat) : Option Tile :=
  let rc := reqRecipe s r
  let d := stepOf rc u.step
  match passEnv s r rc d u, tileChoices s r rc d u u.tile with
  | .ok e, .ok l =>
    let ms := (matchPass u.griddle i r e u l s).1
    let t0 := { t.counted with subs := t.begun }
    (match ms.bind (fun ms => runBlocks s r { e with matched := ms } t.begunAt k t0) with
      | .ok a => some a
      | .error _ => none)
  | _, _ => none

/-- The blocks that the pass in flight had left when it began or went on. -/
def blocksLeft (s : State) (r : Request) (u : UnitSt) (t : Tile) : Nat :=
  let rc := reqRecipe s r
  match passEnv s r rc (stepOf rc u.step) u with
  | .ok e => (passSpan e u).1 + (passSpan e u).2 - t.begunAt
  | .error _ => 0

/-- Pause at a block boundary with a full save (R379, point 3): the boundary is a free value among the pass's blocks, and
the last block's end is the end of the pass. With no slot free the pause is deferred: to the pass boundary in SPILL mode,
not at all in RESIDENT mode (R112). PauseSaveCount counts these saves alone: at a pass boundary the save of R108 already holds the
state (log 90). -/
def pauseBlock (cause g i : Nat) (r : Request) (u : UnitSt) (t : Tile) (s : State) : State :=
  let d := stepOf (reqRecipe s r) u.step
  let left := blocksLeft s r u t
  let y := draw s
  let k := 1 + y.1 % max 1 left
  match if k < left then partTile s i r u t k else none with
  | none => pauseAfterPass cause g i r u t y.2
  | some t' => match saveTile g u { t' with waitsDrain := false } y.2 with
    | (none, s) =>
      let s := bump s oPauseDeferredCount
      if d.resident then s else pauseAfterPass cause g i r u t s
    | (some n, s) =>
      let s := bump (countTile t' (tileDel g s)) oPauseSaveCount
      let s := unitMod i u.step u.unit (fun u => { u with block := t'.block }) s
      pausedAt 2 cause t'.block g i { u with saveSlot := some n, block := t'.block } s

/-- Pause a unit that runs, at the first point that R379 offers. -/
def pauseUnit (cause g i : Nat) (r : Request) (u : UnitSt) (s : State) : State :=
  if isCompact r then s
  else match tileGet s g with
    | none => pausePass cause g i u.step u.unit s
    | some t =>
      if ¬ t.waitsDrain then pausePass cause g i u.step u.unit s
      else
        let d := stepOf (reqRecipe s r) u.step
        let y := draw s
        let left := y.1 % (nth 0 u.prices u.done + 1)
        if (¬ d.resident ∨ cause = 1) ∧ left ≤ getO s oPassPauseSlackCycles then pauseAfterPass cause g i r u t y.2
        else pauseBlock cause g i r u t y.2

/-- Pause what runs on a Griddle; a tile that stands in the latches first drains to its end (R194). -/
def pauseRunning (cause g : Nat) (s : State) : State :=
  match runningOn s g with
  | none => s
  | some _ =>
    let s := if (latchGet s g).isSome then doFinalDrain g s else s
    match runningOn s g with
    | some (i, r, u) => pauseUnit cause g i r u s
    | none => s

/-- PAUSE (R111): the Expediter pauses the running unit of a class below LIVE. -/
def doPause (g at' : Nat) (s : State) : State :=
  match runningOn s g with
  | some (_, r, _) => if ¬ alive s ∨ dClass r.desc = 0 then s else pauseRunning 0 g (atT at' s)
  | none => s

/-- RESUME (R111, R376): a paused unit that stands first among the ready units of its Griddle resumes. -/
def doResume (g i step unit at' : Nat) (s : State) : State :=
  if ¬ alive s ∨ (runningOn s g).isSome ∨ (tileGet s g).isSome ∨ (physGriddle s g).isNone then s
  else match (queueOf s g).find? (fun x => unitReady s x.1 x.2.1 x.2.2) with
    | some (j, r, u) =>
      if j = i ∧ u.step = step ∧ u.unit = unit ∧ u.phase = .paused then
        startUnit i r u (atT at' s)
      else s
    | none => s

/-- LIVE_READY_YIELD (R377): a LIVE unit is ready on a Griddle whose running unit is of a lower class. -/
def doLiveReadyYield (g at' : Nat) (s : State) : State :=
  match runningOn s g, (queueOf s g).find? (fun x => unitReady s x.1 x.2.1 x.2.2) with
  | some (_, r, _), some (_, q, _) =>
    if ¬ alive s ∨ dClass r.desc = 0 ∨ dClass q.desc ≠ 0 then s else pauseRunning 1 g (atT at' s)
  | _, _ => s

/-! ### The late mark (R380) -/

/-- Hold a unit from issue until the check mark. -/
def holdUnit (i : Nat) (u : UnitSt) (s : State) : State :=
  let s := { s with sched := { s.sched with lateHeld := s.sched.lateHeld ++ [(i, u.step, u.unit)] } }
  let s := if u.phase = .ready then unitMod i u.step u.unit (fun u => { u with phase := .held }) s else s
  bump s oLateMarkPauseCount

/-- Whether an accumulation of priced cycles ends beyond the check mark, scaled by 64/k (R380). -/
def pastCheck (s : State) (acc : Nat) : Bool := decide ((checkMark s - lateMark s) * 3 * getO s oIssueLimit < acc * 128)

/-- Walk one Griddle's queue at the late mark. -/
def lateWalk (g : Nat) (s : State) : State :=
  if (physGriddle s g).isNone then s
  else
    let q := queueOf s g
    let order := q.filter (fun x => x.2.2.phase == .running) ++ q.filter (fun x => x.2.2.phase != .running)
    (order.foldl (fun (y : Nat × State) x =>
      let acc := y.1 + remaining x.2.2
      if x.2.1.finished then y
      else if dClass x.2.1.desc ≠ 0 ∧ pastCheck y.2 acc then
        if x.2.2.phase = .running then
          let s := pauseRunning 0 g y.2
          (match unitGet s x.1 x.2.2.step x.2.2.unit with
            | some u => if u.phase = .paused then
                (y.1, { bump s oLateMarkPauseCount with sched := { s.sched with
                  lateHeld := s.sched.lateHeld ++ [(x.1, u.step, u.unit)] } })
              else (acc, s)
            | none => (y.1, s))
        else (y.1, holdUnit x.1 x.2.2 y.2)
      else (acc, y.2)) (0, s)).2

/-- LATE_MARK. -/
def doLateMark (s : State) : State :=
  if s.time.phase ≠ .planned then s
  else
    let s := atT (lateMark s) s
    let s := { s with time := { s.time with phase := .late } }
    if ¬ alive s then s else (List.range 64).foldl (fun s g => lateWalk g s) s

/-! ### Distress (R131) -/

/-- Whether a tracker's A8-unsafe groups exceed its step's limit. -/
def a8Distress (t : Tracker) : Bool := decide (t.a8Limit * t.total < t.unsafeA8 * 10000)

/-- Flag the requests that fed a distressed step in the tick. -/
def flagDistress (s : State) : State :=
  s.sched.trackers.foldl (fun s e => if a8Distress e.2 then distressAll e.1 s else s) s

/-! ### Carries (R44, R381, R385) -/

/-- The CARRY entry of a step on a Griddle: PAUSED where its first unfinished unit stands paused or held. -/
def carryEntry (s : State) (i k g : Nat) (us : List UnitSt) : Bytes :=
  let paused := us.any (fun u => u.phase == .paused || u.phase == .held || s.sched.lateHeld.contains (i, k, u.unit))
  entry 0x05 (natLe 2 (i + (if paused then 32768 else 0)) ++ natLe 2 k ++ natLe 1 g ++ zeros 3
    ++ natLe 4 (sumN (us.map remaining)) ++ natLe 4 us.length)

/-- Carry one request that has not finished: its entries, its flag, the count of its steps. -/
def carryRequest (i : Nat) (r : Request) (s : State) : State :=
  let left := (r.steps.zipIdx).filter (fun x => !x.1.complete)
  let s := left.foldl (fun s x => (List.range 64).foldl (fun s g =>
    let us := r.units.filter (fun u => u.step == x.2 && u.griddle == g && u.phase != .done)
    if us.isEmpty then s
    else
      let s := addEntry (carryEntry s i x.2 g us) s
      { s with sched := { s.sched with carry := s.sched.carry.modify g (· + sumN (us.map remaining)) } }) s) s
  recFlag 0 (addO (reqMod i (fun r => { r with late := true }) s) oTickLateCount left.length)

/-- Carry every request that has not finished. -/
def carryAll (s : State) : State :=
  let s := { s with sched := { s.sched with carry := List.replicate 64 0 } }
  s.sched.reqs.foldl (fun s e => if e.2.finished then s else carryRequest e.1 e.2 s) s

/-! ### The seal (R48 to R50) -/

/-- The bytes of the record of the tick in progress. -/
def recordBytes (s : State) : Bytes :=
  let body := s.record.entries.flatten
  natLe 8 s.time.tickNo ++ natLe 4 s.record.lengthNs ++ natLe 1 s.record.srcState ++ natLe 1 s.record.flags
    ++ natLe 1 s.record.limit ++ [0] ++ natLe 4 s.record.entries.length ++ natLe 4 (64 + body.length)
    ++ sha256 body ++ padTo 8 s.record.prevDigest ++ body

/-- Seal the record of the tick in progress: the ring keeps the last 64. A spare keeps no records (log 95). -/
def sealRecord (s : State) : State :=
  if s.record.sealedNow then s
  else if isSpare s then { s with record := { s.record with
    sealedNow := true
    entries := []
    flags := 0 } }
  else
    let b := recordBytes s
    let ring := s.record.ring ++ [(s.time.tickNo, b)]
    { s with record := { s.record with
      sealedNow := true
      ring := ring.drop (ring.length - 64)
      prevDigest := sub b 24 8
      entries := []
      flags := 0 } }

/-! ### The mirror message (R50, R399, R427, R428) -/

/-- The MIRROR_KV bytes of a message: the slots appended or cleared since the KV pages stood as in `old`, and the rest (R399). -/
def mirrorKvBytes (s : State) (old : SMap KvPage) (tick : Nat) : Bytes :=
  slotMessages old s.kv.pages ++ Config.mirrorMessage s.kv s.sched s.mirror.config tick

/-- Send the mirror message of the tick just sealed: the MIRROR_KV frames, then the sealed record, whose last frame has
LAST. -/
def sendMirror (s : State) : State :=
  let b := mirrorTo s
  if b = 0xFFFF ∨ s.mirror.snapshotTo.isSome ∨ ¬ alive s then s
  else match s.record.ring.getLast? with
    | none => s
    | some (n, rec') =>
      let fs := cutFrames s opMirrorKv b false (mirrorKvBytes s s.mirror.sentPages n)
        ++ cutFrames s opMirrorRecord b true rec'
      let q := (flowNext s (flowKey b 1) + fs.length + 2 ^ 32 - 1) % 2 ^ 32
      let s := sendAll fs s
      { s with mirror := { s.mirror with config := [], sentPages := s.kv.pages, wait := s.mirror.wait ++ [(n, q)] } }

/-- The buddy has acknowledged the messages up to that of a tick: what was held for them is released (R50, R51). -/
def mirrorAcked (tick : Nat) (s : State) : State :=
  let due := s.sched.held.filter (fun h => h.1 ≤ tick)
  let s := { s with
    mirror := { s.mirror with wait := s.mirror.wait.filter (fun w => tick < w.1) }
    sched := { s.sched with held := s.sched.held.filter (fun h => tick < h.1) } }
  if s.mirror.snapshotTo.isSome then { s with sched := { s.sched with held := due ++ s.sched.held } }
  else due.foldl (fun s h => releaseSet h.1 h.2 s) s

/-- MIRROR_ACK (R50): the FLOW_ACK that covers a tick's message. -/
def doMirrorAck (tick : Nat) (s : State) : State :=
  if s.mirror.wait.any (fun w => w.1 == tick) then mirrorAcked tick s else s

/-- A FLOW_ACK from the buddy covers a FlowSeq: the messages and the admission images it covers are acknowledged,
and contributions kept back for these images leave (R429). -/
def mirrorFlowAck (chip vc seq : Nat) (s : State) : State :=
  if chip ≠ mirrorTo s ∨ vc ≠ 1 then s
  else
    let s := { s with mirror := { s.mirror with imagesHeld := s.mirror.imagesHeld.map (fun (x : Nat × Nat × Bool) =>
      if seqLe x.2.1 seq then (x.1, x.2.1, true) else x) } }
    let s := flushParts s
    match (s.mirror.wait.filter (fun (w : Nat × Nat) => seqLe w.2 seq)).getLast? with
    | some w => mirrorAcked w.1 s
    | none => s

/-- BUDDY_LOST (R430): the boundary after MIRROR_LATE has come without an acknowledgement. The set held first is released,
and a snapshot goes to the alternate buddy, or to the buddy where there is none. -/
def doBuddyLost (s : State) : State :=
  match s.sched.held with
  | h :: h2 :: rest =>
    if s.mirror.snapshotTo.isSome then s
    else
      let s := { s with sched := { s.sched with held := h2 :: rest } }
      let s := releaseSet h.1 h.2 s
      let s := raiseFault 0x0124 .none 0 none (mirrorTo s) s
      let alt := getO s oBuddyAltChipId
      let dest := if alt = 0xFFFF ∨ s.mirror.toAlt then getO s oBuddyChipId else alt
      let s := sendAll (cutFrames s opMirrorKv dest true (mirrorKvBytes s [] s.time.tickNo)) s
      { s with mirror := { s.mirror with snapshotTo := some dest, wait := [], config := [], sentPages := s.kv.pages } }
  | _ => s

/-- SNAPSHOT_ACKNOWLEDGED (R430): one of the two buddies holds the whole snapshot; commits and admission go on. -/
def doSnapshotAck (chip : Nat) (s : State) : State :=
  if s.mirror.snapshotTo.isNone ∨ chip = 0xFFFF ∨ ¬ (chip = getO s oBuddyChipId ∨ chip = getO s oBuddyAltChipId) then s
  else
    let hs := s.sched.held
    let s := { s with
      mirror := { s.mirror with snapshotTo := none, toAlt := chip != getO s oBuddyChipId, wait := [] }
      sched := { s.sched with held := [] } }
    hs.foldl (fun s h => releaseSet h.1 h.2 s) s

/-! ### The check mark (R44, R50, R381) -/

/-- The requests that form a commit set: all that have finished and are not in a set held before; none while a snapshot is
out (R430). -/
def formSet (s : State) : List Nat :=
  if s.mirror.snapshotTo.isSome then []
  else (s.sched.reqs.filter (fun e => e.2.finished && !s.sched.held.any (fun h => h.2.contains e.1))).map (·.1)

/-- A finished request whose TOKENS cannot be read at the check mark is not ready to commit: it fails or is replayed (R4, R311,
R319, R325). -/
def checkTokens (i : Nat) (r : Request) (s : State) : State :=
  if ¬ (r.finished ∧ withResults r ∧ dKind r.desc = 0) ∨ idleRun r ∨ s.sched.held.any (fun h => h.2.contains i) then s
  else match tokenFault s r with
    | none => s
    | some f => useFault f 0 i (reqRecipe s r).tokenStep (reqMod i (fun r => { r with finished := false }) s)

/-- Give HANDOVER_LAST to the record of the tick that ends the hand-over's run (R426). -/
def lastFlag (s : State) : State := match s.faults.handOver with
  | some h => if h.lastTick = s.time.tickNo then recFlag 5 s else s
  | none => s

/-- CHECK_MARK (R44, R50): the commit set is fixed, the rest is carried, the record is sealed and mirrored. A chip whose main
domains are held in reset does none of it (R451); a silent one commits nothing (R425). -/
def doCheckMark (s : State) : State :=
  if s.time.phase ≠ .late then s
  else
    let s := atT (checkMark s) s
    let s := { s with time := { s.time with phase := .sealed } }
    if s.boot.chip = .tripped then s
    else
      let s := flagDistress s
      let s := if alive s then s.sched.reqs.foldl (fun s e => checkTokens e.1 e.2 s) s else s
      let set := if alive s then formSet s else []
      let s := { s with sched := { s.sched with commitSet := set } }
      let s := commitEntries set s
      sendMirror (sealRecord (lastFlag (carryAll s)))

/-! ### STEP_FAULT (R411, R414) -/

/-- STEP_FAULT: an integrity fault of class STEP is raised against a step of a request, which is replayed; a fault of an
Ingot block, whose IBN is the event's detail, marks its sector DAMAGED, and the request waits for the repair (R251). -/
def doStepFault (ev : StepFaultEvent) (s : State) : State :=
  match reqGet s ev.request with
  | none => s
  | some r =>
    if 0x0110 < ev.code ∧ ev.code ≠ 0x0111 ∧ ev.code ≠ 0x0112 ∨ ev.code < 0x0101 ∨ ¬ alive s
      ∨ (0x010C < ev.code ∧ ev.code < 0x0110) ∨ r.refused ∨ (r.finished ∧ r.status ≠ 0) then s
    else
      let ingot := (ev.code = 0x0109 ∨ ev.code = 0x010A ∨ ev.code = 0x0101)
      let s := atT ev.time s
      let s := if ingot then noteIngot ev.code ev.detail s else s
      let s := stepFaultReplay ev.code ev.unitKind ev.unitIndex ev.request ev.step ev.detail s
      if ingot ∧ (castGet s r.cast).damaged.any (fun m => m.1 == ev.detail / 1024) then
        waitFor (ev.detail / 1024) ev.request s
      else s

/-! ### The commands -/

/-- PAUSE. -/
def execPause (g t : Nat) (s : State) : Host.Outcome State Fault Refusal := .next (doPause g t s)

/-- RESUME. -/
def execResume (g request step unit t : Nat) (s : State) : Host.Outcome State Fault Refusal :=
  .next (doResume g request step unit t s)

/-- LIVE_READY_YIELD. -/
def execLiveReadyYield (g t : Nat) (s : State) : Host.Outcome State Fault Refusal := .next (doLiveReadyYield g t s)

/-- LATE_MARK. -/
def execLateMark (s : State) : Host.Outcome State Fault Refusal := .next (doLateMark s)

/-- CHECK_MARK. -/
def execCheckMark (s : State) : Host.Outcome State Fault Refusal := .next (doCheckMark s)

/-- MIRROR_ACK. -/
def execMirrorAck (tick : Nat) (s : State) : Host.Outcome State Fault Refusal := .next (doMirrorAck tick s)

/-- BUDDY_LOST. -/
def execBuddyLost (s : State) : Host.Outcome State Fault Refusal := .next (doBuddyLost s)

/-- SNAPSHOT_ACKNOWLEDGED. -/
def execSnapshotAcknowledged (chip : Nat) (s : State) : Host.Outcome State Fault Refusal := .next (doSnapshotAck chip s)

/-- STEP_FAULT. -/
def execStepFault (ev : StepFaultEvent) (s : State) : Host.Outcome State Fault Refusal := .next (doStepFault ev s)

end Sys2Proof.Machine
end

