-- ==== Sys2Proof/Machine/Dram.lean ====
section
/-! DEFINITION. DRAM and Pantry commands: error handling, channel map-out, lost lines, Pantry accesses, storage errors
and atomics (R304 to R331). -/

namespace Sys2Proof.Machine

open Sys2Proof

/-! ### The place of a slice (R307, R315) -/

/-- The default home of slice k of frame f, as 10,240 · channel + slot; a slice is 32 · frame + k. -/
def defaultHome (sl : Nat) : Nat := (32 * (sl / 32 % 12) + sl % 32) * 10240 + sl / 32 / 12

/-- Moved slices and their homes, the latest first. -/
abbrev Moves := List (Nat × Nat)

/-- The home of a slice. -/
def homeIn (m : Moves) (sl : Nat) : Nat := match m.find? (fun e => e.1 == sl) with
  | some e => e.2
  | none => defaultHome sl

/-- The slice that a slot of a channel holds. -/
def holderIn (m : Moves) (c slot : Nat) : Nat :=
  match m.find? (fun e => e.2 == c * 10240 + slot && homeIn m e.1 == e.2) with
  | some e => e.1
  | none => 32 * (12 * slot + c / 32) + c % 32

/-- The live slices of a channel that a map-out moves, by slot. -/
def needOf (m : Moves) (f top : Nat) : List Nat :=
  ((List.range 10240).map (holderIn m f)).filter (fun sl => sl / 32 < top)

/-- The free slots that retired frames leave. -/
def freeOf (m : Moves) (mapped : List Nat) (f top : Nat) : List Nat :=
  ((List.range 10240).map (fun i => homeIn m (32 * top + i))).filter (fun h => !mapped.contains (h / 10240) && h / 10240 != f)

/-- The first retired frame of the n-th map-out, counted from 0. -/
def topOf (n : Nat) : Nat := 122880 - 320 * (n + 1)

/-- The moves that a channel map gives. -/
def movesOf (map : List Nat) : Moves :=
  ((map.zipIdx).foldl (fun (x : List Nat × Moves) f =>
    (x.1 ++ [f.1], (needOf x.2 f.1 (topOf f.2)).zip (freeOf x.2 x.1 f.1 (topOf f.2)) ++ x.2)) ([], [])).2

/-- The pairing of the map-out in progress: its slices and their new slots. -/
def pairing (s : State) (f : Nat) : List (Nat × Nat) :=
  let done := s.dram.map.dropLast
  let m := movesOf done
  (needOf m f (topOf done.length)).zip (freeOf m done f (topOf done.length))

/-- The home of a slice now: a slice of a map-out in progress moves when it switches (R316). -/
def homeNow (s : State) (sl : Nat) : Nat := match s.dram.migration with
  | none => homeIn (movesOf s.dram.map) sl
  | some g =>
    let p := pairing s g.channel
    homeIn (p.take g.moved ++ g.ahead.filterMap (fun i => p[i]?) ++ movesOf s.dram.map.dropLast) sl

/-- The channel on which an address lies. -/
def channelOf (s : State) (a : Nat) : Nat := homeNow s (32 * frameOf a + a / 128 % 32) / 10240

/-- A channel's state. -/
def chanGet (s : State) (c : Nat) : Chan := sget {} s.dram.chans c

/-- Change a channel's state. -/
def chanMod (c : Nat) (f : Chan → Chan) (s : State) : State :=
  { s with dram := { s.dram with chans := supd {} s.dram.chans c f } }

/-! ### Errors (R309 to R313) -/

/-- Mark a burst LOST. -/
def markLost (b : Nat) (s : State) : State :=
  bump { s with dram := { s.dram with marks := sput s.dram.marks b .lost } } oDramLostLineCount

/-- Times kept of the last 1,000 ms, with this instant. -/
def noteTime (s : State) (l : List Nat) : List Nat := l.filter (fun t => within s t 1000000000) ++ [s.time.now]

/-- The times of a list within the last 1,000 ms. -/
def recent (s : State) (l : List Nat) : Nat := (l.filter (fun t => within s t 1000000000)).length

/-- Flag a channel for map-out with the cause of its RECAST entry. -/
def flagChannel (c cause : Nat) (s : State) : State :=
  if 384 ≤ c ∨ (chanGet s c).st ≠ 0 ∨ s.dram.flagged.any (fun x => x.1 == c) then s
  else { s with dram := { s.dram with flagged := s.dram.flagged ++ [(c, cause)] } }

/-- An uncorrectable burst: it is rewritten as LOST, and the step that reads it faults (R311). -/
def uncorrectable (b : Nat) (reader : Option (Nat × Nat)) (s : State) : State :=
  let c := channelOf s (64 * b)
  let s := bump (chanMod c (fun k => { k with ues := noteTime s k.ues }) s) oDramEccUncorrectableCount
  let s := if shas s.dram.marks b then s else markLost b s
  match reader with
  | some (i, k) => if (reqGet s i).isSome then useFault (useMem s (.lost b)) 0 i k s else s
  | none => s

/-- DRAM_READ_ECC (R309, R311): what a read of a burst that the Pantry does not hold finds. -/
def doDramRead (a : Nat) (found : Finding) (reader : Option (Nat × Nat)) (at' : Nat) (s : State) : State :=
  let s := atT at' s
  let b := a / 64
  if ¬ liveRange s a 1 ∨ pantryHolds s b ∨ shas s.dram.marks b then s
  else
    let s := modelEnergy (modelUnit 6 (channelOf s a)) 5 1 s
    match found with
    | .clean => s
    | .corrected _ => bump s oDramEccCorrectedCount
    | .uncorrectable => uncorrectable b reader s

/-- DRAM_PARITY_RETRY (R310, R313): so many attempts of a transaction failed; after the fourth retry the channel is
flagged, and a read counts as uncorrectable. -/
def doParityRetry (c fails : Nat) (read : Option (Nat × Option (Nat × Nat))) (at' : Nat) (s : State) : State :=
  let s := atT at' s
  if 384 ≤ c ∨ fails = 0 then s
  else
    let s := addO (chanMod c (fun k => { k with retries := noteTime s k.retries }) s) oDramParityRetryCount (min fails 4)
    if fails ≤ 4 then s
    else
      let d := draw s
      let s := flagChannel c (d.1 % 65536) d.2
      match read with
      | some (a, reader) => if liveRange s a 1 ∧ channelOf s a = c then uncorrectable (a / 64) reader s else s
      | none => s

/-- DRAM_SCRUB (R312): the scrubber corrects a burst, or rewrites it as LOST. -/
def doDramScrub (a : Nat) (found : Finding) (at' : Nat) (s : State) : State :=
  let s := atT at' s
  let b := a / 64
  if ¬ liveRange s a 1 ∨ shas s.dram.marks b then s
  else
    let s := modelEnergy (modelUnit 6 (channelOf s a)) 5 1 s
    match found with
    | .clean => s
    | .corrected _ => bump s oDramEccCorrectedCount
    | .uncorrectable =>
      let c := channelOf s a
      markLost b (bump (chanMod c (fun k => { k with ues := noteTime s k.ues }) s) oDramEccUncorrectableCount)

/-- CHANNEL_FLAG (R313): a channel has passed its retry limit or its uncorrectable limit within 1,000 ms. The RECAST
entry's cause of a retry flag is a free value: no fault code names it. -/
def doChannelFlag (c at' : Nat) (s : State) : State :=
  let s := atT at' s
  let k := chanGet s c
  if getO s oChannelUeLimit < recent s k.ues then flagChannel c 0x010C s
  else if getO s oChannelRetryLimit < recent s k.retries then
    let d := draw s
    flagChannel c (d.1 % 65536) d.2
  else s

/-- CHANNEL_MAP_OUT_WRITE (R313): an operator's flag. -/
def doMapOutWrite (a : Access) (c : Nat) (s : State) : Nat × State :=
  match gate s a oChannelMapOut (natLe 2 c) with
  | 0 => if 384 ≤ c then (abRange, s) else (abOk, flagChannel c 0 s)
  | e => (e, s)

/-! ### Map-out (R314 to R318) -/

/-- CHANNEL_MAP_OUT (R316, R318): a flagged channel enters the map and becomes MIGRATING, or is HELD. -/
def doChannelMapOut (c : Nat) (s : State) : State :=
  if ¬ s.dram.flagged.any (fun x => x.1 == c) ∨ s.dram.migration.isSome then s
  else if getO s oDramReserveLeft = 0 ∨ 16 ≤ s.dram.map.length then
    let s := chanMod c (fun k => { k with st := 3 }) s
    raiseFault 0x0131 .dramChannel c none 0
      { s with dram := { s.dram with flagged := s.dram.flagged.filter (fun x => x.1 != c) } }
  else
    let s := chanMod c (fun k => { k with st := 1 }) s
    let s := { s with dram := { s.dram with map := s.dram.map ++ [c], migration := some ⟨c, 0, []⟩ } }
    setO s oDramLiveFrames (getO s oDramLiveFrames - 320)

/-- The map-out is complete (R317). -/
def mapOutDone (c : Nat) (s : State) : State :=
  let cause := match s.dram.flagged.find? (fun x => x.1 == c) with
    | some x => x.2
    | none => 0
  let s := chanMod c (fun k => { k with st := 2 }) s
  let s := { s with dram := { s.dram with
    migration := none
    flagged := s.dram.flagged.filter (fun x => x.1 != c) } }
  let s := setO s oDramCapacityMiB (getO s oDramCapacityMiB - 640)
  let s := setO s oDramReserveLeft (getO s oDramReserveLeft - 1)
  recast 4 cause c 0xFFFF 0 (bump s oChannelMapOutCount)

/-- A line of a moved slice that cannot be read is written as LOST unless the Pantry holds it (R316). -/
def moveLine (sl line : Nat) (s : State) : State :=
  let b := (sl / 32 * 2097152 + 4096 * line + 128 * (sl % 32)) / 64
  let lose := fun (b : Nat) (s : State) => if pantryHolds s b ∨ shas s.dram.marks b then s else markLost b s
  if line < 512 then lose (b + 1) (lose b s) else s

/-- The first place of the list that has not moved, past those moved ahead; those are then dropped. -/
def skipAhead : Nat → Migration → Migration
  | 0, g => g
  | n + 1, g =>
    if g.ahead.contains g.moved then skipAhead n { g with moved := g.moved + 1, ahead := g.ahead.filter (· != g.moved) } else g

/-- A map-out after the slice at place i has switched. -/
def switched (g : Migration) (i : Nat) : Migration :=
  let g := if i = g.moved then { g with moved := g.moved + 1 } else { g with ahead := g.ahead ++ [i] }
  skipAhead g.ahead.length g

/-- The place of the slice that moves now: the next of the list, or one that a waiting access names, if it has not moved (R316). -/
def nextSlice (g : Migration) (p : List (Nat × Nat)) (ahead : Option Nat) : Nat :=
  match ahead.bind (fun sl => p.findIdx? (fun e => e.1 == sl)) with
  | some i => if g.moved ≤ i ∧ ¬ g.ahead.contains i then i else g.moved
  | none => g.moved

/-- SLICE_MOVE (R316): the next slice, or one moved ahead for a waiting access, is copied to its new home and switched. -/
def doSliceMove (c : Nat) (ahead : Option Nat) (unreadable : List Nat) (s : State) : State :=
  match s.dram.migration with
  | none => s
  | some g =>
    if g.channel ≠ c then s
    else
      let pairs := pairing s c
      let i := nextSlice g pairs ahead
      match pairs[i]? with
      | none => mapOutDone c s
      | some p =>
        let s := unreadable.foldl (fun s l => moveLine p.1 l s) s
        let g := switched g i
        if pairs.length ≤ g.moved then mapOutDone c s
        else { s with dram := { s.dram with migration := some g } }

/-! ### Lost lines (R319) -/

/-- A paused unit whose save slot is lost runs its tile again from its first pass (R92, R319). -/
def loseSave (n : Nat) (s : State) : State := match sfind s.engine.saves n with
  | none => s
  | some v =>
    let s := { s with engine := { s.engine with saves := sdel s.engine.saves n } }
    unitMod v.request v.step v.unit (fun u => { u with
      saveSlot := none
      tag := 0
      again := none
      done := u.done - u.pass
      pass := 0
      block := 0 }) s

/-- The histories of a context are lost: it predicts all neuron blocks (R155, R319). -/
def loseHistory (s : State) (a : Nat) : State :=
  let start := regionBase s 9
  kvCtxMod ((a - start) / 4096) (fun c => { c with history := [] }) s

/-- Clear the marks of a line and let the requests that wait for its bursts go on. -/
def clearLost (b : Nat) (s : State) : State :=
  { s with
    dram := { s.dram with marks := sdel s.dram.marks b }
    sched := { s.sched with reqs := s.sched.reqs.map (fun (e : Nat × Request) =>
      (e.1, { e.2 with waitSector := e.2.waitSector.filter (· != waitBurst b) })) } }

/-- What a restored burst holds: zeros, what its source holds, or, where the spec names no source, free bytes. -/
inductive Refill where
  | zero
  | source
  | free
deriving DecidableEq, Repr

/-- Bring a LOST burst back (R309, R319). -/
def restoreBurst (b : Nat) (how : Refill) (s : State) : State :=
  if sfind s.dram.marks b = some .lost then
    match how with
    | .zero => clearLost b { s with dram := { s.dram with mem := memPut s.dram.mem (64 * b) (zeros 64) } }
    | .source => clearLost b s
    | .free =>
      let d := drawBytes 64 s
      clearLost b { d.2 with dram := { d.2.dram with mem := memPut d.2.dram.mem (64 * b) d.1 } }
  else clearLost b s

/-- Restore the bursts of a line, counting the line. -/
def restoreLine (line : Nat) (how : Refill) (s : State) : State :=
  bump (restoreBurst (2 * line + 1) how (restoreBurst (2 * line) how s)) oDramRestoredLineCount

/-- Fail the requests that wait for a burst of a line which nothing can restore. -/
def failWaiting (line : Nat) (s : State) : State :=
  (s.sched.reqs.filter (fun e => e.2.waitSector.contains (waitBurst (2 * line))
    || e.2.waitSector.contains (waitBurst (2 * line + 1)))).foldl (fun s e => failRequest e.1 0x0033 s) s

/-- The variant whose run of the pool holds an address. -/
def variantAt (s : State) (a : Nat) : Option Nat :=
  (s.vars.slots.find? (fun e => regionBase s 6 + e.2.base ≤ a && a < regionBase s 6 + e.2.base + e.2.bytes)).map (·.1)

/-- LOST_LINE_RESTORE (R319): by the kind of the line's frame. -/
def doLostRestore (a : Nat) (s : State) : State :=
  let line := a / 128
  let lost := fun (b : Nat) => sfind s.dram.marks b == some .lost
  let waits := s.sched.reqs.any (fun e => e.2.waitSector.contains (waitBurst (2 * line))
    || e.2.waitSector.contains (waitBurst (2 * line + 1)))
  if ¬ (lost (2 * line) ∨ lost (2 * line + 1) ∨ waits) then s
  else
    let buddy := getO s oBuddyChipId != 0xFFFF
    match frameKind s (frameOf a) with
    | 0 => restoreLine line .zero s
    | 1 => s
    | 2 => failWaiting line s
    | 3 => if buddy then restoreLine line .source s else failWaiting line s
    | 4 => if buddy then restoreLine line .source s else failWaiting line s
    | 5 =>
      if buddy then restoreLine line .source s
      else { s with record := { s.record with
        ring := s.record.ring.filter (fun r => r.1 % 64 != (a - regionBase s 5) / 524288) } }
    | 6 => match variantAt s a with
      | some v => restoreLine line .source (varMod v (fun k => { k with rebuilding := true }) s)
      | none => restoreLine line .source s
    | 8 => restoreLine line .source (loseSave ((a - regionBase s 8) / 245760) s)
    | 9 => restoreLine line .source (loseHistory s a)
    | 10 => restoreLine line .source (endCast 6 s)
    | 7 => restoreLine line .source s
    | _ => restoreLine line .free s

/-- DRAM_DEAD (R325): a read of a DEAD burst fails its request. -/
def doDramDead (a : Nat) (reader : Nat × Nat) (s : State) : State :=
  let b := a / 64
  if sfind s.dram.marks b = some .dead ∧ ¬ pantryHolds s b ∧ (reqGet s reader.1).isSome then failRequest reader.1 0x0034 s else s

/-! ### Pantry accesses (R305, R324, R325, R493) -/

/-- What a refused or faulted access does to the request that made it; an access for no request is a core's, which takes the load or
store access fault (R307, R311). -/
def accessFault (f : MemFault) (reader : Option (Nat × Nat)) (s : State) : State := match reader with
  | some (i, k) => if (reqGet s i).isSome then useFault (useMem s f) 0 i k s else s
  | none => emit (.coreFault false) s

/-- PANTRY_ACCESS. -/
def doPantryAccess (tag : MemTag) (h : Hint) (a : Nat) (op : MemOp) (reader : Option (Nat × Nat)) (s : State) : State :=
  let n := match op with
    | .read n => n
    | .write d => d.length
  if ¬ tagAllows s tag a n then
    match reader with
    | some (i, _) => if (reqGet s i).isSome then failRequest i 0x0016 s else bump s oIsolationBlockCount
    | none => bump s oIsolationBlockCount
  else match op with
    | .read n => match memRead h a n s with
      | (.ok d, s) => emit (.memData d) s
      | (.error f, s) => accessFault f reader s
    | .write d => if liveRange s a n then memWrite h a d s else accessFault .notLive reader s

/-- LAST (R325): the line is read, dropped without write-back, and both its bursts marked DEAD. -/
def doLast (a : Nat) (reader : Option (Nat × Nat)) (s : State) : State :=
  match memRead .last (128 * (a / 128)) 128 s with
  | (.ok d, s) => emit (.memData d) s
  | (.error f, s) => accessFault f reader s

/-! ### Pantry storage errors (R326) -/

/-- The line in a way of a set. -/
def lineInWay (p : PSet) (way : Nat) : Option PLine := p.lines.find? (fun l => l.way == way)

/-- A way has failed: twice within 1,000 ms it is disabled, unless the set would lose a third way. The RECAST entry's
cause is a free value: no fault code names it. -/
def wayFails (slice set way : Nat) (s : State) : State :=
  let k := setKey slice set
  let p := sget {} s.dram.pantry k
  let fails := p.fails.filter (fun (f : Nat × Nat) => within s f.2 1000000000) ++ [(way, s.time.now)]
  let p := { p with fails := fails }
  let s := { s with dram := { s.dram with pantry := sset {} s.dram.pantry k p } }
  if (fails.filter (fun f => f.1 == way)).length < 2 ∨ p.off.contains way then s
  else
    let detail := slice + 64 * set + 131072 * way
    if 2 ≤ p.off.length then raiseFault 0x0130 .pantrySlice slice none detail s
    else
      let p := { p with off := p.off ++ [way], lines := p.lines.filter (fun l => l.way != way) }
      let d := draw { s with dram := { s.dram with pantry := sset {} s.dram.pantry k p } }
      recast 6 (d.1 % 65536) slice 0xFFFF detail (bump d.2 oPantryWayDisableCount)

/-- PANTRY_STORAGE_ERROR (R326). -/
def doPantryError (slice set way : Nat) (found : Finding) (at' : Nat) (s : State) : State :=
  let s := atT at' s
  if 64 ≤ slice ∨ 2048 ≤ set ∨ 16 ≤ way then s
  else match found with
    | .clean => s
    | .corrected _ => bump s oPantryEccCorrectedCount
    | .uncorrectable =>
      let k := setKey slice set
      let p := sget {} s.dram.pantry k
      let s := match lineInWay p way with
        | none => s
        | some l =>
          let s := { s with dram := { s.dram with pantry := sset {} s.dram.pantry k (dropLine p l.line) } }
          if l.dirty then markLost (2 * l.line + 1) (markLost (2 * l.line) s) else s
      wayFails slice set way s

/-! ### Atomics and reductions (R328) -/

/-- The exception a core takes when the Pantry refuses its operation: address-misaligned, or an access fault (R307, R328). -/
def atomicFault (code a : Nat) (s : State) : State := emit (.coreFault (a % atomicWidth code != 0)) s

/-- An operation without a return. -/
def doAtomic (code : Nat) (keep : Bool) (a v : Nat) (burst : Bytes) (s : State) : State :=
  match atomicOp code keep a v 0 burst s with
  | (some _, s) => s
  | (none, s) => atomicFault code a s

/-- A REDUCE in this chip's Pantry (R328), or a request's contribution to one in another chip's (R400, R429). -/
def doPantryReduce (keep : Bool) (a : Nat) (burst : Bytes) (part : Option Contribution) (s : State) : State := match part with
  | none => doAtomic 5 keep a 0 burst s
  | some p => contribute p a burst s

/-- An operation that returns the old value to its requester. -/
def doAtomicReturn (code : Nat) (keep : Bool) (a v cmp : Nat) (s : State) : State := match atomicOp code keep a v cmp [] s with
  | (some old, s) => emit (.atomicResult old) s
  | (none, s) => atomicFault code a s

/-! ### The commands -/

/-- DRAM_READ_ECC. -/
def execDramReadEcc (a : Nat) (found : Finding) (reader : Option (Nat × Nat)) (t : Nat) (s : State) :
    Host.Outcome State Fault Refusal := .next (doDramRead a found reader t s)

/-- DRAM_PARITY_RETRY. -/
def execDramParityRetry (c fails : Nat) (read : Option (Nat × Option (Nat × Nat))) (t : Nat) (s : State) :
    Host.Outcome State Fault Refusal := .next (doParityRetry c fails read t s)

/-- DRAM_SCRUB. -/
def execDramScrub (a : Nat) (found : Finding) (t : Nat) (s : State) : Host.Outcome State Fault Refusal :=
  .next (doDramScrub a found t s)

/-- CHANNEL_FLAG. -/
def execChannelFlag (c t : Nat) (s : State) : Host.Outcome State Fault Refusal := .next (doChannelFlag c t s)

/-- CHANNEL_MAP_OUT. -/
def execChannelMapOut (c : Nat) (s : State) : Host.Outcome State Fault Refusal := .next (doChannelMapOut c s)

/-- SLICE_MOVE. -/
def execSliceMove (c : Nat) (m : SliceRun) (s : State) : Host.Outcome State Fault Refusal :=
  .next (doSliceMove c m.ahead m.unreadable s)

/-- LOST_LINE_RESTORE. -/
def execLostLineRestore (a : Nat) (s : State) : Host.Outcome State Fault Refusal := .next (doLostRestore a s)

/-- DRAM_DEAD. -/
def execDramDead (a : Nat) (reader : Nat × Nat) (s : State) : Host.Outcome State Fault Refusal := .next (doDramDead a reader s)

/-- PANTRY_ACCESS. -/
def execPantryAccess (tag : MemTag) (h : Hint) (a : Nat) (op : MemOp) (reader : Option (Nat × Nat)) (s : State) :
    Host.Outcome State Fault Refusal := .next (doPantryAccess tag h a op reader s)

/-- LAST. -/
def execLast (a : Nat) (reader : Option (Nat × Nat)) (s : State) : Host.Outcome State Fault Refusal := .next (doLast a reader s)

/-- PANTRY_STORAGE_ERROR. -/
def execPantryStorageError (slice set way : Nat) (found : Finding) (t : Nat) (s : State) : Host.Outcome State Fault Refusal :=
  .next (doPantryError slice set way found t s)

/-- ADD.I32. -/
def execAddI32 (keep : Bool) (a : Nat) (v : BitVec 32) (s : State) : Host.Outcome State Fault Refusal :=
  .next (doAtomic 0 keep a v.toNat [] s)

/-- MAX. -/
def execMax (keep : Bool) (a : Nat) (v : BitVec 32) (s : State) : Host.Outcome State Fault Refusal :=
  .next (doAtomic 1 keep a v.toNat [] s)

/-- MIN. -/
def execMin (keep : Bool) (a : Nat) (v : BitVec 32) (s : State) : Host.Outcome State Fault Refusal :=
  .next (doAtomic 2 keep a v.toNat [] s)

/-- SWAP. -/
def execSwap (keep : Bool) (a : Nat) (v : BitVec 32) (s : State) : Host.Outcome State Fault Refusal :=
  .next (doAtomicReturn 3 keep a v.toNat 0 s)

/-- CAS. -/
def execCas (keep : Bool) (a : Nat) (cmp v : BitVec 64) (s : State) : Host.Outcome State Fault Refusal :=
  .next (doAtomicReturn 4 keep a v.toNat cmp.toNat s)

/-- REDUCE. -/
def execReduce (keep : Bool) (a : Nat) (d : ReduceData) (s : State) : Host.Outcome State Fault Refusal :=
  .next (doPantryReduce keep a d.burst d.part s)

/-- ADD.L16. -/
def execAddL16 (keep : Bool) (a : Nat) (v : BitVec 16) (s : State) : Host.Outcome State Fault Refusal :=
  .next (doAtomic 6 keep a v.toNat [] s)

/-- CHANNEL_MAP_OUT_WRITE. -/
def execChannelMapOutWrite (a : Access) (c : Nat) (s : State) : Host.Outcome State Fault Refusal :=
  .next (answerWrite (doMapOutWrite a c s))

end Sys2Proof.Machine
end

