-- ==== Sys2Proof/Machine/Faults.lean ====
section
/-! DEFINITION. Faults and recasts inside the chip, fail-silence and planned hand-over (R362, R411 to R426, R469). -/

namespace Sys2Proof.Machine

open Sys2Proof

/-! ### Fail-silence (R425) -/

/-- The link ports send idle symbols only. -/
def idlePorts (s : State) : State :=
  (List.range 16).foldl (fun s p => if (portGet s p).st = 0 then s else emit (.idle p) s) s

/-- The chip goes fail-silent: it commits nothing, its ports fall silent, its state reads FAILED, it is
counted, and Surrendered is set (R532). -/
def goSilent (s : State) : State :=
  if s.faults.failed then s
  else
    let s := idlePorts { s with
      faults := { s.faults with silent := true, failed := true }
      sched := { s.sched with commitSet := [], held := [] }
      boot := { s.boot with chip := if s.boot.chip = .tripped then .tripped else .failed } }
    applyNow oSurrendered [1] (bump s oChipFaultCount)

/-- FAIL_SILENT: a SILENT fault has been raised. -/
def doFailSilent (s : State) : State := if s.faults.silent then goSilent s else s

/-- Whether the main domains run: the checks of the Expediter and the Safety Island apply. -/
def mainOn (s : State) : Bool :=
  s.boot.porstN && (s.boot.chip == .active || s.boot.chip == .idle || s.boot.chip == .waking)

/-- EXPEDITER_CHECK (R362): the lockstep schedulers disagree. -/
def doExpediterCheck (at' : Nat) (s : State) : State :=
  if mainOn s then raiseFault 0x0140 .expediter 0 none 0 (atT at' s) else s

/-- ISLAND_CHECK (R411, R469): the heartbeat is missing, or the island's pair disagrees. Only the first is a watchdog miss of
AlertCause, and the command does not say which it is. -/
def doIslandCheck (at' : Nat) (s : State) : State :=
  if mainOn s then
    let s := raiseFault 0x0141 .island 0 none 0 (atT at' s)
    let d := draw s
    goSilent (if d.1 % 2 = 1 then setAlert 2 true d.2 else d.2)
  else s

/-- BOUNDARY_REPORT_MISSED (R469): the Pilot raises EXPEDITER_CHECK and idles the transmitters itself. -/
def doReportMissed (at' : Nat) (s : State) : State :=
  if mainOn s then goSilent (setAlert 2 true (raiseFault 0x0140 .expediter 0 none 0 (atT at' s))) else s

/-- REPLAY_EXHAUSTED (R416): a request has been replayed ReplayLimit times. -/
def doReplayExhausted (i at' : Nat) (s : State) : State := match reqGet s i with
  | some r => if getO s oReplayLimit ≤ r.replays then raiseFault 0x0144 .none 0 (some i) 0 (atT at' s) else s
  | none => s

/-! ### Griddles (R419 to R421) -/

/-- GRIDDLE_SWAP. -/
def doGriddleSwap (g cause at' : Nat) (s : State) : State :=
  if g < 64 ∧ s.boot.porstN then swapGriddle g cause (atT at' s) else s

/-! ### Sieves (R422) -/

/-- The Dense Sieves that still serve and are not due to leave. -/
def servingDense (s : State) : List Nat :=
  s.faults.sieveDense.filter (fun d => !s.faults.sieveDue.any (fun x => x.1 == d || x.2.1 == some d))

/-- Schedule the recast of a Sieve for the next boundary: a Stream Sieve takes the highest Dense Sieve's place, a Dense
Sieve is removed; the last Dense Sieve cannot go. -/
def recastSieve (n cause : Nat) (s : State) : State :=
  let dense := servingDense s
  let due := fun (r : Option Nat) (s : State) => { s with faults := { s.faults with
    sieveDue := s.faults.sieveDue ++ [(n, r, cause, offsetNs s)] } }
  if s.faults.sieveDue.any (fun x => x.1 == n) then s
  else if dense.contains n then
    if dense.length ≤ 1 then raiseFault 0x0133 .sieve n none 0 s else due none s
  else if s.faults.sieveStream.contains n then
    if dense.length ≤ 1 then raiseFault 0x0133 .sieve n none 0 s else due dense.max? s
  else s

/-- SIEVE_SWAP. -/
def doSieveSwap (n cause at' : Nat) (s : State) : State := if s.boot.porstN then recastSieve n cause (atT at' s) else s

/-- The boundary's switch of the Sieve assignment, with its RECAST entries (R422, R424). -/
def switchSieves (s : State) : State :=
  s.faults.sieveDue.foldl (fun s x =>
    let dense := s.faults.sieveDense.filter (fun d => d != x.1 && x.2.1 != some d)
    let stream := match x.2.1 with
      | some q => s.faults.sieveStream.map (fun m => if m = x.1 then q else m)
      | none => s.faults.sieveStream
    let e := recastEntry (if x.2.1.isSome then 2 else 3) x.2.2.1 x.1 (x.2.1.getD 0xFFFF) x.2.2.2 0
    { s with faults := { s.faults with
      sieveDense := dense
      sieveStream := stream
      recastDue := s.faults.recastDue ++ [e] } }) { s with faults := { s.faults with sieveDue := [] } }

/-! ### Unit limits and self-test (R416, R418) -/

/-- The code of the last fault logged against a unit. -/
def lastCode (s : State) (kind : UnitKind) (idx : Nat) : Nat :=
  match (s.faults.log.filter (fun e => byteAt e 3 == unitCode kind && fld e 4 2 == idx)).getLast? with
  | some e => fld e 0 2
  | none => 0

/-- UNIT_FAULT_LIMIT (R416): a unit with UnitFaultLimit charged faults within 1,000 ms is recast. -/
def doUnitFaultLimit (kind : UnitKind) (idx at' : Nat) (s : State) : State :=
  let s := atT at' s
  if unitCharges s kind idx < getO s oUnitFaultLimit then s
  else match kind with
    | .griddle | .whisk | .tileStore => (match logicalOf s idx with
        | some g => swapGriddle g (lastCode s kind idx) s
        | none => s)
    | .sieve => recastSieve idx (lastCode s kind idx) s
    | _ => s

/-- The unit kind and physical index of a unit under test. -/
def testKind : TestUnit → UnitKind × Nat
  | .griddle g => (.griddle, g)
  | .whisk g => (.whisk, g)
  | .tileStore g => (.tileStore, g)
  | .sieve n => (.sieve, n)
  | .expediterPair => (.expediter, 0)
  | .islandPair => (.island, 0)

/-- SELF_TEST_FAIL (R411, R418, R423): a failing spare leaves the spares, a failing unit in service is recast. -/
def testFails (u : TestUnit) (s : State) : State :=
  let k := testKind u
  let s := raiseFault 0x0122 k.1 k.2 none 0 s
  match u with
  | .griddle p | .whisk p | .tileStore p =>
    if s.faults.spares.contains p then
      { s with faults := { s.faults with spares := s.faults.spares.filter (· != p), retired := s.faults.retired ++ [p] } }
    else match logicalOf s p with
      | some g => swapGriddle g 0x0122 s
      | none => s
  | .sieve n => recastSieve n 0x0122 s
  | _ => s

/-- SELF_TEST_SLICE. -/
def doSelfTestSlice (failure : Option TestUnit) (at' : Nat) (s : State) : State :=
  if ¬ mainOn s then s
  else
    let s := bump (atT at' s) oSelfTestSliceCount
    match failure with
    | some u => testFails u s
    | none => s

/-! ### Hand-over (R426) -/

/-- A DICT frame for an object of another chip (R516), with the chip's next tag. -/
def sendDict (dest key : Nat) (write : Bool) (v : Bytes) (s : State) : State :=
  let f := { newFrame s opDict dest with
    operand := key / 256 + 65536 * (key % 256) + (if write then 16777216 else 0)
    tag := s.links.nextTag
    payload := toBursts v }
  flowSend f { s with links := { s.links with nextTag := s.links.nextTag + 1 } }

/-- HAND_OVER (R426): after a PLANNED fault or a HandOver write the chip admits no more, tells its buddy, and runs on; the
record of the tick that ends at the last of HandoverTicks boundaries will carry HANDOVER_LAST. -/
def doHandOver (cause at' : Nat) (s : State) : State :=
  if s.faults.planned ≠ some cause ∨ s.faults.handOver.isSome ∨ ¬ alive s then s
  else
    let s := atT at' s
    let n := getO s oHandoverTicks
    let last := s.time.tickNo + n - 1 + (if n = 1 ∧ s.record.sealedNow then 1 else 0)
    let buddy := getO s oBuddyChipId
    let h : HandOverSt := ⟨last, s.boot.spareWanted == some .coldSpare⟩
    let s := { s with faults := { s.faults with handOver := some h } }
    if buddy = 0xFFFF then s else sendDict buddy oTakeoverStart true (natLe 2 (getO s oChipId)) s

/-- HANDOVER_LAST (R426): the buddy has acknowledged that record and its commit set is released; the chip falls silent. -/
def doHandoverLast (s : State) : State := match s.faults.handOver with
  | some h =>
    if h.lastTick < s.time.tickNo ∧ ¬ s.mirror.wait.any (fun w => w.1 ≤ h.lastTick)
        ∧ ¬ s.sched.held.any (fun x => x.1 ≤ h.lastTick) then goSilent s
    else s
  | none => s

/-- HAND_OVER_WRITE (R426): a write of 1 to HandOver asks for a hand-over. -/
def doHandOverWrite (a : Access) (v : Nat) (s : State) : Nat × State :=
  match gate s a oHandOver (natLe 1 v) with
  | 0 =>
    if v = 1 then (abOk, { s with faults := { s.faults with planned := s.faults.planned.orElse (fun _ => some 0) } })
    else (abOk, s)
  | e => (e, s)

/-! ### Prediction and temperature (R159, R411) -/

/-- GATE_OFF_EXPIRED (R159): GateOffTicks have passed, and the step predicts again. -/
def doGateOffExpired (ref : Nat) (s : State) : State :=
  let g : GateSt := sget {} s.sched.gates ref
  if g.off ∧ g.offLeft = 0 then
    { s with sched := { s.sched with gates := supd {} s.sched.gates ref (fun g => { g with off := false }) } }
  else s

/-- THERMAL_PERSIST (R411): a stack has stood CRITICAL at ThermalRecastTicks boundaries in a row. -/
def doThermalPersist (stack : Nat) (s : State) : State :=
  if stack < 12 ∧ getO s oThermalRecastTicks ≤ sget 0 s.faults.criticalTicks stack then
    raiseFault 0x0135 .stack stack none 0 s
  else s

/-! ### The commands -/

/-- FAIL_SILENT. -/
def execFailSilent (s : State) : Host.Outcome State Fault Refusal := .next (doFailSilent s)

/-- EXPEDITER_CHECK. -/
def execExpediterCheck (t : Nat) (s : State) : Host.Outcome State Fault Refusal := .next (doExpediterCheck t s)

/-- ISLAND_CHECK. -/
def execIslandCheck (t : Nat) (s : State) : Host.Outcome State Fault Refusal := .next (doIslandCheck t s)

/-- BOUNDARY_REPORT_MISSED. -/
def execBoundaryReportMissed (t : Nat) (s : State) : Host.Outcome State Fault Refusal := .next (doReportMissed t s)

/-- REPLAY_EXHAUSTED. -/
def execReplayExhausted (i t : Nat) (s : State) : Host.Outcome State Fault Refusal := .next (doReplayExhausted i t s)

/-- UNIT_FAULT_LIMIT. -/
def execUnitFaultLimit (kind : UnitKind) (idx t : Nat) (s : State) : Host.Outcome State Fault Refusal :=
  .next (doUnitFaultLimit kind idx t s)

/-- GRIDDLE_SWAP. -/
def execGriddleSwap (g cause t : Nat) (s : State) : Host.Outcome State Fault Refusal := .next (doGriddleSwap g cause t s)

/-- SIEVE_SWAP. -/
def execSieveSwap (n cause t : Nat) (s : State) : Host.Outcome State Fault Refusal := .next (doSieveSwap n cause t s)

/-- SELF_TEST_SLICE. -/
def execSelfTestSlice (failure : Option TestUnit) (t : Nat) (s : State) : Host.Outcome State Fault Refusal :=
  .next (doSelfTestSlice failure t s)

/-- HAND_OVER. -/
def execHandOver (cause t : Nat) (s : State) : Host.Outcome State Fault Refusal := .next (doHandOver cause t s)

/-- HANDOVER_LAST. -/
def execHandoverLast (s : State) : Host.Outcome State Fault Refusal := .next (doHandoverLast s)

/-- HAND_OVER_WRITE. -/
def execHandOverWrite (a : Access) (v : Nat) (s : State) : Host.Outcome State Fault Refusal :=
  .next (answerWrite (doHandOverWrite a v s))

/-- GATE_OFF_EXPIRED. -/
def execGateOffExpired (ref : Nat) (s : State) : Host.Outcome State Fault Refusal := .next (doGateOffExpired ref s)

/-- THERMAL_PERSIST. -/
def execThermalPersist (stack : Nat) (s : State) : Host.Outcome State Fault Refusal := .next (doThermalPersist stack s)

end Sys2Proof.Machine
end

