-- ==== Sys2Proof/Machine/Power.lean ====
section
/-! DEFINITION. Power and thermal control: the reason limits and the issue limit, set-points and bands, power samples,
droops, and the faults of supplies and clocks (R43, R320, R409, R441 to R457, R547). -/

namespace Sys2Proof.Machine

open Sys2Proof

/-! ### Reason limits (R444, R446, R452) -/

/-- The least of the five reason limits. -/
def leastLimit (s : State) : Nat := ((List.range 5).map (fun r => getO s (oReasonLimit + r))).foldl min 64

/-- A THROTTLE entry (R452). -/
def throttleEntry (reason old new eff : Nat) (crit : Bool) (source measured off dur : Nat) : Bytes :=
  entry 0x0C (natLe 1 reason ++ natLe 1 old ++ natLe 1 new ++ natLe 1 eff ++ natLe 1 (if crit then 1 else 0)
    ++ natLe 1 source ++ natLe 2 measured ++ natLe 4 off ++ natLe 4 dur)

/-- A new value of a reason limit, with its THROTTLE entry, its episode and the issue limit that follows from it. -/
def setReason (reason new : Nat) (crit : Bool) (source measured : Nat) (s : State) : State :=
  let old := getO s (oReasonLimit + reason)
  if old = new then s
  else
    let s := setO s (oReasonLimit + reason) new
    let k := getO s oIssueLimit
    let s := setO s oIssueLimit (leastLimit s)
    let s := if getO s oIssueLimit = k then s else recFlag 2 s
    let began := nth none s.power.episode reason
    let len := match began with
      | some t => if new = 64 then s.time.now - t else 0
      | none => 0
    let rest := nth 0 s.power.msRest reason + len
    let s := if began.isNone ∧ new < 64 then
        bump { s with power := { s.power with episode := s.power.episode.set reason (some s.time.now) } } (oThrottleEpisodes + reason)
      else if new = 64 then
        addO { s with power := { s.power with
          episode := s.power.episode.set reason none
          msRest := s.power.msRest.set reason (rest % 1000000) } } (oThrottleMs + reason) (rest / 1000000)
      else s
    addEntry (throttleEntry reason old new (getO s oIssueLimit) crit source measured
      (if crit then offsetNs s else 0) (len / 1000000)) s

/-- A limit lowered by a step, down to a floor; a limit that stands below the floor stays. -/
def lowered (l step floor : Nat) : Nat := if l ≤ floor then l else max floor (l - step)

/-- A critical trip (R43, R446, R448, R449): the limit falls at once, and partners of open collectives are told. -/
def criticalTrip (reason source measured : Nat) (s : State) : State :=
  let l := getO s (oReasonLimit + reason)
  let s := setReason reason (min l (getO s oCriticalIssueLimit)) true source measured s
  sendLate (if reason = 2 then 0 else 1) 1 s

/-! ### The reasons at a boundary (R447 to R450) -/

/-- The power samples of PowerCapWindowMs that end at the check mark, or all since reset. -/
def windowSamples (s : State) : List Nat :=
  s.power.samples.drop (s.power.samples.length - 100 * getO s oPowerCapWindowMs)

/-- POWER_CAP's new limit and P_avg in W (R447): samples are in 1/4 mW, so the mean in W is sum / (4,000 · count). -/
def powerCapLimit (s : State) : Nat × Nat :=
  let w := windowSamples s
  let sum := sumN w
  let n := 4000 * w.length
  let c := getO s oPowerCapW
  let l := getO s oReasonLimit
  let avg := if w = [] then 0 else sum / n
  if w = [] then (l, 0)
  else if c * n < sum then (max (getO s oIssueLimitMin) (min (l - 1) (l * c * n / sum)), avg)
  else if sum * 10000 < n * c * (10000 - getO s oPowerCapMarginBp) then (min 64 (l + getO s oIssueStepUp), avg)
  else (l, avg)

/-- Die temperature at the check mark and DIE_THERMAL's new limit (R448). -/
def dieLimit (s : State) : Nat :=
  let l := getO s (oReasonLimit + 1)
  let thr : Int := getO s oDieThrottleC
  match s.power.dieTemp with
  | none => l
  | some t =>
    if nth false s.power.critical 0 then l
    else if 16 * thr ≤ t then lowered l (getO s oDieStepDown) (getO s oIssueLimitMin)
    else if t < 16 * (thr - 3) then min 64 (l + getO s oIssueStepUp)
    else l

/-- A stack's thermal state (R320). -/
def stackState (s : State) (k : Nat) : Nat := getO s (oStackThermalState + k)

/-- STACK_THERMAL's new limit (R449). -/
def stackLimit (s : State) : Nat :=
  let l := getO s (oReasonLimit + 2)
  if nth false s.power.critical 1 then l
  else if (List.range 12).any (fun k => decide (2 ≤ stackState s k)) then
    lowered l (getO s oStackStepDown) (getO s oIssueLimitMin)
  else min 64 (l + getO s oIssueStepUp)

/-- The stack named as the source of a stack limit: the hottest of those in the highest state, the lowest of equals. -/
def hotStack (s : State) : Nat :=
  let key := fun (k : Nat) => 65536 * stackState s k + ((toSigned 16 (getO s (oStackTempC + k))) + 32768).toNat
  (List.range 12).foldl (fun (b : Nat) k => if key b < key k then k else b) 0

/-- The die zone with the highest reading. -/
def hotZone (s : State) : Nat :=
  let v := fun (z : Nat) => (sget {} s.pilot.sensors (24 + z)).value
  (List.range 24).foldl (fun (b : Nat) z => if v b < v z then z else b) 0

/-- The issue limits of a boundary (R446, step 4 of R41), on the values of the check mark. -/
def boundaryLimits (s : State) : State :=
  let p := powerCapLimit s
  let s := setO s oChipPowerW p.2
  let s := setReason 0 p.1 false 0xFF p.2 s
  let s := setReason 1 (dieLimit s) false (hotZone s) (ofSigned 16 (s.power.dieTemp.getD 0)) s
  let k := hotStack s
  let s := setReason 2 (stackLimit s) false k (getO s (oStackTempC + k)) s
  let s := setReason 3 (getO s oPilotIssueLimit) false 0xFF 0 s
  setReason 4 (getO s oOperatorIssueLimit) false 0xFF 0 s

/-- The reason reported for the issue limit: the lowest code whose limit equals it (R453). -/
def reportedReason (s : State) : Option Nat :=
  let k := getO s oIssueLimit
  if k = 64 then none else (List.range 5).find? (fun r => getO s (oReasonLimit + r) == k)

/-- The cause that a LATE frame gives for a reason: stack, die, power cap, or other (R401). -/
def lateCause : Nat → Nat
  | 0 => 2
  | 1 => 1
  | 2 => 0
  | _ => 4

/-! ### The issue limit at a Griddle (R445) -/

/-- The 6 bits of a number in reverse order. -/
def rev6 (x : Nat) : Nat := sumN ((List.range 6).map (fun i => bits x i 1 * 2 ^ (5 - i)))

/-- Whether logical Griddle g advances its passes and its drain in arithmetic cycle c under a limit k. Only the instants of issue
depend on it: no price, result or record does. -/
def cycleEnabled (k g c : Nat) : Bool := decide (rev6 ((c + 4 * g) % 64) < k)

/-! ### Set-points (R441 to R443) -/

/-- SetPointMv: the set-point of domain d in band b. -/
def setPointMv (s : State) (d b : Nat) : Nat := fld s.sec.voltageTable (128 + 16 * d + 2 * b) 2

/-- BandUpperC, °C. -/
def bandUpperC (s : State) (b : Nat) : Int := toSigned 8 (byteAt s.sec.voltageTable (48 + b))

/-- DomainRail: the rail of domain d. -/
def domainRail (s : State) (d : Nat) : Nat := byteAt s.sec.voltageTable (64 + d)

/-- The range of a rail's set-points, in mV (R545). -/
def railRange : Nat → Nat × Nat
  | 0 => (600, 800)
  | 1 => (700, 850)
  | 2 => (1050, 1150)
  | 3 => (700, 800)
  | 4 => (850, 950)
  | 5 => (720, 780)
  | 6 => (1710, 1890)
  | _ => (1, 0)

/-- Whether every set-point of a domain lies in its rail's range. -/
def setPointsOk (s : State) (d : Nat) : Bool :=
  let r := railRange (domainRail s d)
  (List.range 8).all (fun b => decide (r.1 ≤ setPointMv s d b ∧ setPointMv s d b ≤ r.2))

/-- The checks of the voltage table at start-up (R441, R442): its format, the vendor's signature over bytes 0 to 1,151, the part's own
identity key, every set-point. -/
def voltageTableOk (s : State) : Bool :=
  let t := s.sec.voltageTable
  t.length == 1216 && fld t 0 4 == 1 && sub t 8 32 == sha256 Config.deviceKey
    && (List.range 48).all (setPointsOk s) && ecdsaVerify Config.vendorKey (t.take 1152) (sub t 1152 64)

/-- VoltageTableDigest: the SHA-256 of the table. -/
def voltageTableDigest (s : State) : Bytes := sha256 (s.sec.voltageTable.take 1216)

/-- A rail's set-point: the largest among its powered domains, each in its band. -/
def railSet (s : State) (r : Nat) : Nat :=
  ((natsWhere 48 (fun d => nth false s.power.domainOn d && domainRail s d == r)).map
    (fun d => setPointMv s d (nth 0 s.power.band d))).foldl max 0

/-- Write the set-points that have changed to their regulators over AVSBus; VPILOT and V1P8 are never written (R547). -/
def applyRails (s : State) : State :=
  (List.range 5).foldl (fun s r =>
    let v := railSet s r
    if v = 0 ∨ v = nth 0 s.power.railMv r then s
    else emit (.avsWrite r v) { s with power := { s.power with railMv := s.power.railMv.set r v } }) s

/-- The highest filtered reading of a domain's zone, in 1/16 °C. -/
def zoneTemp (s : State) (d : Nat) : Option Int :=
  ((Config.domainSensors d).filterMap (fun x => match sfind s.pilot.sensors x with
    | some k => if k.seen then some k.value else none
    | none => none)).max?

/-- The band of a temperature. -/
def bandOf (s : State) (t : Int) : Nat := ((List.range 7).find? (fun b => t ≤ 16 * bandUpperC s b)).getD 7

/-- Whether a temperature stands 3 °C inside a band, seen from the band in force. -/
def insideBand (s : State) (cur b : Nat) (t : Int) : Bool :=
  if b < cur then decide (t ≤ 16 * bandUpperC s b - 48) else decide (16 * bandUpperC s (b - 1) + 48 ≤ t)

/-- Put a domain in a band. -/
def setBand (d b : Nat) (s : State) : State :=
  { s with power := { s.power with band := s.power.band.set d b, lowering := s.power.lowering.filter (· != d) } }

/-- A domain's band on a sample: one with a higher set-point is taken at once, one with a lower set-point waits. -/
def domainBand (s : State) (d : Nat) : State :=
  match zoneTemp s d with
  | none => s
  | some t =>
    let cur := nth 0 s.power.band d
    let b := bandOf s t
    if b = cur then { s with power := { s.power with lowering := s.power.lowering.filter (· != d) } }
    else if setPointMv s d cur ≤ setPointMv s d b then setBand d b s
    else if insideBand s cur b t then
      if s.power.lowering.contains d then s else { s with power := { s.power with lowering := s.power.lowering ++ [d] } }
    else { s with power := { s.power with lowering := s.power.lowering.filter (· != d) } }

/-- The bands of all powered domains, once the voltage table is in force (R442, R526). -/
def doBands (s : State) : State :=
  if getO s oBootStage < 4 then s
  else applyRails ((natsWhere 48 (fun d => nth false s.power.domainOn d)).foldl domainBand s)

/-- SET_POINT_LOWER (R443). -/
def doSetPointLower (d : Nat) (s : State) : State :=
  match zoneTemp s d with
  | some t => if s.power.lowering.contains d ∧ nth false s.power.domainOn d then applyRails (setBand d (bandOf s t) s) else s
  | none => s

/-! ### Power, droop, supplies, clocks (R409, R447, R454, R455, R547) -/

/-- The power of a sample in 1/4 mW: millivolts times quarter amperes, over the rails. -/
def samplePower (mv qa : List Nat) : Nat := sumN ((List.range 7).map (fun r => nth 0 mv r * nth 0 qa r))

/-- ChipEnergyMj from the energy held. -/
def energyMj (s : State) : Nat := s.power.energy / 400000

/-- The activity model's static power over one sample of 10 µs, rail by rail (R456): 1 mW for 10 µs is 10,000 pJ. -/
def modelStatic (s : State) : State :=
  (List.range 7).foldl (fun s r => modelEnergy (modelUnit 11 r) (9 + r) (if nth 0 s.power.railMv r = 0 ∧ r < 5 then 0 else 10000) s) s

/-- POWER_SAMPLE (R447, R455): a sample after the check mark belongs to the next window. -/
def doPowerSample (mv qa : List Nat) (s : State) : State :=
  if ¬ s.boot.porstN then s
  else
    let p := samplePower mv qa
    let s := modelStatic { s with power := { s.power with energy := s.power.energy + p } }
    if s.time.phase = .sealed then { s with power := { s.power with lateSamples := s.power.lateSamples ++ [p] } }
    else
      let l := s.power.samples ++ [p]
      { s with power := { s.power with samples := l.drop (l.length - 1000000) } }

/-- The samples taken after the check mark join the window of the next tick. -/
def mergeSamples (s : State) : State :=
  let l := s.power.samples ++ s.power.lateSamples
  { s with power := { s.power with samples := l.drop (l.length - 1000000), lateSamples := [] } }

/-- Whether an excursion is past the droop threshold (R454). -/
def isDroop (s : State) (depth : Nat) : Bool := decide (getO s oDroopThresholdMv < depth)

/-- A SUPPLY_FAULT of a rail (R409, R411). -/
def supplyFault (rail : Nat) (s : State) : State := raiseFault 0x0143 .clockOrSupply rail none 0 s

/-- DROOP: an excursion of more than 50 mV for 10 µs is the supply fault itself; a shorter or shallower one is logged and counted. -/
def doDroop (rail depth dur : Nat) (s : State) : State :=
  if 7 ≤ rail then s
  else if 50 < depth ∧ 10000 ≤ dur then if s.boot.porstN then supplyFault rail s else s
  else if ¬ isDroop s depth then s
  else
    let e := natLe 1 rail ++ natLe 1 depth ++ zeros 2 ++ natLe 4 dur ++ natLe 8 s.time.tickNo
    let l := s.power.droopLog ++ [e]
    bump { s with power := { s.power with droopLog := l.drop (l.length - 256) } } oDroopCount

/-- SUPPLY_FAULT. -/
def doSupplyFault (rail at' : Nat) (s : State) : State := if rail < 7 ∧ s.boot.porstN then supplyFault rail (atT at' s) else s

/-- A stage fails: start-up stops (R533). -/
def bootFault (code : Nat) (s : State) : State :=
  let s := { s with
    boot := { s.boot with chip := .failed, running := false }
    links := { s.links with ports := s.links.ports.map (fun (e : Nat × Port) => (e.1, { e.2 with st := 0, width := 0 })) } }
  setAlert 3 true (setO s oBootFault code)

/-- CLOCK_FAULT (R409, R411): while start-up runs, it stops with the boot fault CLOCK (R533, R549). -/
def doClockFault (at' : Nat) (s : State) : State :=
  if s.boot.porstN ∧ s.boot.running then bootFault 2 (atT at' s)
  else if s.boot.porstN then raiseFault 0x0142 .clockOrSupply 0 none 0 (atT at' s) else s

/-- SMBALERT (R547): STATUS_WORD is read; a fault status in it is a SUPPLY_FAULT. -/
def doSmbalert (rail : Nat) (w : BitVec 16) (bad : Bool) (at' : Nat) (s : State) : State :=
  if 7 ≤ rail ∨ ¬ s.boot.porstN then s
  else
    let s := emit (.pmbus rail 0x79 0) (atT at' s)
    let s := { s with pins := { s.pins with regulator := s.pins.regulator.set rail w.toNat } }
    if bad then supplyFault rail s else s

/-! ### The commands -/

/-- SET_POINT_LOWER. -/
def execSetPointLower (d : Nat) (s : State) : Host.Outcome State Fault Refusal := .next (doSetPointLower d s)

/-- POWER_SAMPLE. -/
def execPowerSample (mv qa : List Nat) (s : State) : Host.Outcome State Fault Refusal := .next (doPowerSample mv qa s)

/-- DROOP. -/
def execDroop (rail depth dur : Nat) (s : State) : Host.Outcome State Fault Refusal := .next (doDroop rail depth dur s)

/-- SUPPLY_FAULT. -/
def execSupplyFault (rail t : Nat) (s : State) : Host.Outcome State Fault Refusal := .next (doSupplyFault rail t s)

/-- CLOCK_FAULT. -/
def execClockFault (t : Nat) (s : State) : Host.Outcome State Fault Refusal := .next (doClockFault t s)

/-- SMBALERT. -/
def execSmbalert (rail : Nat) (w : BitVec 16) (bad : Bool) (t : Nat) (s : State) : Host.Outcome State Fault Refusal :=
  .next (doSmbalert rail w bad t s)

end Sys2Proof.Machine
end

