-- ==== Sys2Proof/Machine/Boot.lean ====
section
/-! DEFINITION. Start-up, reset levels, spare states and IDLE (R22, R388 to R391, R470, R471, R477, R523 to R541, R548,
R551, R558). -/

namespace Sys2Proof.Machine

open Sys2Proof

/-! ### The tick record in progress (R48) -/

/-- Open the record of the tick that begins: what was decided after the last seal stands first in it. -/
def openRecord (s : State) : State :=
  { s with record := { s.record with
    entries := s.record.next
    next := []
    flags := s.record.nextFlags
    nextFlags := 0
    lengthNs := s.time.tickLen % 2 ^ 32
    srcState := getO s oTickSourceState
    limit := getO s oIssueLimit
    sealedNow := false } }

/-! ### Rails (R524, R525, R545) -/

/-- The order in which the main rails are switched on: VIO, VSRAM, VCORE, VSTACK, VSERDES. -/
def railOrder : List Nat := [3, 1, 0, 2, 4]

/-- A main rail's set-point at start-up, in mV. -/
def bootMv (r : Nat) : Nat := match r with
  | 2 => 1100
  | 4 => 900
  | _ => 750

/-- Switch a rail on at its boot set-point, over AVSBus and by the PMBus OPERATION command. -/
def startRail (r : Nat) (s : State) : State :=
  let s := { s with
    boot := { s.boot with railOn := s.boot.railOn.set r true, railGood := s.boot.railGood.set r false }
    power := { s.power with railMv := s.power.railMv.set r (bootMv r) } }
  emit (.pmbus r 1 0x80) (emit (.avsWrite r (bootMv r)) s)

/-- Command the main rails off: VSERDES, VSTACK, VCORE, VSRAM, VIO; those that a test keeps stay on. -/
def railsOff (keep : Nat → Bool) (s : State) : State :=
  railOrder.reverse.foldl (fun s r =>
    if nth false s.boot.railOn r ∧ ¬ keep r then
      emit (.pmbus r 1 0) { s with boot := { s.boot with
        railOn := s.boot.railOn.set r false
        railGood := s.boot.railGood.set r false } }
    else s) s

/-- Whether every die-zone and stack sensor reads below 100 °C (R551); one without a reading yet holds nothing back. -/
def railsCool (s : State) : Bool := s.pilot.sensors.all (fun (e : Nat × Sensor) => 48 ≤ e.1 || decide (e.2.value < 1600))

/-- The first main rail that has not reported power-good. -/
def nextRail (s : State) : Option Nat := railOrder.find? (fun r => !nth false s.boot.railGood r)

/-- Start the next main rail, once no sensor stands at 100 °C. -/
def startRails (s : State) : State := match nextRail s with
  | some r => if nth false s.boot.railOn r ∨ ¬ railsCool s then s else startRail r s
  | none => s

/-- The start-up stage at which a power domain is switched on (R524, R548). -/
def domainStage (d : Nat) : Nat :=
  if d = 42 ∨ d = 47 then 1
  else if d = 28 then 3
  else if (20 ≤ d ∧ d ≤ 23) ∨ (29 ≤ d ∧ d ≤ 41) then 7
  else if d = 24 then 8
  else if d = 26 ∨ d = 27 then 10
  else if 43 ≤ d ∧ d ≤ 46 then 11
  else 9

/-- Switch on the domains of a stage; from stage VOLTAGE_TABLE on, the rails follow (R443). -/
def powerDomains (stage : Nat) (s : State) : State :=
  let on := (s.power.domainOn.zipIdx).map (fun (x : Bool × Nat) => x.1 || domainStage x.2 == stage)
  let s := { s with power := { s.power with domainOn := on } }
  if stage < 4 then s else applyRails s

/-- Switch off every domain but ALWAYS_ON and SIDEBAND. -/
def domainsOff (s : State) : State :=
  { s with power := { s.power with domainOn := (List.range 48).map (fun d => domainStage d == 1) } }

/-- A stage is complete. -/
def stageDone (n : Nat) (s : State) : State := setO s oBootStage n

/-! ### What a reset clears (R530, R535) -/

/-- Objects held in Safety Island NV that are read before stage DICTIONARY. -/
def heldInNv (key : Nat) : Bool :=
  key == oTripCount || key == oSurrendered || (oSecurityVersionMin ≤ key && key < oSecurityVersionMin + 4)

/-- Objects of the Pilot's, which a chip reset keeps, and ChipFaultCount, which is read after it (R425). -/
def heldByPilot (key : Nat) : Bool :=
  let idx := key / 256
  idx == 0x2010 || idx == 0x2020 || (0x9040 ≤ idx && idx ≤ 0x9046) || idx == 0x1004 || key == oChipFaultCount

/-- The volatile state is lost: Safety Island NV, the Ingot Store and TripCount stay, and that a variant load session ran,
which ends at start-up with VARIANT_POWER_LOSS (R279). -/
def powerLost (s : State) : State :=
  let fresh : State := {}
  { fresh with
    pending := s.pending
    out := s.out
    draws := s.draws
    dict := { fresh.dict with
      vals := s.dict.vals.filter (fun (e : Nat × Nat) => heldInNv e.1)
      nextReset := s.dict.nextReset
      restoreDefaults := s.dict.restoreDefaults
      nvA := s.dict.nvA
      nvB := s.dict.nvB }
    sec := { s.sec with sessions := [], runningB := fresh.sec.runningB, measured := fresh.sec.measured, measuredVer := fresh.sec.measuredVer }
    ingot := { s.ingot with refreshQ := [], remapDue := [], patrolAt := 0 }
    vars := { fresh.vars with session := s.vars.session }
    faults := { fresh.faults with
      griddleMap := s.faults.griddleMap
      spares := s.faults.spares
      retired := s.faults.retired
      sieveStream := s.faults.sieveStream
      sieveDense := s.faults.sieveDense }
    dram := { fresh.dram with map := s.dram.map } }

/-- The writes already in force that wait for the NV region reach it. -/
def flushNv (s : State) : State :=
  s.dict.nvQueue.foldl (fun s e => nvStore e.1 e.2 s) { s with dict := { s.dict with nvQueue := [] } }

/-- The main domains and DRAM lose their state; the Pilot, time and the grid go on. -/
def mainLost (s : State) : State :=
  let s := flushNv s
  let fresh := powerLost s
  { fresh with
    time := { s.time with firstAdmit := false, slipBar := false }
    dict := { fresh.dict with
      vals := s.dict.vals.filter (fun (e : Nat × Nat) => heldInNv e.1 || heldByPilot e.1) }
    boot := { fresh.boot with
      porstN := s.boot.porstN
      railOn := s.boot.railOn
      railGood := s.boot.railGood
      wakeFor := s.boot.wakeFor
      wakeNonces := s.boot.wakeNonces }
    pins := { s.pins with tripN := true }
    ingot := s.ingot
    pilot := s.pilot
    power := { fresh.power with
      railMv := s.power.railMv
      domainOn := s.power.domainOn
      band := s.power.band
      lowering := s.power.lowering
      dieTemp := s.power.dieTemp }
    record := { fresh.record with
      sealedNow := s.record.sealedNow
      lengthNs := s.record.lengthNs
      srcState := s.record.srcState } }

/-! ### Images, the voltage table, the dictionary (R442, R476, R477, R527, R532) -/

/-- The valid NV copy with the higher sequence number. -/
def nvNow (s : State) : Option NvCopy :=
  match s.dict.nvA.valid, s.dict.nvB.valid with
  | true, true => some (if s.dict.nvA.seq < s.dict.nvB.seq then s.dict.nvB else s.dict.nvA)
  | true, false => some s.dict.nvA
  | false, true => some s.dict.nvB
  | false, false => none

/-- A kind's minimum SecurityVersion. -/
def minVersion (s : State) (k : Nat) : Nat := getO s (oSecurityVersionMin + k)

/-- ImageKind. -/
def imKind (v : Bytes) : Nat := byteAt v 8

/-- SecurityVersion. -/
def imVersion (v : Bytes) : Nat := fld v 12 4

/-- ImageDigest. -/
def imDigest (v : Bytes) : Bytes := sub v 32 32

/-- Whether an image's header has the form of R476. -/
def imForm (v : Bytes) : Bool :=
  256 ≤ v.length && fld v 0 4 == 1 && fld v 4 4 == 0x0B12000A && imKind v < 4 && allZero (sub v 9 3)
    && 1 ≤ fld v 16 4 && fld v 16 4 ≤ 4194304 && v.length == 256 + fld v 16 4
    && allZero (sub v 20 12) && allZero (sub v 129 63)

/-- Whether an image passes the vendor key, signature and digest checks of R476. -/
def imSigned (v : Bytes) : Bool :=
  keyDigest (sub v 64 65) == keyDigest Config.vendorKey && ecdsaVerify (sub v 64 65) (sub v 0 192) (sub v 192 64)
    && sha256 (v.drop 256) == imDigest v

/-- Whether a copy of a kind qualifies for loading: it passes R476, and its version is at least the kind's minimum. -/
def qualifies (s : State) (k : Nat) (c : Bytes) : Bool :=
  imForm c && imKind c == k && imSigned c && decide (minVersion s k ≤ imVersion c)

/-- Load a kind's image: the copy with the higher SecurityVersion of those that qualify, either where both have the same.
Answers whether one did. -/
def loadImage (k : Nat) (s : State) : Bool × State :=
  let a := nth [] s.sec.imagesA k
  let b := nth [] s.sec.imagesB k
  let take := fun (c : Bytes) (isB : Bool) (s : State) => (true, { s with sec := { s.sec with
    runningB := s.sec.runningB.set k isB
    measured := s.sec.measured.set k (imDigest c)
    measuredVer := s.sec.measuredVer.set k (imVersion c) } })
  match qualifies s k a, qualifies s k b with
  | true, false => take a false s
  | false, true => take b true s
  | true, true =>
    if imVersion b < imVersion a then take a false s
    else if imVersion a < imVersion b then take b true s
    else
      let d := draw s
      if d.1 % 2 = 0 then take a false d.2 else take b true d.2
  | false, false => (false, s)

/-- Load images of several kinds; the first that has none to load stops start-up with a fault code. -/
def loadImages (code : Nat) (ks : List Nat) (s : State) : Bool × State :=
  ks.foldl (fun (r : Bool × State) k =>
    if ¬ r.1 then r
    else
      let x := loadImage k r.2
      if x.1 then x else (false, bootFault code x.2)) (true, s)

/-- Put each powered domain in the band of its zone's highest reading. -/
def takeBands (s : State) : State :=
  (natsWhere 48 (fun d => nth false s.power.domainOn d)).foldl (fun s d => match zoneTemp s d with
    | some t => setBand d (bandOf s t) s
    | none => s) s

/-- Objects that a restore of defaults leaves alone (R519). -/
def keptByRestore (key : Nat) : Bool := (0x8000 ≤ key / 256 && key / 256 ≤ 0x80FF) || key == oChipId

/-- Keep a value in NV without counting it. -/
def nvKeep (key : Nat) (v : Bytes) (c : NvCopy) : NvCopy := { c with vals := sput c.vals key v }

/-- Stage DICTIONARY (R527): defaults restored, persistent values, writes for this reset. Written epoch and base objects come into force
here, and the boundaries stay on the grid (log 97). -/
def loadDictionary (c : NvCopy) (s : State) : State :=
  let c := if s.dict.restoreDefaults then { c with vals := c.vals.filter (fun (e : Nat × Bytes) => keptByRestore e.1) } else c
  let next := s.dict.nextReset
  let nv := (next.filter (fun (e : Nat × Bytes) => isPersistent e.1)).foldl (fun (c : NvCopy) e => nvKeep e.1 e.2 c) c
  let s := { s with dict := { s.dict with
    nvA := { nv with seq := c.seq + 1 }
    restoreDefaults := false
    nextReset := [] } }
  let s := c.vals.foldl (fun s e => putValue e.1 e.2 s) s
  let s := next.foldl (fun s e => putValue e.1 e.2 s) s
  if getO s oSurrendered = 1 then setO s oChipId 0xFFFF else s

/-- Stages 3 to 6 (R481, R526, R527), with a fresh InstallNonce: ISLAND, VOLTAGE_TABLE, DICTIONARY, IMAGES, the last with the kinds it loads. -/
def bootIsland (kinds : List Nat) (s : State) : State :=
  let n := drawBytes 32 (stageDone 2 s)
  let s := { n.2 with sec := { n.2.sec with installNonce := n.1 } }
  let r := loadImages 3 [0] (powerDomains 3 s)
  if ¬ r.1 then r.2
  else
    let s := stageDone 3 r.2
    if ¬ voltageTableOk s then bootFault 5 s
    else
      let s := stageDone 4 (applyRails (takeBands s))
      match nvNow s with
      | none => bootFault 6 s
      | some c =>
        let s := loadDictionary c s
        let s := { s with time := { s.time with placeDue := s.time.provisional } }
        let r := loadImages 4 kinds (stageDone 5 s)
        if r.1 then stageDone 6 r.2 else r.2

/-- What follows power-good of the last main rail. -/
def railsReady (s : State) : State := match s.boot.kind with
  | .powerOn | .chipReset => bootIsland [1, 3] s
  | _ => stageDone 2 s

/-! ### Stage DRAM (R211, R308, R313, R528, R558) -/

/-- The regions before tenant memory: frame kind (11 the flow store, 12 the scratch pool, 13 mirror store and input) and
frames. -/
def regionSizes (s : State) : List (Nat × Nat) :=
  let mib := fun (n : Nat) => ceilDiv n 2
  [(1, 2048), (5, 16), (8, ceilDiv (245760 * getO s oSaveSlotCount) 2097152),
    (10, ceilDiv (49216 * getO s oCastStagingEntries) 2097152), (11, mib (getO s oFlowStoreMiB)),
    (12, mib (getO s oScratchPoolMiB)), (6, mib (getO s oVariantPoolMiB)), (4, mib (getO s oKvTableMiB) - 32), (9, 32),
    (13, ceilDiv (131072 * getO s oMirrorStorePages + 1048576 * getO s oMirrorInputMiB) 2097152)]

/-- Lay regions out from a frame on. -/
def layRegions : Nat → List (Nat × Nat) → List Region
  | _, [] => []
  | lo, (k, n) :: r => ⟨k, lo, n⟩ :: layRegions (lo + n) r

/-- Tenants that have memory, with their pages, in tenant order. -/
def tenantMem (s : State) : List (Nat × Nat) :=
  (s.dict.vals.filter (fun (e : Nat × Nat) => e.1 % 256 == oTenantMemPages % 256 && 0x6000 ≤ e.1 / 256 && e.1 / 256 ≤ 0x63FF)).map
    (fun (e : Nat × Nat) => (e.1 / 256 - 0x6000, e.2))

/-- Lay tenant memory out from a frame on. -/
def layTenants : Nat → List (Nat × Nat) → SMap (List (Nat × Nat))
  | _, [] => []
  | lo, (t, n) :: r => (t, [(lo, n)]) :: layTenants (lo + n) r

/-- The first frame past the fixed regions and tenant memory. -/
def kvFirst (s : State) : Nat := sumN ((regionSizes s).map (·.2)) + sumN ((tenantMem s).map (·.2))

/-- The first frame of the reserve. -/
def reserveFirst (s : State) : Nat := getO s oDramLiveFrames - 320 * getO s oDramReserveLeft

/-- All regions laid out below the reserve. -/
def layOut (s : State) : State :=
  let lo := kvFirst s
  let top := reserveFirst s
  let pages := min (getO s oKvPoolPagesCfg) (16 * (top - lo))
  let kv := ceilDiv pages 16
  { s with
    kv := { s.kv with pool := pages }
    dram := { s.dram with
      regions := layRegions 0 (regionSizes s) ++ [⟨3, lo, kv⟩]
      tenantFrames := layTenants (sumN ((regionSizes s).map (·.2))) (tenantMem s)
      kvBase := 2097152 * lo
      freeFrames := if lo + kv < top then [(lo + kv, top - lo - kv)] else [] } }

/-- The device writes 0xFFFF to every VariantPointer, logging each change (R530). -/
def dropVariantPointers (s : State) : State :=
  let named := (s.dict.vals.filter (fun (e : Nat × Nat) => varPtrKey 0 ≤ e.1 && e.1 ≤ varPtrKey 1023)).map
    (fun (e : Nat × Nat) => 128 * (e.1 / 256 - 0x3068) + e.1 % 256 - 1)
  named.foldl (fun s p =>
    nvStore (varPtrKey p) (natLe 2 0xFFFF) (switchVarPtr p 0xFFFF s)) s

/-- DRAM as training leaves it: zeroed, with the channels of the map mapped out; the variant load session that power took
has ended with VARIANT_POWER_LOSS (R279). -/
def dramTrained (map : List Nat) (s : State) : State :=
  let s := if s.vars.session.isSome then setO s oVariantLastResult 11 else s
  { s with
    dram := { ({} : DramState) with
      map := map
      chans := map.foldl (fun (m : SMap Chan) c => sput m c { ({} : Chan) with st := 2 }) [] }
    kv := {}
    vars := {} }

/-- The counts of live frames, capacity and reserve with `n` channels mapped out (R308, R316). -/
def dramCounts (n : Nat) (s : State) : State :=
  let s := setO s oDramLiveFrames (122880 - 320 * n)
  let s := setO s oDramCapacityMiB (245760 - 640 * n)
  setO s oDramReserveLeft (min (getO s oDramReserveChannels) (16 - n))

/-- Regions laid out and variants gone, or stage DRAM fails where they do not fit below the reserve. -/
def dramLaid (s : State) : State :=
  if reserveFirst s < kvFirst s then bootFault 7 s else stageDone 7 (dropVariantPointers (layOut s))

/-- Stage DRAM: channels trained, failed ones mapped out by their entry alone, the reserve, zeroed frames, regions. -/
def bootDram (failed : List Nat) (s : State) : State :=
  let new := (failed.filter (fun c => decide (c < 384) && !s.dram.map.contains c)).eraseDups
  let map := s.dram.map ++ new
  if 16 < map.length then bootFault 7 s
  else dramLaid (dramCounts map.length (dramTrained map (powerDomains 7 s)))

/-! ### Stage INGOT (R264, R529) -/

/-- Whether a cast's stored leaves give its manifest's root. -/
def rootMatches (k : CastSlot) : Bool := merkleRoot k.leaves == mRoot k.manifest

/-- The patrol's position of a sector: its stack, then its number. -/
def patrolPos (l : Nat) : Nat := dieOf l / 4 * ingotSectors + l

/-- A cast slot at stage INGOT; with `trust`, a cast whose root the patrol matched is taken as confirmed (R540). -/
def bootCast (trust : Bool) (c : Nat) (s : State) : State :=
  let k := castGet s c
  if k.state = 1 ∨ k.state = 2 then
    setO { s with ingot := { s.ingot with casts := sdel s.ingot.casts c } } oCastLastResult 12
  else if k.state = 6 then
    let s := eraseCast k s
    { s with ingot := { s.ingot with casts := sdel s.ingot.casts c } }
  else
    let s := castMod c (fun k => { k with pins := 0 }) s
    if (trust && k.patrolOk) || rootMatches k then s
    else
      let s := castMod c (fun k => { k with state := 5 }) s
      { s with ingot := { s.ingot with patrolAt := patrolPos k.first } }

/-- Stage INGOT. -/
def bootIngot (badDies : List Nat) (trust : Bool) (s : State) : State :=
  if badDies.any (fun d => decide (d < 48)) then bootFault 8 s
  else
    let s := powerDomains 8 { s with ingot := { s.ingot with session := none } }
    stageDone 8 ((s.ingot.casts.map (·.1)).foldl (fun s c => bootCast trust c s) s)

/-! ### Stages SELF_TEST and CORES (R418, R531) -/

/-- A unit that fails the pass of start-up: a unit in service is recast at once. -/
def bootTest (u : TestUnit) (s : State) : State :=
  let s := testFails u s
  match u with
  | .griddle p | .whisk p | .tileStore p => (match logicalOf s p with
      | some g => swapGriddle g 0x0122 s
      | none => s)
  | .sieve n => switchSieves (recastSieve n 0x0122 s)
  | .expediterPair | .islandPair => s

/-- Whether a unit is a lockstep pair or a comparator. -/
def pairUnit : TestUnit → Bool
  | .expediterPair => true
  | .islandPair => true
  | _ => false

/-- Stages SELF_TEST and CORES. -/
def bootTests (fs : List TestUnit) (s : State) : State :=
  let s := fs.foldl (fun s u => bootTest u s) (powerDomains 9 s)
  if fs.any pairUnit then bootFault 9 s
  else
    let r := loadImages 4 [2] (powerDomains 10 (stageDone 9 s))
    if r.1 then stageDone 10 r.2 else r.2

/-! ### Ports (R388 to R391, R535) -/

/-- The credits a port holds at first: those of its partner's buffers, as VcCredits gives them (R393). -/
def firstCredits (s : State) : List Nat := (List.range 8).map (fun v => getO s (oVcCredits + v))

/-- The width at which a BYARI port trains round its bad lanes (R390). -/
def byariWidth (bad : List Nat) : Nat :=
  let ok := fun (l : Nat) => !bad.contains l
  if ok 0 && ok 1 && ok 2 && ok 3 then 4
  else if (ok 0 && ok 1) || (ok 2 && ok 3) then 2
  else if ok 0 || ok 1 || ok 2 || ok 3 then 1
  else 0

/-- A port's state and width in its mode with its bad lanes. -/
def trained (mode : Nat) (bad : List Nat) : Nat × Nat := match mode with
  | 1 => (match byariWidth bad with
    | 0 => (0, 0)
    | 4 => (2, 4)
    | w => (3, w))
  | 2 => if bad = [] then (2, 4) else (0, 0)
  | 3 => if 4 ≤ bad.length then (0, 0) else if bad = [] then (2, 4) else (3, 4 - bad.length)
  | _ => (0, 0)

/-- A port as its reset leaves it: hop state and bad lanes cleared, in the mode in force. -/
def freshPort (s : State) (p : Nat) : Port := { ({} : Port) with mode := getO s (oPortMode + p), credits := firstCredits s }

/-- A lane drop: counted, with a RECAST entry at the next boundary (R391, R424), whose cause is a free value: no fault code
names it. -/
def laneDrop (p width lane : Nat) (s : State) : State :=
  let d := draw (linkBump 5 s)
  recast 5 (d.1 % 65536) (4 * p + lane) 0xFFFF width d.2

/-- Train a port from its reset, with the lanes on which training fails. -/
def trainPort (p : Nat) (bad : List Nat) (s : State) : State :=
  let k := freshPort s p
  let bad := if k.mode = 0 then [] else (bad.filter (fun l => decide (l < 4))).eraseDups
  let t := trained k.mode bad
  let s := portMod p (fun _ => { k with st := t.1, width := t.2, bad := bad }) s
  bad.foldl (fun s l => laneDrop p t.2 l s) s

/-- The bad lanes of a port among lane numbers 4p + l. -/
def lanesOf (p : Nat) (l : List Nat) : List Nat := (l.filter (fun x => x / 4 == p)).map (· % 4)

/-- Stage READY. -/
def bootReady (s : State) : State :=
  let s := stageDone 12 { s with boot := { s.boot with running := false } }
  setO s oBootTimeMs ((s.time.now - s.boot.beganAt) / 1000000 % 2 ^ 32)

/-- Stages LINKS and READY, up to the chip's state. -/
def bootLinks (badLanes : List Nat) (s : State) : State :=
  let s := powerDomains 11 s
  bootReady (stageDone 11 ((List.range 16).foldl (fun s p => trainPort p (lanesOf p badLanes) s) s))

/-! ### Power-on and the stages' commands -/

/-- PORST_N_RISE (R22, R526): the Pilot ROM runs, device time starts at 0 on the provisional grid, and the rails start. -/
def doPorstNRise (s : State) : State :=
  if s.boot.porstN then s
  else
    let s := powerLost s
    let s := { s with
      boot := { s.boot with porstN := true, running := true, kind := .powerOn, chip := .waking }
      time := { s.time with tickLen := 16666667, phase := .window } }
    startRails (powerDomains 1 (stageDone 1 (openRecord s)))

/-- RAIL_POWER_GOOD (R524, R546). -/
def doRailPowerGood (r : Nat) (s : State) : State :=
  if ¬ s.boot.running ∨ ¬ nth false s.boot.railOn r ∨ nth false s.boot.railGood r then s
  else
    let s := { s with boot := { s.boot with railGood := s.boot.railGood.set r true } }
    match nextRail s with
    | some _ => startRails s
    | none => railsReady s

/-- POWER_GOOD_MISSED (R524): start-up stops with RAIL. -/
def doPowerGoodMissed (r : Nat) (s : State) : State :=
  if s.boot.running ∧ nth false s.boot.railOn r ∧ ¬ nth false s.boot.railGood r then bootFault 1 s else s

/-- Whether start-up waits for the command of a stage. -/
def atStage (s : State) (n : Nat) : Bool :=
  s.boot.running && getO s oBootStage + 1 == n && (s.boot.kind == .powerOn || s.boot.kind == .chipReset)

/-- DRAM. -/
def doDram (failed : List Nat) (s : State) : State := if atStage s 7 then bootDram failed s else s

/-- INGOT. -/
def doIngot (badDies : List Nat) (s : State) : State := if atStage s 8 then bootIngot badDies false s else s

/-- SELF_TEST. -/
def doSelfTest (fs : List TestUnit) (s : State) : State := if atStage s 9 then bootTests fs s else s

/-- LINKS (stage 11, and READY after it). -/
def doLinks (badLanes : List Nat) (s : State) : State :=
  if atStage s 11 then
    let s := bootLinks badLanes s
    { s with boot := { s.boot with chip := .active } }
  else s

/-- PORST_N_FALL (R525): issue stops, the transmitters and the main rails go off, volatile state is lost. -/
def doPorstNFall (s : State) : State :=
  if s.boot.porstN then powerLost (railsOff (fun _ => false) s) else s

/-- ALWAYS_ON_RAIL_LOSS (R525): the loss of VPILOT or V1P8. -/
def doAlwaysOnLoss (r : Nat) (s : State) : State := if r = 5 ∨ r = 6 then doPorstNFall s else s

/-! ### Chip, port and engine resets (R535 to R537) -/

/-- Whether a chip reset is accepted. -/
def resetAllowed (s : State) : Bool := match s.boot.chip with
  | .failed => true
  | .tripped => railsCool s
  | _ => s.kv.ctxs.isEmpty && s.sched.reqs.isEmpty

/-- The alert causes a chip reset clears: watchdog, stopped start-up, TRIP_N. -/
def clearAlerts (s : State) : State := setAlert 2 false (setAlert 3 false (setAlert 4 false s))

/-- Stages 3 to 12 begin again; a main rail that never came up is started first. -/
def chipReset (s : State) : State :=
  let cause := if s.boot.chip = .tripped then 2 else 1
  let s := clearAlerts (mainLost s)
  let s := setO (setO (setO s oLastResetCause cause) oBootFault 0) oServeEnable 0
  let s := { s with boot := { s.boot with running := true, kind := .chipReset, chip := .waking, beganAt := s.time.now } }
  match nextRail s with
  | some r => startRails (stageDone 1 { s with boot := { s.boot with railOn := s.boot.railOn.set r false } })
  | none => bootIsland [1, 3] s

/-- CHIP_RESET (R536). -/
def doChipReset (a : Access) (v : Nat) (s : State) : Nat × State :=
  match gate s a oChipReset (natLe 1 v) with
  | 0 =>
    if v ≠ 1 then (abOk, s)
    else if resetAllowed s then (abOk, chipReset s)
    else (abState, s)
  | e => (e, s)

/-- The PortMode and lane polarity that wait for this port's reset come into force (R388, R556). -/
def portSettings (p : Nat) (s : State) : State :=
  let s := match sfind s.dict.nextReset (oPortMode + p) with
    | some v => putValue (oPortMode + p) v { s with dict := { s.dict with nextReset := sdel s.dict.nextReset (oPortMode + p) } }
    | none => s
  [oLaneTxInvert, oLaneRxInvert].foldl (fun s key => match sfind s.dict.nextReset key with
    | some v =>
      let o := getO s key
      setO s key (o - bits o (4 * p) 4 * 2 ^ (4 * p) + bits (leNat v) (4 * p) 4 * 2 ^ (4 * p))
    | none => s) s

/-- Reset a port: it trains again at full width, and the frames its partner has not acknowledged wait to be sent again. -/
def resetPort (p : Nat) (s : State) : State :=
  let s := portSettings p s
  let k := portGet s p
  let f := freshPort s p
  portMod p (fun _ => { f with
    st := if f.mode = 0 then 0 else 1
    waiting := k.replay.map (·.1) ++ k.waiting }) s

/-- PORT_RESET (R537). -/
def doPortReset (a : Access) (mask : Nat) (s : State) : Nat × State :=
  if isSpare s ∧ opLike s a ∧ bits mask (getO s oPilotListenPort) 1 = 1 then (abState, s)
  else match gate s a oPortReset (natLe 2 mask) with
    | 0 => (abOk, (natsWhere 16 (fun p => bits mask p 1 == 1)).foldl (fun s p => resetPort p s) s)
    | e => (e, s)

/-- Whether a physical Griddle or Sieve is in service. -/
def inService (s : State) (u : Nat) : Bool :=
  if u < 68 then s.faults.griddleMap.contains (some u)
  else s.faults.sieveStream.contains (u - 68) || s.faults.sieveDense.contains (u - 68)

/-- An engine reset and its self-test (R535, R537). -/
def resetEngine (u : Nat) (passes : Bool) (s : State) : State :=
  let s := if u < 68 then
      { s with engine := { s.engine with stores := sdel s.engine.stores u, whisks := sdel s.engine.whisks u } }
    else { s with vars := { s.vars with sieves := sdel s.vars.sieves (u - 68) } }
  if passes then s else testFails (if u < 68 then .griddle u else .sieve (u - 68)) s

/-- ENGINE_RESET. -/
def doEngineReset (a : Access) (u : Nat) (passes : Bool) (s : State) : Nat × State :=
  match gate s a oEngineReset (natLe 1 u) with
  | 0 => if inService s u then (abState, s) else (abOk, resetEngine u passes s)
  | e => (e, s)

/-! ### Spare states (R471, R538 to R540) -/

/-- Whether any ring is enabled: its size is not 0 (R342). -/
def anyRing (s : State) : Bool :=
  s.dict.vals.any (fun (e : Nat × Nat) => 0x6000 ≤ e.1 / 256 && e.1 / 256 ≤ 0x63FF
    && oSubRingEntries % 256 ≤ e.1 % 256 && e.1 % 256 < oSubRingEntries % 256 + 4 && e.2 != 0)

/-- The listen port in LISTEN, every other port OFF (R405). -/
def listenOnly (s : State) : State :=
  (List.range 16).foldl (fun s p =>
    let f := freshPort s p
    portMod p (fun _ => if p = getO s oPilotListenPort then { f with mode := 1, st := 4, width := 1 } else { f with mode := 0 }) s) s

/-- Steps 1 and 2 of R538: Hoppers are unbound, dirty lines written back. -/
def quiesce (s : State) : State :=
  { s with
    engine := { s.engine with stores := s.engine.stores.map (fun (e : Nat × TileStore) =>
      (e.1, { e.2 with hoppers := List.replicate 16 {} })) }
    dram := { s.dram with pantry := s.dram.pantry.map (fun (e : Nat × PSet) =>
      (e.1, { e.2 with lines := e.2.lines.map (fun l => { l with dirty := false }) })) } }

/-- The chip stands in WARM_SPARE: self-refresh, listening, main domains clock-gated. -/
def enterWarm (s : State) : State :=
  let s := listenOnly (quiesce s)
  { s with
    dram := { s.dram with selfRefresh := true }
    boot := { s.boot with chip := .warmSpare, spareWanted := none, engineGated := true } }

/-- The chip stands in COLD_SPARE: main rails off but for VSTACK under a patrol, DRAM lost. -/
def enterCold (s : State) : State :=
  let id := getO s oChipId
  let s := railsOff (fun r => r == 2 && (patrolNext (patrolRuns s) s.ingot.patrolAt).isSome) (domainsOff (mainLost s))
  let s := match nvNow s with
    | some c => c.vals.foldl (fun (s : State) (e : Nat × Bytes) => putValue e.1 e.2 s) s
    | none => s
  let s := setO s oChipId id
  powerPatrol (listenOnly { s with boot := { s.boot with chip := .coldSpare, spareWanted := none } })

/-- Begin to leave a spare state (R540). -/
def leaveSpare (kind : BootKind) (s : State) : State :=
  let cold := s.boot.chip == .coldSpare
  let s := { s with boot := { s.boot with
    exitFrom := some s.boot.chip
    chip := .waking
    kind := kind
    beganAt := s.time.now
    running := cold } }
  if cold then startRails (stageDone 1 (setO s oLastResetCause 3)) else s

/-- CHIP_STATE_REQUEST (R471, R540). -/
def doChipStateRequest (a : Access) (v : Nat) (s : State) : Nat × State :=
  match gate s a oChipStateRequest (natLe 1 v) with
  | 0 =>
    if v = 0 then
      if isSpare s then (abOk, leaveSpare .coldExit { s with boot := { s.boot with wakeFor := none } }) else (abState, s)
    else if v = 2 ∨ v = 3 then
      let want : ChipSt := if v = 2 then .warmSpare else .coldSpare
      let ok : Bool := !anyRing s && s.sched.reqs.isEmpty && (match s.boot.chip with
        | .active | .idle | .warmSpare => true
        | .coldSpare => v == 3
        | _ => false)
      if !ok then (abState, s)
      else if s.boot.chip = want then (abOk, s)
      else (abOk, { s with boot := { s.boot with spareWanted := some want } })
    else (abRange, s)
  | e => (e, s)

/-- Whether the wanted spare state may be entered: from service or WARM_SPARE, or once silent after a hand-over that a
SHUTDOWN entry asked for (R465). -/
def mayEnterSpare (s : State) : Bool := match s.boot.chip with
  | .active | .idle => !s.faults.silent && s.faults.handOver.isNone
  | .warmSpare => true
  | .failed => match s.faults.handOver with
    | some h => h.toCold
    | none => false
  | _ => false

/-- SPARE_STATE_REACHED (R538, R539). -/
def doSpareReached (s : State) : State := match s.boot.spareWanted with
  | some st =>
    if ¬ mayEnterSpare s then s
    else if st = .coldSpare then enterCold s
    else if st = .warmSpare then enterWarm s
    else s
  | none => s

/-- Stages 3 to 10 of a cold spare's exit (R540). -/
def coldStages (failed : List Nat) (s : State) : State :=
  let all := fun (l : List Bool) => railOrder.foldl (fun l r => l.set r true) l
  let s := { s with boot := { s.boot with railOn := all s.boot.railOn, railGood := all s.boot.railGood } }
  let go := fun (n : Nat) (f : State → State) (s : State) => if getO s oBootStage = n then f s else s
  let s := bootIsland [3] s
  go 8 (bootTests []) (go 7 (bootIngot [] true) (go 6 (bootDram failed) s))

/-- The chip is out of its spare state: it serves, or goes on with the takeover it was woken for (R433, R540). -/
def spareReady (s : State) : State :=
  let s := setO { s with boot := { s.boot with exitFrom := none } } oServeEnable 0
  match s.boot.wakeFor with
  | some _ => setO s oTakeoverState 2
  | none => { s with boot := { s.boot with chip := .active } }

/-- WAKE_READY (R540). -/
def doWakeReady (failed : List Nat) (s : State) : State :=
  match s.boot.chip, s.boot.exitFrom with
  | .waking, some .warmSpare =>
    let s := { s with
      dram := { s.dram with selfRefresh := false }
      boot := { s.boot with engineGated := false } }
    let s := (List.range 16).foldl (fun s p => trainPort p [] s) s
    spareReady (bootReady s)
  | .waking, some .coldSpare =>
    if nextRail s = some 3 ∧ ¬ nth false s.boot.railOn 3 then s
    else
      let s := coldStages failed s
      if getO s oBootStage ≠ 10 then s
      else if s.boot.kind = .coldToWarm then
        enterWarm { s with boot := { s.boot with running := false, exitFrom := none } }
      else spareReady (bootLinks [] s)
  | _, _ => s

/-! ### Service, identity, IDLE (R470, R532, R534) -/

/-- SERVE_ENABLE (R534). -/
def doServeEnable (a : Access) (v : Nat) (s : State) : Nat × State :=
  match gate s a oServeEnable (natLe 1 v) with
  | 0 =>
    if v = 1 ∧ (getO s oBootStage ≠ 12 ∨ getO s oChipId = 0xFFFF) then (abState, s)
    else makePending a oServeEnable (natLe 1 v) s
  | e => (e, s)

/-- CHIP_ID_WRITE (R407, R532). -/
def doChipIdWrite (a : Access) (v : Nat) (s : State) : Nat × State :=
  match gate s a oChipId (natLe 2 v) with
  | 0 => (abOk, applyNow oSurrendered [0] (applyNow oChipId (natLe 2 v) s))
  | e => (e, s)

/-- Whether any step is in flight. -/
def inFlight (s : State) : Bool := s.sched.reqs.any (fun (e : Nat × Request) => !e.2.finished && !e.2.refused)

/-- IDLE_ENTER (R470). -/
def doIdleEnter (s : State) : State :=
  if s.boot.chip = .active ∧ ¬ inFlight s ∧ getO s oIdleEnterTicks ≤ s.boot.idleBoundaries then
    { s with boot := { s.boot with chip := .idle, engineGated := true } }
  else s

/-! ### The commands -/

/-- PORST_N_RISE. -/
def execPorstNRise (s : State) : Host.Outcome State Fault Refusal := .next (doPorstNRise s)

/-- RAIL_POWER_GOOD. -/
def execRailPowerGood (r : Nat) (s : State) : Host.Outcome State Fault Refusal := .next (doRailPowerGood r s)

/-- POWER_GOOD_MISSED. -/
def execPowerGoodMissed (r : Nat) (s : State) : Host.Outcome State Fault Refusal := .next (doPowerGoodMissed r s)

/-- DRAM. -/
def execDram (failed : List Nat) (s : State) : Host.Outcome State Fault Refusal := .next (doDram failed s)

/-- INGOT. -/
def execIngot (badDies : List Nat) (s : State) : Host.Outcome State Fault Refusal := .next (doIngot badDies s)

/-- SELF_TEST. -/
def execSelfTest (fs : List TestUnit) (s : State) : Host.Outcome State Fault Refusal := .next (doSelfTest fs s)

/-- LINKS. -/
def execLinks (badLanes : List Nat) (s : State) : Host.Outcome State Fault Refusal := .next (doLinks badLanes s)

/-- PORST_N_FALL. -/
def execPorstNFall (s : State) : Host.Outcome State Fault Refusal := .next (doPorstNFall s)

/-- ALWAYS_ON_RAIL_LOSS. -/
def execAlwaysOnRailLoss (r : Nat) (s : State) : Host.Outcome State Fault Refusal := .next (doAlwaysOnLoss r s)

/-- CHIP_RESET. -/
def execChipReset (a : Access) (v : Nat) (s : State) : Host.Outcome State Fault Refusal :=
  .next (answerWrite (doChipReset a v s))

/-- PORT_RESET. -/
def execPortReset (a : Access) (mask : Nat) (s : State) : Host.Outcome State Fault Refusal :=
  .next (answerWrite (doPortReset a mask s))

/-- ENGINE_RESET. -/
def execEngineReset (a : Access) (u : Nat) (passes : Bool) (s : State) : Host.Outcome State Fault Refusal :=
  .next (answerWrite (doEngineReset a u passes s))

/-- CHIP_STATE_REQUEST. -/
def execChipStateRequest (a : Access) (v : Nat) (s : State) : Host.Outcome State Fault Refusal :=
  .next (answerWrite (doChipStateRequest a v s))

/-- SPARE_STATE_REACHED. -/
def execSpareStateReached (s : State) : Host.Outcome State Fault Refusal := .next (doSpareReached s)

/-- WAKE_READY. -/
def execWakeReady (failed : List Nat) (s : State) : Host.Outcome State Fault Refusal := .next (doWakeReady failed s)

/-- SERVE_ENABLE. -/
def execServeEnable (a : Access) (v : Nat) (s : State) : Host.Outcome State Fault Refusal :=
  .next (answerWrite (doServeEnable a v s))

/-- CHIP_ID_WRITE. -/
def execChipIdWrite (a : Access) (v : Nat) (s : State) : Host.Outcome State Fault Refusal :=
  .next (answerWrite (nvAnswer a s (doChipIdWrite a v s)))

/-- IDLE_ENTER. -/
def execIdleEnter (s : State) : Host.Outcome State Fault Refusal := .next (doIdleEnter s)

end Sys2Proof.Machine
end

