-- ==== Sys2Proof/Machine/Pilot.lean ====
section
/-! DEFINITION. The Pilot's sensors: filters, the trip, stack states and critical trips, thresholds (R320, R448, R449, R451,
R458 to R466, R551, R552). -/

namespace Sys2Proof.Machine

open Sys2Proof

/-! ### Filters (R460, R462) -/

/-- A sensor's configuration word in force. -/
def sensorCfg (s : State) (n : Nat) : Nat := getO s (oSensorConfig + n)

/-- Whether a sensor is read: enabled, and with an address on the I3C bus where it is a board sensor. -/
def sensorOn (s : State) (n : Nat) : Bool :=
  n < 64 && bits (sensorCfg s n) 6 1 == 1 && (n < 62 || bits (sensorCfg s n) 24 8 != 0)

/-- The length of the median stage. -/
def medianLen (cfg : Nat) : Nat := match bits cfg 0 2 with
  | 1 => 3
  | 2 => 5
  | _ => 1

/-- The median of the last samples. While fewer than the stage's length have come and their number is even, R460 names no one
middle value: one of the two, by a free bit. -/
def median (l : List Int) (s : State) : Int × State :=
  let w := l.mergeSort (· ≤ ·)
  let n := w.length
  if n % 2 = 1 then (nth 0 w (n / 2), s)
  else
    let d := draw s
    (nth 0 w (n / 2 - d.1 % 2), d.2)

/-- One raw sample through a sensor's filter. -/
def filterSample (n : Nat) (raw : Int) (s : State) : State :=
  let k := sget ({} : Sensor) s.pilot.sensors n
  let cfg := sensorCfg s n
  let win := raw :: k.win.take 4
  let m := median (win.take (medianLen cfg)) s
  let y := if k.seen then k.y + shrFloor (256 * m.1 - k.y) (bits cfg 2 4) else 256 * m.1
  let k : Sensor := { win := win, y := y, seen := true, value := shrFloor y 8, fails := 0 }
  let s := { m.2 with pilot := { m.2.pilot with sensors := sput m.2.pilot.sensors n k } }
  setO s (oSensorValue + n) (ofSigned 16 k.value)

/-- A sensor's filtered value. -/
def sensorValue (s : State) (n : Nat) : Int := (sget ({} : Sensor) s.pilot.sensors n).value

/-- The largest filtered value of the sensors of a range that have been read. -/
def hottest (s : State) (lo n : Nat) : Option Int :=
  ((List.range n).filterMap (fun i => (sfind s.pilot.sensors (lo + i)).map (fun (k : Sensor) => k.value))).max?

/-! ### The trip (R451) -/

/-- The trip: TRIP_N falls, the main domains are held in reset, nothing is committed and nothing sent. -/
def trip (s : State) : State :=
  let s := { s with
    pins := { s.pins with tripN := false }
    boot := { s.boot with chip := .tripped, running := false }
    sched := { s.sched with commitSet := [], held := [] }
    links := { s.links with ports := s.links.ports.map (fun (e : Nat × Port) => (e.1, { e.2 with st := 0, width := 0 })) } }
  let s := applyNow oTripCount (natLe 4 (getO s oTripCount + 1)) (setAlert 4 true s)
  applyNow oSurrendered [1] s

/-! ### Temperatures (R320, R448, R449) -/

/-- The temperature at which a stack enters a thermal state; HOT is entered above its own. -/
def stackEntry : Nat → Int
  | 1 => 1360
  | 2 => 1520
  | _ => 1680

/-- Whether a temperature puts a stack in a state or above. -/
def entersState (k : Nat) (t : Int) : Bool := if k = 1 then decide (stackEntry 1 < t) else decide (stackEntry k ≤ t)

/-- The thermal state of a stack from its last and its temperature: a state is left 3 °C below its entry point. -/
def nextStackState (old : Nat) (t : Int) : Nat :=
  ((List.range 3).map (· + 1)).foldl (fun (b : Nat) k =>
    if entersState k t || (decide (k ≤ old) && decide (stackEntry k - 48 < t)) then k else b) 0

/-- A reading of a stack's sensor. -/
def stackReading (k : Nat) (s : State) : State :=
  match hottest s (2 * k) 2 with
  | none => s
  | some t =>
    let old := stackState s k
    let new := nextStackState old t
    let s := setO (setO s (oStackTempC + k) (ofSigned 16 t)) (oStackThermalState + k) new
    let any := (List.range 12).any (fun j => stackState s j == 3)
    let s := { s with power := { s.power with critical := s.power.critical.set 1 any } }
    if new = 3 ∧ old ≠ 3 then
      let s := bump s oStackCriticalCount
      if mainOn s then criticalTrip 2 k (ofSigned 16 t) s else s
    else s

/-- A reading of a die zone. -/
def dieReading (zone : Nat) (t : Int) (s : State) : State :=
  let high := (hottest s 24 24).getD t
  let s := setO s oDieTempC (ofSigned 16 high)
  let s := if s.time.phase = .sealed then s else { s with power := { s.power with dieTemp := some high } }
  let crit : Int := 16 * getO s oDieCriticalC
  let was := nth false s.power.critical 0
  let set := fun (b : Bool) (s : State) => { s with power := { s.power with critical := s.power.critical.set 0 b } }
  if crit ≤ t ∧ ¬ was then
    if mainOn s then criticalTrip 1 zone (ofSigned 16 t) (set true s) else set true s
  else if was ∧ high < crit - 48 then set false s
  else s

/-! ### Thresholds (R463 to R466) -/

/-- A decision entry's word. -/
def threshold (s : State) (e : Nat) : Nat := getO s (oThreshold + e)

/-- Its action code. -/
def thAction (w : Nat) : Nat := bits w 8 3

/-- Its dwell in samples. -/
def thDwell (w : Nat) : Nat := bits w 48 8

/-- Its level. -/
def thLevel (w : Nat) : Int := toSigned 16 (bits w 16 16)

/-- Its hysteresis. -/
def thHyst (w : Nat) : Int := bits w 32 16

/-- An entry's dwell after one filtered value. -/
def thStep (w : Nat) (v : Int) (k : ThreshSt) : ThreshSt :=
  let below := bits w 6 1 == 1
  let past := if below then decide (v < thLevel w) else decide (thLevel w < v)
  let back := if below then decide (thLevel w + thHyst w < v) else decide (v < thLevel w - thHyst w)
  let run := if past then min 255 (k.run + 1) else 0
  let ret := if back then min 255 (k.back + 1) else 0
  ⟨run, ret, if k.asserted then decide (ret < thDwell w) else decide (thDwell w ≤ run)⟩

/-- Whether an entry is asserted. -/
def asserted (s : State) (e : Nat) : Bool := (sget ({} : ThreshSt) s.pilot.thresh e).asserted

/-- Whether any entry of an action is asserted. -/
def anyAsserted (s : State) (act : Nat) : Bool := (List.range 32).any (fun e => asserted s e && thAction (threshold s e) == act)

/-- The PilotIssueLimit that the asserted LIMIT entries ask for. -/
def wantedLimit (s : State) : Nat :=
  ((natsWhere 32 (fun e => asserted s e && thAction (threshold s e) == 2)).map (fun e => bits (threshold s e) 56 7)).foldl min 64

/-- The Pilot writes PilotIssueLimit when it changes; the write takes effect under R42. -/
def writeLimit (s : State) : State :=
  let l := wantedLimit s
  if l = s.pilot.pilotLimit then s
  else (makePending ⟨.pilot, .firmware, false⟩ oPilotIssueLimit (natLe 1 l) { s with pilot := { s.pilot with pilotLimit := l } }).2

/-- What an entry's assertion does beyond alerts and limits: WAKE and SHUTDOWN. -/
def onAssert (act : Nat) (s : State) : State := match act, s.boot.chip with
  | 3, .coldSpare => if anyAsserted s 4 then s else leaveSpare .coldToWarm s
  | 4, .active => { s with
      faults := { s.faults with planned := s.faults.planned.orElse (fun _ => some 0) }
      boot := { s.boot with spareWanted := some .coldSpare } }
  | 4, .idle => { s with
      faults := { s.faults with planned := s.faults.planned.orElse (fun _ => some 0) }
      boot := { s.boot with spareWanted := some .coldSpare } }
  | 4, .warmSpare => { s with boot := { s.boot with spareWanted := some .coldSpare } }
  | _, _ => s

/-- One entry on one filtered value of its sensor. -/
def thEntry (n : Nat) (v : Int) (s : State) (e : Nat) : State :=
  let w := threshold s e
  if bits w 0 6 ≠ n ∨ thDwell w = 0 then s
  else
    let old := sget ({} : ThreshSt) s.pilot.thresh e
    let new := thStep w v old
    let s := { s with pilot := { s.pilot with thresh := sset {} s.pilot.thresh e new } }
    let s := if new.asserted = old.asserted then s
      else setO s oThresholdActive (if new.asserted then getO s oThresholdActive + 2 ^ e else getO s oThresholdActive - 2 ^ e)
    let s := setAlert 0 (anyAsserted s 1) s
    let s := writeLimit s
    if new.asserted ∧ ¬ old.asserted then onAssert (thAction w) s else s

/-- A changed decision word begins anew, unasserted. -/
def resetEntry (e : Nat) (s : State) : State :=
  let was := asserted s e
  let s := { s with pilot := { s.pilot with thresh := sdel s.pilot.thresh e } }
  let s := if was then setO s oThresholdActive (getO s oThresholdActive - 2 ^ e) else s
  writeLimit (setAlert 0 (anyAsserted s 1) s)

/-! ### SENSOR_SAMPLE -/

/-- The Pilot's actions on a filtered value, in the order of R466. -/
def sensorActs (n : Nat) (s : State) : State :=
  let v := sensorValue s n
  if ¬ s.pins.tripN then (if n < 24 then setO s (oStackTempC + n / 2) (ofSigned 16 ((hottest s (2 * (n / 2)) 2).getD v)) else s)
  else if n < 48 ∧ 2000 ≤ v then trip s
  else
    let s := if n < 24 then stackReading (n / 2) s else if n < 48 then dieReading (n - 24) v s else s
    let s := (List.range 32).foldl (thEntry n v) s
    let s := if n < 48 then doBands s else s
    if s.boot.running then startRails s else s

/-- A read over I3C that fails; the third in a row raises an alert (R552). -/
def failedRead (n : Nat) (s : State) : State :=
  let s := { s with pilot := { s.pilot with
    sensors := supd {} s.pilot.sensors n (fun k => { k with fails := k.fails + 1 }) } }
  setAlert 5 ([62, 63].any (fun i => decide (3 ≤ (sget ({} : Sensor) s.pilot.sensors i).fails))) s

/-- SENSOR_SAMPLE. -/
def doSensorSample (n : Nat) (raw : Option Int) (at' : Nat) (s : State) : State :=
  if ¬ s.boot.porstN ∨ ¬ sensorOn s n then s
  else
    let s := atT at' s
    match raw with
    | none => if n < 62 then s else failedRead n s
    | some r =>
      let s := sensorActs n (filterSample n r s)
      setAlert 5 ([62, 63].any (fun i => decide (3 ≤ (sget ({} : Sensor) s.pilot.sensors i).fails))) s

/-- SENSOR_SAMPLE. -/
def execSensorSample (n : Nat) (raw : Option Int) (t : Nat) (s : State) : Host.Outcome State Fault Refusal :=
  .next (doSensorSample n raw t s)

end Sys2Proof.Machine
end

