-- ==== Sys2Proof/Machine/Views.lean ====
section
/-! DEFINITION. What a read of each object gives: objects that show other state, per-context objects, the snapshot of
counters and the attestation report (R114, R245, R331, R387, R421, R440, R457, R473, R490, R491, R495, R519 to R522). -/

namespace Sys2Proof

/-- A port's measured round trip in ns at an instant (R393). -/
opaque Config.portRttNs : Nat → Nat → Nat

/-- GriddleMap's bytes: the spec names the object (R419) and lays it out nowhere. -/
opaque Config.griddleMapBytes : List (Option Nat) → List Nat → Bytes

/-- SieveMap's bytes: the spec names the object (R440) and lays it out nowhere. -/
opaque Config.sieveMapBytes : List Nat → List Nat → Bytes

/-- ModelEnergy's bytes: the spec names the object (R456) and lays it out nowhere. -/
opaque Config.modelEnergyBytes : List (Nat × Nat) → Bytes

end Sys2Proof

namespace Sys2Proof.Machine

open Sys2Proof

/-! ### Small codes -/

/-- ChipState's code (R470). -/
def chipCode : ChipSt → Nat
  | .active => 0
  | .idle => 1
  | .warmSpare => 2
  | .coldSpare => 3
  | .waking => 4
  | .failed => 5
  | .tripped => 6

/-- RingState (R360). -/
def ringStateBits (s : State) (n : Nat) : Nat :=
  sumN ((List.range 4).map (fun r => if (ringGet s n r).suspended then 2 ^ r else 0))
    + (if (tenantGet s n).resetting then 16 else 0)

/-- A Hopper's state word (R245): base and size in 4 KiB pages. -/
def hopperWord (h : Hopper) : Nat :=
  h.base / 4096 % 512 + 512 * (h.size / 4096 % 1024) + 2 ^ 19 * (h.head % 65536) + 2 ^ 35 * (h.tail % 65536)
    + (if h.bound then 2 ^ 51 else 0) + 2 ^ 52 * (h.slot % 16) + 2 ^ 56 * (h.passesLeft % 256)

/-- The smallest number of spare sectors any die has left. -/
def sparesLeftMin (s : State) : Nat := ((List.range 48).map (fun d => sparesLeft (dieGet s d))).foldl min 2048

/-- The largest number of writes of any sector. -/
def maxSectorWrites (s : State) : Nat :=
  (s.ingot.dies.map (fun (e : Nat × NvDie) => (e.2.writes.map (·.2)).foldl max 0)).foldl max 0

/-! ### Objects that show other state -/

/-- Numbers held outside the dictionary's values. -/
def viewTenant (s : State) (n sub : Nat) : Option Nat :=
  if sub = 0x0B then some (ringStateBits s n)
  else if sub = 0x13 then some (ofSigned 64 (tokensLeft s n))
  else if 0x14 ≤ sub ∧ sub ≤ 0x17 then some (nth 0 (tenantGet s n).deficit (sub - 0x14) % 2 ^ 64)
  else if 0x1C ≤ sub ∧ sub ≤ 0x1F then some (ringGet s n (sub - 0x1C)).cause
  else if sub = 0x21 then some (tenantLines s n / 8)
  else none

/-- Numbers of the DRAM, Ingot and variant chapters held outside the dictionary's values. -/
def viewStore (s : State) (idx sub : Nat) : Option Nat :=
  if idx = 0x3010 ∧ sub = 5 then some s.dram.map.length
  else if 0x3013 ≤ idx ∧ idx ≤ 0x3015 then some (chanGet s (128 * (idx - 0x3013) + sub - 1)).st
  else if idx = 0x3040 ∧ sub = 2 then some (sumN ((freeRuns 0 (castRuns s)).map (·.2)))
  else if idx = 0x3040 ∧ sub = 3 then some (((freeRuns 0 (castRuns s)).map (·.2)).foldl max 0)
  else if idx = 0x3040 ∧ sub = 4 then some (sparesLeftMin s)
  else if idx = 0x3040 ∧ sub = 5 then some (maxSectorWrites s % 65536)
  else if idx = 0x3041 ∧ sub = 2 then some (stagingBase s)
  else if idx = 0x3041 ∧ sub = 6 then some (match s.ingot.session with | some x => x.slot | none => 0xFF)
  else if idx = 0x3042 then some (castGet s (sub - 1)).state
  else if idx = 0x3044 then some (castGet s (sub - 1)).pins
  else if idx = 0x3050 ∧ sub = 2 then some (varPoolFree s)
  else if idx = 0x3051 ∧ sub = 2 then some (match s.vars.session with | some x => x.slot | none => 0xFFFF)
  else if 0x3060 ≤ idx ∧ idx ≤ 0x3063 then some (varGet s (128 * (idx - 0x3060) + sub - 1)).state
  else if 0x3064 ≤ idx ∧ idx ≤ 0x3067 then some (varGet s (128 * (idx - 0x3064) + sub - 1)).pins
  else none

/-- Numbers of the other chapters held outside the dictionary's values. -/
def viewOther (s : State) (idx sub : Nat) : Option Nat :=
  match idx, sub with
  | 0x1000, 3 => some (Config.dieStepping % 256)
  | 0x1002, 1 => some (Config.coreWindowBase % 2 ^ 64)
  | 0x1003, 1 => some s.dict.pending.length
  | 0x1003, 2 => some (sumN (s.dict.pending.map (fun p => p.value.length)))
  | 0x2010, 7 => some (if s.time.pend.isSome then 1 else 0)
  | 0x2020, 1 => some s.time.tickNo
  | 0x2020, 5 => some (s.time.tickLen % 2 ^ 32)
  | 0x5010, 2 => some (17280 - 32 * getO s oStreamIngotShareBpc)
  | 0x5018, 8 => some (stepsInFlight s % 65536)
  | 0x5030, 2 => some s.kv.pool
  | 0x5030, 3 => some (freePages s)
  | 0x5030, 4 => some (reservedPages s).length
  | 0x5040, 2 => some ((1048576 * getO s oScratchPoolMiB - sumN ((scratchRuns s).map (·.2))) / 1048576)
  | 0x5040, 3 => some (s.sched.reqs.filter (fun (e : Nat × Request) => !e.2.refused)).length
  | 0x7010, 2 => some (s.faults.spares.filter (fun p => decide (p < 34))).length
  | 0x7010, 3 => some (s.faults.spares.filter (fun p => decide (34 ≤ p))).length
  | 0x7010, 4 => some (sumN ((outMask s).map (fun g => 2 ^ g)))
  | 0x8040, 3 => some s.sec.keys.length
  | 0x8050, 2 => some (s.sec.sessions.filter (fun (e : Nat × Session) => e.2.accepted)).length
  | 0x9020, 8 => some (energyMj s % 2 ^ 64)
  | 0x9040, 1 => some (chipCode s.boot.chip)
  | 0x9046, 1 => some s.pins.alertCause
  | _, _ => none

/-- A number held outside the dictionary's values. -/
def viewNum (s : State) (key : Nat) : Option Nat :=
  let idx := key / 256
  let sub := key % 256
  if 0x6000 ≤ idx ∧ idx ≤ 0x63FF then viewTenant s (idx - 0x6000) sub
  else if 0x3000 ≤ idx ∧ idx ≤ 0x30FF then viewStore s idx sub
  else if idx = 0x1011 ∧ 0x11 ≤ sub ∧ sub ≤ 0x20 then some (portGet s (sub - 0x11)).st
  else if idx = 0x1011 ∧ 0x21 ≤ sub ∧ sub ≤ 0x30 then some (portGet s (sub - 0x21)).width
  else if idx = 0x1011 ∧ 0x31 ≤ sub ∧ sub ≤ 0x40 then some (Config.portRttNs (sub - 0x31) s.time.now % 2 ^ 32)
  else if 0xF020 ≤ idx ∧ idx ≤ 0xF063 then
    some (hopperWord (nth {} (sget ({} : TileStore) s.engine.stores (idx - 0xF020)).hoppers (sub - 1)))
  else viewOther s idx sub

/-- The frames of a tenant, in page order. -/
def frameList (s : State) (n : Nat) : List Nat :=
  ((tenantRuns s n).map (fun r => (List.range r.2).map (· + r.1))).flatten

/-- A cast slot's Generation and MerkleRoot (R520). -/
def castRoot (s : State) (c : Nat) : Bytes :=
  let k := castGet s c
  if k.state = 0 then zeros 36 else natLe 4 (mGeneration k.manifest) ++ padTo 32 (mRoot k.manifest)

/-- A string held outside the dictionary's strings. -/
def viewStr (s : State) (key : Nat) : Option Bytes :=
  let idx := key / 256
  let sub := key % 256
  if 0x6000 ≤ idx ∧ idx ≤ 0x63FF ∧ sub = 0x1B then some ((frameList s (idx - 0x6000)).map (natLe 4)).flatten
  else if idx = 0x3046 then some (castRoot s (sub - 1))
  else if idx = 0x8041 ∨ idx = 0x8042 then some (nth [] s.sec.keys (128 * (idx - 0x8041) + sub - 1))
  else if idx = 0x8091 ∨ idx = 0x8092 then some (nth [] s.sec.grants (128 * (idx - 0x8091) + sub - 1))
  else match idx, sub with
    | 0x1000, 2 => some (padTo 16 Config.serialNumber)
    | 0x3010, 6 => some (s.dram.map.map (natLe 2)).flatten
    | 0x7010, 1 => some (Config.griddleMapBytes s.faults.griddleMap s.faults.spares)
    | 0x7010, 5 => some (Config.sieveMapBytes s.faults.sieveStream s.faults.sieveDense)
    | 0x7020, 1 => some s.faults.log.flatten
    | 0x8010, 1 => some (keyDigest Config.vendorKey)
    | 0x8010, 2 => some (keyDigest Config.deviceKey)
    | 0x8010, 3 => some Config.deviceCert
    | 0x8010, 4 => some Config.deviceKey
    | 0x8011, 2 => some (nth [] s.sec.measured 0)
    | 0x8011, 3 => some (nth [] s.sec.measured 1)
    | 0x8011, 4 => some (nth [] s.sec.measured 2)
    | 0x8011, 5 => some (nth [] s.sec.measured 3)
    | 0x8030, 2 => some (match s.sec.ownerKey with | some k => keyDigest k | none => zeros 32)
    | 0x8030, 3 => some s.sec.installNonce
    | 0x8040, 4 => some (sha256 s.sec.keys.flatten)
    | 0x9020, 0xA => some (voltageTableDigest s)
    | 0x9022, 1 => some s.power.droopLog.flatten
    | 0x9030, 1 => some (Config.modelEnergyBytes s.power.model)
    | 0x9046, 2 => some (s.pins.regulator.map (natLe 2)).flatten
    | _, _ => none

/-- The value an object has for every context: in its type's encoding. -/
def objBytes (s : State) (key : Nat) : Bytes :=
  match objRow (key / 256) (key % 256) with
  | none => []
  | some d => match viewStr s key with
    | some b => b
    | none =>
      if isNum d.typ then natLe ((typeWidth d.typ).getD 0) ((viewNum s key).getD (getO s key)) else getS s key

/-! ### The tick record view and the debug window (R113, R114, R522) -/

/-- The TickNo of the latest sealed record. -/
def lastSealed (s : State) : Option Nat := (s.record.ring.getLast?).map (·.1)

/-- TickRecordState of a selected tick: 0 PRESENT, 1 ABSENT, 2 OUT_OF_RANGE. -/
def recordState (s : State) (n : Nat) : Nat := match lastSealed s with
  | none => 2
  | some t =>
    if t < n ∨ n + 63 < t then 2
    else if s.record.ring.any (fun r => r.1 == n) then 0
    else 1

/-- The selected record. -/
def recordView (s : State) (n : Nat) : Bytes :=
  if recordState s n ≠ 0 then []
  else match s.record.ring.find? (fun r => r.1 == n) with
    | some r => r.2
    | none => []

/-- The tile of a physical Griddle; an idle Griddle's accumulators are free bytes. -/
def debugAccumulators (s : State) (p : Nat) : Bytes :=
  match (logicalOf s p).bind (fun g => sfind s.engine.tiles g) with
  | some t => saveBytes (subNow t.subs t.block t.per) t.block 0
  | none => padTo 238336 (Config.freeBytes s.draws 238336)

/-- A save slot in full; a slot that holds nothing reads as free bytes. -/
def debugSave (s : State) (n : Nat) : Bytes := match sfind s.engine.saves n with
  | some v => saveSlotBytes v
  | none => padTo 245760 (Config.freeBytes s.draws 245760)

/-! ### Snapshots of counters (R521) -/

/-- Read-only U64 objects that count nothing. -/
def plainU64 (key : Nat) : Bool :=
  let idx := key / 256
  key == oTickNo || key == oCoreWindowBase || idx == 0x7010 || key == oCastStagingBase || key == oVariantLoadProgress
    || key == oChipEnergyMj || (0xF020 ≤ idx && idx ≤ 0xF063) || (0x6000 ≤ idx && idx ≤ 0x63FF && key % 256 != 0x0D)

/-- The keys of an object row. -/
def rowKeys (d : ObjDesc) : List Nat :=
  ((List.range (d.idxHi + 1 - d.idxLo)).map (fun i => (List.range (d.subHi + 1 - d.subLo)).map (fun j =>
    256 * (d.idxLo + i) + d.subLo + j))).flatten

/-- The keys of the rows that meet a test, rising. -/
def keysWhere (p : ObjDesc → Bool) : List Nat := ((objTable.filter p).map rowKeys).flatten.mergeSort (· ≤ ·)

/-- Every U64 counter, by index and subindex. -/
def counterKeys : List Nat :=
  (keysWhere (fun d => d.typ == .u64 && d.acc == .r)).filter (fun k => !plainU64 k)

/-- A StatsSnapshot: the boundary's TickNo, 8 zero bytes, then 16 bytes for each counter. -/
def statsBytes (s : State) (tick : Nat) : Bytes :=
  natLe 8 tick ++ zeros 8 ++ (counterKeys.map (fun k =>
    natLe 2 (k / 256) ++ natLe 1 (k % 256) ++ zeros 5 ++ natLe 8 ((viewNum s k).getD (getO s k)))).flatten

/-! ### Attestation (R490, R491) -/

/-- Every persistent object but the key records, by index and subindex. -/
def configKeys : List Nat :=
  (keysWhere (fun d => d.persistent)).filter (fun k => k / 256 != 0x8041 && k / 256 != 0x8042)

/-- ConfigDigest. -/
def configDigest (s : State) : Bytes :=
  sha256 (configKeys.map (fun k =>
    let v := objBytes s k
    natLe 2 (k / 256) ++ natLe 1 (k % 256) ++ natLe 4 v.length ++ v)).flatten

/-- A cast slot's 40 bytes of the report. -/
def reportCast (s : State) (c : Nat) : Bytes :=
  let k := castGet s c
  if k.state = 0 then zeros 40 else natLe 1 k.state ++ zeros 3 ++ castRoot s c

/-- Bytes 0 to 3,071 of a report that reflects the boundary of a tick. -/
def reportBody (s : State) (tick : Nat) (nonce : Bytes) : Bytes :=
  let flags := (if getO s oDebugMode = 1 then 1 else 0) + (if s.sec.ownerKey.isSome then 2 else 0)
    + (if s.boot.chip = .failed then 4 else 0)
  natLe 4 1 ++ natLe 4 0x0B12000A ++ natLe 4 flags ++ natLe 2 (getO s oChipId) ++ zeros 2
    ++ natLe 4 (getO s oIdentityEpoch) ++ zeros 4 ++ natLe 8 tick ++ padTo 32 nonce
    ++ keyDigest Config.deviceKey ++ (match s.sec.ownerKey with | some k => keyDigest k | none => zeros 32)
    ++ (s.sec.measured.map (padTo 32)).flatten ++ (s.sec.measuredVer.map (natLe 4)).flatten
    ++ voltageTableDigest s ++ configDigest s ++ sha256 s.sec.keys.flatten ++ zeros 144
    ++ ((List.range 64).map (reportCast s)).flatten

/-- An attestation report: its body and the identity key's signature. -/
def reportBytes (s : State) (tick : Nat) (nonce : Bytes) : Bytes :=
  let b := reportBody s tick nonce
  b ++ padTo 64 (Config.deviceSignature (sha256 b))

/-! ### Reads -/

/-- A read that access and existence allow, in a context: the value, or an abort code. -/
def readValue (s : State) (ctx : AccessCtx) (key : Nat) : Except Nat Bytes :=
  let c := ctxGet s ctx
  if key % 256 = 0 then .ok (natLe 1 (highestSub (key / 256)))
  else if key = oAttestReport then (match c.report with
    | some b => .ok b
    | none => .error abPending)
  else if key = oStatsSnapshot then (match c.snap with
    | some b => .ok b
    | none => .error abPending)
  else if key = oTickRecordSelect then .ok (natLe 8 c.recSel)
  else if key = oTickRecord then .ok (recordView s c.recSel)
  else if key = oTickRecordState then .ok (natLe 1 (recordState s c.recSel))
  else if key = oDebugSelect then .ok (natLe 2 c.dbgSel)
  else if key = oDebugAccumulators then .ok (debugAccumulators s (c.dbgSel % 256))
  else if key = oDebugSaveSlot then .ok (debugSave s c.dbgSel)
  else .ok (objBytes s key)

/-- A read with the PENDING flag (R501): the pending value where one waits. -/
def readPending (s : State) (ctx : AccessCtx) (key : Nat) : Except Nat Bytes := match pendingValue s key with
  | some v => .ok v
  | none => match sfind s.dict.nextReset key with
    | some v => .ok v
    | none =>
      match s.time.pend with
      | some (i, n, d) =>
        if key = oTickPeriodNs then .ok (natLe 4 i)
        else if key = oTickPeriodFracNum then .ok (natLe 2 n)
        else if key = oTickPeriodFracDen then .ok (natLe 2 d)
        else readValue s ctx key
      | none => readValue s ctx key

end Sys2Proof.Machine
end

