-- ==== Sys2Proof/Machine/Security.lean ====
section
/-! DEFINITION. Owner, keys, images, grants, tenant memory, per-context requests and the writes of the tick's own objects
(R20, R21, R27, R358, R359, R389, R474 to R495, R502, R519, R521, R553). -/

namespace Sys2Proof.Machine

open Sys2Proof

/-! ### The owner (R480, R481) -/

/-- A session ends, and its access context with it. -/
def closeSession (id : Nat) (s : State) : State :=
  ctxDrop (.session id) { s with sec := { s.sec with sessions := sdel s.sec.sessions id } }

/-- Every session that meets a test ends. -/
def closeSessions (p : Session → Bool) (s : State) : State :=
  (s.sec.sessions.filter (fun (e : Nat × Session) => p e.2)).foldl (fun s e => closeSession e.1 s) s

/-- A fresh InstallNonce. -/
def freshNonce (s : State) : State :=
  let d := drawBytes 32 s
  { d.2 with sec := { d.2.sec with installNonce := d.1 } }

/-- The bytes an owner signs to be installed. -/
def installBytes (s : State) (key : Bytes) : Bytes := key ++ s.sec.installNonce ++ keyDigest Config.deviceKey

/-- The abort code of an install on an unowned part. -/
def ownerInstallCode (a : Access) (v : Bytes) (s : State) : Nat := match gate s a oOwnerInstall v with
  | 0 => if ecdsaVerify (sub v 0 65) (installBytes s (sub v 0 65)) (sub v 65 64) then abOk else abSignature
  | e => e

/-- Install an owner: the key goes to NV and every session closes. -/
def installOwner (key : Bytes) (s : State) : State :=
  closeSessions (fun _ => true) (bump { s with sec := { s.sec with ownerKey := some key } } oDictNvWriteCount)

/-- OWNER_INSTALL (R481): a refused install draws a fresh InstallNonce. -/
def doOwnerInstall (a : Access) (v : Bytes) (s : State) : Nat × State :=
  if s.sec.ownerKey.isSome then (abOwner, freshNonce s)
  else match ownerInstallCode a v s with
    | 0 => if a.nvFails then (abNvFault, freshNonce s) else (abOk, installOwner (sub v 0 65) s)
    | e => (e, freshNonce s)

/-! ### Authorised keys (R482, R483) -/

/-- Whether a record's Kind, Subject, Rights and reserved bytes are as R482 allows. -/
def recForm (r : Bytes) : Bool :=
  let rights := fld r 68 4
  let common := rights < 16 && allZero (sub r 80 16) && (ecPoint (sub r 0 65)).isSome
  common && (match recKind r with
    | 1 => recSubject r == 0 && bits rights 1 3 == 0
    | 2 => recSubject r < 1024 && bits rights 3 1 == 0
    | 3 => recSubject r < 4096 && bits rights 1 2 == 0
    | _ => false)

/-- Serial of a key record. -/
def recSerial (r : Bytes) : Nat := fld r 72 8

/-- The owner's signature check; no owner verifies nothing. -/
def ownerSigned (s : State) (msg sig : Bytes) : Bool := match s.sec.ownerKey with
  | some k => ecdsaVerify k msg sig
  | none => false

/-- Whether a key already stands in the table. -/
def keyListed (s : State) (key : Bytes) : Bool := (keyRecord s key).isSome

/-- The checks of a record, after those of access and length. -/
def keyRule (s : State) (r : Bytes) : Nat :=
  if !recForm r ∨ recSerial r ≤ s.sec.highSerial then abRange
  else if !ownerSigned s (sub r 0 96) (sub r 96 64) then abSignature
  else if !keyListed s (sub r 0 65) ∧ 256 ≤ s.sec.keys.length then abKeysFull
  else abOk

/-- Put a record last in the table, in place of the key's older one. -/
def putKey (r : Bytes) (s : State) : State :=
  let rest := s.sec.keys.filter (fun k => k.take 65 != sub r 0 65)
  bump { s with sec := { s.sec with keys := rest ++ [r], highSerial := recSerial r } } oDictNvWriteCount

/-- KEY_AUTHORISE (R482). -/
def doKeyAuthorise (a : Access) (r : Bytes) (s : State) : Nat × State :=
  match gate s a oKeyAuthorise r with
  | 0 => match keyRule s r with
    | 0 => (abOk, putKey r s)
    | e => (e, s)
  | e => (e, s)

/-- The key of a table entry that a digest names. -/
def keyOfDigest (s : State) (d : Bytes) : Option Bytes :=
  (s.sec.keys.find? (fun k => keyDigest (k.take 65) == d)).map (·.take 65)

/-- Remove a key and close the sessions it opened. -/
def dropKey (key : Bytes) (s : State) : State :=
  closeSessions (fun x => x.clientKey == key)
    (bump { s with sec := { s.sec with keys := s.sec.keys.filter (fun k => k.take 65 != key) } } oDictNvWriteCount)

/-- KEY_REVOKE (R483). -/
def doKeyRevoke (a : Access) (d : Bytes) (s : State) : Nat × State :=
  match gate s a oKeyRevoke d with
  | 0 => match keyOfDigest s d with
    | some k => (abOk, dropKey k s)
    | none => (abRange, s)
  | e => (e, s)

/-! ### Firmware (R476 to R478) -/

/-- Store an image as the copy of its kind that is not running. -/
def putImage (v : Bytes) (s : State) : State :=
  let k := imKind v
  if nth false s.sec.runningB k then { s with sec := { s.sec with imagesA := s.sec.imagesA.set k v } }
  else { s with sec := { s.sec with imagesB := s.sec.imagesB.set k v } }

/-- FIRMWARE_STAGE (R478). -/
def doFirmwareStage (a : Access) (v : Bytes) (s : State) : Nat × State :=
  match gate s a oFirmwareStage v with
  | 0 =>
    if !imForm v ∨ imVersion v < minVersion s (imKind v) then (abRange, s)
    else if !imSigned v then (abSignature, s)
    else (abOk, putImage v s)
  | e => (e, s)

/-- ROLLBACK_COMMIT (R478): a kind's minimum rises to the running image's version, and never falls. -/
def doRollbackCommit (a : Access) (k : Nat) (s : State) : Nat × State :=
  match gate s a oRollbackCommit (natLe 1 k) with
  | 0 =>
    if 4 ≤ k then (abRange, s)
    else (abOk, applyNow (oSecurityVersionMin + k) (natLe 4 (max (minVersion s k) (nth 0 s.sec.measuredVer k))) s)
  | e => (e, s)

/-! ### Attestation and snapshots, per context (R490, R521) -/

/-- ATTEST_NONCE (R490): until the boundary the context has no report. -/
def doAttestNonce (a : Access) (v : Bytes) (s : State) : Nat × State :=
  match gate s a oAttestNonce v with
  | 0 => match makePending a oAttestNonce v s with
    | (0, t) => (abOk, ctxMod a.ctx (fun c => { c with report := none }) t)
    | r => r
  | e => (e, s)

/-- Form the report that a context's nonce asked for, at the boundary of a tick. -/
def formReport (tick : Nat) (ctx : AccessCtx) (nonce : Bytes) (s : State) : State :=
  ctxMod ctx (fun c => { c with nonce := some nonce, report := some (reportBytes s tick nonce) }) s

/-- STATS_SNAPSHOT_REQUEST (R521): a write of 1; until the boundary the context has no snapshot. -/
def doStatsRequest (a : Access) (v : Nat) (s : State) : Nat × State :=
  match gate s a oStatsSnapshotRequest (natLe 1 v) with
  | 0 => match makePending a oStatsSnapshotRequest (natLe 1 v) s with
    | (0, t) => (abOk, if v = 1 then ctxMod a.ctx (fun c => { c with snap := none }) t else t)
    | r => r
  | e => (e, s)

/-! ### Share grants (R494) -/

/-- The rule of a ShareGrant write: the context is a FROZEN one of tenant m, and the table has room. -/
def shareGrantRule (s : State) (g : Bytes) : Nat :=
  let frozen : Bool := match kvCtx s (fld g 2 2) with
    | some c => c.frozen && c.tenant == fld g 0 2
    | none => false
  if !frozen ∨ 1024 ≤ fld g 4 2 then abRange
  else if !s.sec.grants.contains g ∧ 256 ≤ s.sec.grants.length then abKeysFull
  else abOk

/-- SHARE_GRANT. -/
def doShareGrant (a : Access) (g : Bytes) (s : State) : Nat × State :=
  match gate s a oShareGrant g with
  | 0 => match shareGrantRule s g with
    | 0 => makePending a oShareGrant g s
    | e => (e, s)
  | e => (e, s)

/-- A grant stands, once. -/
def putGrant (g : Bytes) (s : State) : State :=
  if s.sec.grants.contains g then s else { s with sec := { s.sec with grants := s.sec.grants ++ [g] } }

/-- SHARE_REVOKE: a revocation of a grant that does not stand removes nothing. -/
def doShareRevoke (a : Access) (g : Bytes) (s : State) : Nat × State :=
  match gate s a oShareRevoke g with
  | 0 => makePending a oShareRevoke g s
  | e => (e, s)

/-- A grant stands no longer. -/
def dropGrant (g : Bytes) (s : State) : State := { s with sec := { s.sec with grants := s.sec.grants.filter (· != g) } }

/-! ### Tenant memory (R492) -/

/-- Split runs after their first k frames. -/
def takeRuns : Nat → List (Nat × Nat) → List (Nat × Nat) × List (Nat × Nat)
  | _, [] => ([], [])
  | k, (lo, n) :: r =>
    if k = 0 then ([], (lo, n) :: r)
    else if n ≤ k then
      let x := takeRuns (k - n) r
      ((lo, n) :: x.1, x.2)
    else ([(lo, k)], (lo + k, n - k) :: r)

/-- Join runs that touch, in rising order. -/
def joinRuns : List (Nat × Nat) → List (Nat × Nat)
  | [] => []
  | (lo, n) :: r => match joinRuns r with
    | (lo', n') :: q => if lo + n = lo' then (lo, n + n') :: q else (lo, n) :: (lo', n') :: q
    | [] => [(lo, n)]

/-- Frames in a list of runs. -/
def runFrames (rs : List (Nat × Nat)) : Nat := sumN (rs.map (·.2))

/-- Zero frames: their bytes, and the code words that encode no data. -/
def zeroFrames (rs : List (Nat × Nat)) (s : State) : State :=
  { s with dram := { s.dram with
    mem := s.dram.mem.filter (fun c => !inRuns rs (frameOf c.1))
    marks := s.dram.marks.filter (fun (e : Nat × BurstMark) => !inRuns rs (frameOf (64 * e.1))) } }

/-- Whether an enabled ring of a tenant, in force or as pending writes leave it, ends above a limit. -/
def ringAbove (s : State) (n lim : Nat) : Bool :=
  let above := fun (get : Nat → Nat) =>
    (List.range 4).any (fun r =>
      let e := get (tkey (oSubRingEntries + r) n)
      e != 0 && decide (lim < get (tkey (oSubRingBase + r) n) + 64 + 64 * e))
    || (let e := get (tkey oCplRingEntries n)
        e != 0 && decide (lim < get (tkey oCplRingBase n) + 64 + 32 * e))
  above (getO s) || above (nextO s)

/-- Whether a tenant's PutWindow, in force or pending, ends above a limit. -/
def windowAbove (s : State) (n lim : Nat) : Bool :=
  let above := fun (get : Nat → Nat) =>
    let b := get (tkey oPutWindowBytes n)
    b != 0 && decide (lim < get (tkey oPutWindowBase n) + b)
  above (getO s) || above (nextO s)

/-- Frames that the other tenants' pending writes take, and those they free. -/
def pendingFrames (s : State) (n : Nat) : Nat × Nat :=
  (s.dict.pending.filter (fun p => p.key % 256 == oTenantMemPages % 256 && 0x6000 ≤ p.key / 256 && p.key / 256 ≤ 0x63FF
    && p.key != tkey oTenantMemPages n)).foldl (fun (x : Nat × Nat) p =>
      (x.1 + (leNat p.value - getO s p.key), x.2 + (getO s p.key - leNat p.value))) (0, 0)

/-- The rule of a TenantMemPages write. -/
def memPagesRule (s : State) (n v : Nat) : Nat :=
  let cur := getO s (tkey oTenantMemPages n)
  let f := pendingFrames s n
  let lim := 2097152 * v
  if v < cur ∧ (heldSlots s n ≠ 0 ∨ ringAbove s n lim ∨ windowAbove s n lim) then abInUse
  else if runFrames s.dram.freeFrames + f.2 < v - cur + f.1 then abMemShort
  else abOk

/-- TENANT_MEM_PAGES (R492). -/
def doMemPages (a : Access) (n : Nat) (v : Bytes) (s : State) : Nat × State :=
  let key := tkey oTenantMemPages n
  if 1024 ≤ n then (abObject, s)
  else match gate s a key v with
    | 0 => match memPagesRule s n (leNat v) with
      | 0 => makePending a key v s
      | e => (e, s)
    | e => (e, s)

/-- A tenant's memory becomes v pages: more pages take the lowest free frames, fewer give back those at its end; the
frames that change hands are zeroed. -/
def setMemPages (n v : Nat) (s : State) : State :=
  let cur := tenantRuns s n
  let had := runFrames cur
  let s := setO s (tkey oTenantMemPages n) v
  if had ≤ v then
    let x := takeRuns (v - had) s.dram.freeFrames
    let s := zeroFrames x.1 s
    { s with dram := { s.dram with tenantFrames := sset [] s.dram.tenantFrames n (cur ++ x.1), freeFrames := x.2 } }
  else
    let x := takeRuns v cur
    let s := zeroFrames x.2 s
    let free := joinRuns ((s.dram.freeFrames ++ x.2).mergeSort (fun a b => a.1 ≤ b.1))
    { s with dram := { s.dram with tenantFrames := sset [] s.dram.tenantFrames n x.1, freeFrames := free } }

/-! ### Rings (R358, R359) -/

/-- TENANT_RESET (R359): a write of 1 stops the tenant's issue and its rings from its acceptance. -/
def doTenantReset (a : Access) (n v : Nat) (s : State) : Nat × State :=
  let key := tkey oTenantReset n
  if 1024 ≤ n then (abObject, s)
  else match gate s a key (natLe 1 v) with
    | 0 => match makePending a key (natLe 1 v) s with
      | (0, t) => (abOk, tenantMod n (fun k => { k with resetting := v == 1 || !k.tail.isEmpty }) t)
      | r => r
    | e => (e, s)

/-- The rule of a RingResume write: bits [7:4] name no ring. -/
def ringResumeRule (v : Nat) : Nat := if 16 ≤ v then abRange else abOk

/-- RING_RESUME (R358). -/
def doRingResume (a : Access) (n v : Nat) (s : State) : Nat × State :=
  let key := tkey oRingResume n
  if 1024 ≤ n then (abObject, s)
  else match gate s a key (natLe 1 v) with
    | 0 => match ringResumeRule v with
      | 0 => makePending a key (natLe 1 v) s
      | e => (e, s)
    | e => (e, s)

/-- Resume the rings a mask names: suspension, its cause and the fault count go. -/
def resumeRings (n mask : Nat) (s : State) : State :=
  ((List.range 4).filter (fun r => bits mask r 1 == 1)).foldl (fun s r =>
    ringMod n r (fun x => { x with suspended := false, cause := 0, faults := [] }) s) s

/-! ### Defaults, the period, SYNC pins (R20, R21, R27, R519) -/

/-- DICT_RESTORE_DEFAULTS (R519). -/
def doRestoreDefaults (a : Access) (v : Nat) (s : State) : Nat × State :=
  match gate s a oDictRestoreDefaults (natLe 1 v) with
  | 0 => (abOk, { s with dict := { s.dict with restoreDefaults := v == 1 } })
  | e => (e, s)

/-- TICK_PERIOD_WRITE (R17, R20, R21): one part of the pending period is replaced. -/
def doTickPeriod (a : Access) (sub' : Nat) (v : Bytes) (s : State) : Nat × State :=
  if sub' = 0 ∨ 3 < sub' then (abSubindex, s)
  else match gate s a (oTickPeriodNs + sub' - 1) v with
    | 0 =>
      let g := storedGrid s
      let p := s.time.pend.getD (g.i, g.n, g.d)
      let x := leNat v
      let q : Nat × Nat × Nat := if sub' = 1 then (x, p.2.1, p.2.2) else if sub' = 2 then (p.1, x, p.2.2) else (p.1, p.2.1, x)
      if !periodOk q.1 q.2.1 q.2.2 ∨ !periodMarksOk s q.1 q.2.1 then (abRange, s)
      else (abOk, { s with time := { s.time with pend := some q } })
    | e => (e, s)

/-- TICK_REGRID_NO (R20, R21, R53): 0 cancels the pending period. -/
def doRegridNo (a : Access) (v : Bytes) (s : State) : Nat × State :=
  match gate s a oTickRegridNo v with
  | 0 =>
    let n := leNat v
    let marks : Bool := match s.time.pend with
      | some (i, f, _) => periodMarksOk s i f
      | none => true
    if n = 0 then (abOk, setO { s with time := { s.time with pend := none } } oTickRegridNo 0)
    else if n ≤ s.time.tickNo + 1 ∨ !marks then (abRange, s)
    else (abOk, setO s oTickRegridNo n)
  | e => (e, s)

/-- The rule of a SyncPinFunction write. -/
def syncPinRule (s : State) (pin v : Nat) : Nat :=
  if 3 < v then abRange
  else if v = 1 ∧ (List.range 4).any (fun p => p != pin && nextO s (oSyncPinFunction + p) == 1) then abInUse
  else abOk

/-- SYNC_PIN_FUNCTION (R26, R27). -/
def doSyncPin (a : Access) (pin : Nat) (v : Bytes) (s : State) : Nat × State :=
  if 4 ≤ pin then (abSubindex, s)
  else match gate s a (oSyncPinFunction + pin) v with
    | 0 => match syncPinRule s pin (leNat v) with
      | 0 => makePending a (oSyncPinFunction + pin) v s
      | e => (e, s)
    | e => (e, s)

/-! ### NV, JTAG, neighbour discovery (R389, R502, R553) -/

/-- NV_WRITE_COMPLETE (R502): the oldest applied write of an object that waits for NV reaches it. -/
def doNvComplete (key : Nat) (ok : Bool) (s : State) : State :=
  match s.dict.nvQueue.find? (fun e => e.1 == key) with
  | none => s
  | some e =>
    let rest := s.dict.nvQueue.erase e
    let s := { s with dict := { s.dict with nvQueue := rest } }
    if ok then nvStore key e.2 s else s

/-- JTAG_INSTRUCTION (R553). -/
def doJtag (j : JtagInstr) (s : State) : State :=
  let pinsFree := !s.boot.porstN || bootStopped s
  let acts : Bool := match j with
    | .extest | .clamp | .highz => pinsFree
    | .debug _ => getO s oDebugMode == 1
    | .bypass | .idcode | .samplePreload => true
  { s with pins := { s.pins with jtag := if acts then j else .bypass } }

/-- IDCODE (R553). -/
def idcode : Nat := Config.dieStepping % 16 * 2 ^ 28 + 0xB12A * 2 ^ 12 + Config.jep106 % 2 ^ 11 * 2 + 1

/-- NEIGHBOUR_DISCOVERY (R389, R519): management ports, 16 and 17 here, answer for their MgAddress, a data port in an
Ethernet mode for its own addresses. -/
def doNeighbour (port : Nat) (target : Bytes) (s : State) : State :=
  let mine : Bool :=
    if port < 16 then (portGet s port).mode ≥ 2 && ((portGet s port).st == 2 || (portGet s port).st == 3)
    else if port < 18 then target.length == 16 && (getS s (oMgAddress + port - 16)).take 16 == target
    else false
  if s.boot.porstN && mine then emit (.neighbourAdvert port target) s else s

/-! ### The commands -/

/-- OWNER_INSTALL. -/
def execOwnerInstall (a : Access) (v : Bytes) (s : State) : Host.Outcome State Fault Refusal :=
  .next (answerWrite (doOwnerInstall a v s))

/-- KEY_AUTHORISE. -/
def execKeyAuthorise (a : Access) (r : Bytes) (s : State) : Host.Outcome State Fault Refusal :=
  .next (answerWrite (nvAnswer a s (doKeyAuthorise a r s)))

/-- KEY_REVOKE. -/
def execKeyRevoke (a : Access) (d : Bytes) (s : State) : Host.Outcome State Fault Refusal :=
  .next (answerWrite (nvAnswer a s (doKeyRevoke a d s)))

/-- FIRMWARE_STAGE. -/
def execFirmwareStage (a : Access) (v : Bytes) (s : State) : Host.Outcome State Fault Refusal :=
  .next (answerWrite (doFirmwareStage a v s))

/-- ROLLBACK_COMMIT. -/
def execRollbackCommit (a : Access) (k : Nat) (s : State) : Host.Outcome State Fault Refusal :=
  .next (answerWrite (nvAnswer a s (doRollbackCommit a k s)))

/-- ATTEST_NONCE. -/
def execAttestNonce (a : Access) (v : Bytes) (s : State) : Host.Outcome State Fault Refusal :=
  .next (answerWrite (doAttestNonce a v s))

/-- STATS_SNAPSHOT_REQUEST. -/
def execStatsSnapshotRequest (a : Access) (v : Nat) (s : State) : Host.Outcome State Fault Refusal :=
  .next (answerWrite (doStatsRequest a v s))

/-- SHARE_GRANT. -/
def execShareGrant (a : Access) (g : Bytes) (s : State) : Host.Outcome State Fault Refusal :=
  .next (answerWrite (doShareGrant a g s))

/-- SHARE_REVOKE. -/
def execShareRevoke (a : Access) (g : Bytes) (s : State) : Host.Outcome State Fault Refusal :=
  .next (answerWrite (doShareRevoke a g s))

/-- TENANT_MEM_PAGES. -/
def execTenantMemPages (a : Access) (n v : Nat) (s : State) : Host.Outcome State Fault Refusal :=
  .next (answerWrite (doMemPages a n (natLe 4 v) s))

/-- TENANT_RESET. -/
def execTenantReset (a : Access) (n v : Nat) (s : State) : Host.Outcome State Fault Refusal :=
  .next (answerWrite (doTenantReset a n v s))

/-- RING_RESUME. -/
def execRingResume (a : Access) (n v : Nat) (s : State) : Host.Outcome State Fault Refusal :=
  .next (answerWrite (doRingResume a n v s))

/-- DICT_RESTORE_DEFAULTS. -/
def execDictRestoreDefaults (a : Access) (v : Nat) (s : State) : Host.Outcome State Fault Refusal :=
  .next (answerWrite (doRestoreDefaults a v s))

/-- TICK_PERIOD_WRITE. -/
def execTickPeriodWrite (a : Access) (sub' v : Nat) (s : State) : Host.Outcome State Fault Refusal :=
  .next (answerWrite (doTickPeriod a sub' (natLe (if sub' = 1 then 4 else 2) v) s))

/-- TICK_REGRID_NO. -/
def execTickRegridNo (a : Access) (v : Nat) (s : State) : Host.Outcome State Fault Refusal :=
  .next (answerWrite (doRegridNo a (natLe 8 v) s))

/-- SYNC_PIN_FUNCTION. -/
def execSyncPinFunction (a : Access) (pin v : Nat) (s : State) : Host.Outcome State Fault Refusal :=
  .next (answerWrite (doSyncPin a pin (natLe 1 v) s))

/-- NV_WRITE_COMPLETE. -/
def execNvWriteComplete (idx sub' : Nat) (ok : Bool) (s : State) : Host.Outcome State Fault Refusal :=
  .next (doNvComplete (256 * idx + sub') ok s)

/-- JTAG_INSTRUCTION. -/
def execJtagInstruction (j : JtagInstr) (s : State) : Host.Outcome State Fault Refusal := .next (doJtag j s)

/-- NEIGHBOUR_DISCOVERY. -/
def execNeighbourDiscovery (port : Nat) (target : Bytes) (s : State) : Host.Outcome State Fault Refusal :=
  .next (doNeighbour port target s)

end Sys2Proof.Machine
end

