-- ==== Sys2Proof/Machine/Takeover.lean ====
section
/-! DEFINITION. Chip takeover: the buddy's watch over its ward, WAKE, the spare's restore, identity and replay (R406, R427 to
R438, R472, R489). -/

/-- What a spare has copied of a mirror, from the payloads it fetched (R433): the spec lays the mirror store out nowhere. -/
opaque Sys2Proof.Config.mirrorImageOf : List Sys2Proof.Bytes → Sys2Proof.Machine.MirrorImage

namespace Sys2Proof.Machine

open Sys2Proof

/-! ### The buddy wakes a spare (R431 to R433) -/

/-- The chips of SpareList, in order of preference. -/
def spareList (s : State) : List Nat :=
  let b := getS s oSpareList
  (List.range (b.length / 2)).map (fun i => fld b (2 * i) 2)

/-- The bytes of a WAKE that its signature covers (R489). -/
def wakeBytes (f : LinkFrame) : Bytes := let b := headBytes f; sub b 0 2 ++ sub b 8 8 ++ sub b 32 24

/-- The WAKE to a spare, for the identity of a ward, with a fresh nonce, signed by this chip (R406, R489). -/
def sendWake (spare ward : Nat) (s : State) : State :=
  let n := draw s
  let f := { newFrame s opWake spare with
    operand := ward
    operand2 := n.1 % 2 ^ 64
    tag := s.time.tickNo }
  let s := { n.2 with mirror := { n.2.mirror with wakeNonce := some f.operand2 } }
  routeFrame { f with payload := padTo 64 (Config.deviceSignature (sha256 (wakeBytes f))) } s

/-- Wake the first eligible spare from place i of the list on. Whether a spare's casts make it eligible (R432) is what a read
of that chip shows: a free value. Where none is left the takeover fails. -/
def wakeFrom (ward : Nat) : List Nat → Nat → State → State
  | [], _, s => setO (raiseFault 0x0126 .none 0 none ward { s with mirror := { s.mirror with wakeNonce := none } }) oTakeoverState 5
  | c :: rest, i, s =>
    let d := draw s
    if d.1 % 2 = 1 then
      sendWake c ward { d.2 with mirror := { d.2.mirror with spareIx := i } }
    else wakeFrom ward rest (i + 1) d.2

/-- A takeover for the ward begins: TakeoverState becomes WAKING and the first eligible spare is woken. -/
def beginTakeover (s : State) : State :=
  if getO s oTakeoverState ≠ 0 then s
  else wakeFrom (getO s oWardChipId) (spareList s) 0 (setO s oTakeoverState 1)

/-- TAKEOVER_START (R431): this chip's ward asks for a takeover. -/
def doTakeoverStart (ward : Nat) (s : State) : State :=
  if ward = 0xFFFF ∨ ward ≠ getO s oWardChipId ∨ ¬ alive s then s else beginTakeover s

/-- A write of TakeoverStart: the value names this chip's ward. -/
def doTakeoverWrite (a : Access) (v : Bytes) (s : State) : Nat × State :=
  match gate s a oTakeoverStart v with
  | 0 => if leNat v = 0xFFFF ∨ leNat v ≠ getO s oWardChipId then (abRange, s) else (abOk, doTakeoverStart (leNat v) s)
  | e => (e, s)

/-- A DICT read of the ward's TakeoverState over its primary and alternate routes. -/
def probeWard (ward : Nat) (s : State) : State :=
  let tag := s.links.nextTag
  let s := sendDict ward oTakeoverState false [] s
  let s := { s with links := { s.links with gets := s.links.gets ++ [(tag, ward)] } }
  let e := getO s (routeKey ward)
  match (txGet s (flowKey ward 6)).unacked.getLast? with
  | some f => if f.tag = tag ∧ bits e 9 1 = 1 ∧ bits e 4 4 ≠ bits e 0 4 ∧ portUp s (bits e 4 4) then offer (bits e 4 4) f s else s
  | none => s

/-- WARD_MISS (R431): the message after the ward's last complete one is not complete at the WardMissTicks-th boundary. -/
def doWardMiss (s : State) : State :=
  let ward := getO s oWardChipId
  match s.mirror.wardTick with
  | some t =>
    if ward = 0xFFFF ∨ s.mirror.wardLost ∨ s.mirror.probeAt.isSome ∨ ¬ alive s
        ∨ s.time.tickNo < t + 1 + getO s oWardMissTicks then s
    else probeWard ward { s with mirror := { s.mirror with probeAt := some s.time.now } }
  | none => s

/-- WARD_LOST (R431): the probe has had no answer for 1 ms, or the HANDOVER_LAST record is acknowledged. -/
def doWardLost (t : Nat) (s : State) : State :=
  let s' := atT t s
  let probed : Bool := match s.mirror.probeAt with
    | some p => decide (p + 1000000 ≤ s'.time.now)
    | none => false
  if s.mirror.wardLost ∨ ¬ (probed ∨ s.mirror.wardLastSeen) ∨ ¬ alive s then s
  else
    let s := raiseFault 0x0146 .none 0 none (getO s oWardChipId) s'
    beginTakeover { s with mirror := { s.mirror with wardLost := true, probeAt := none } }

/-- SPARE_NO_ANSWER (R433): 1,000 ms after its WAKE a spare is passed over. -/
def doSpareNoAnswer (s : State) : State := match s.mirror.wakeNonce with
  | some _ =>
    if getO s oTakeoverState ≠ 1 then s
    else
      let i := s.mirror.spareIx + 1
      wakeFrom (getO s oWardChipId) ((spareList s).drop i) i s
  | none => s

/-! ### WAKE at the spare (R406, R472, R489) -/

/-- Whether a WAKE's authenticator verifies. -/
def wakeVerifies (s : State) (f : LinkFrame) : Bool :=
  s.sec.keys.any (fun r => recKind r == 3 && recSubject r == f.srcChip && recRight r 3
      && ecdsaVerify (r.take 65) (wakeBytes f) (sub f.payload 0 64))
    && decide (f.tag ≤ s.time.tickNo + 2 ∧ s.time.tickNo ≤ f.tag + 2)

/-- Whether a chip's peer entry grants a right (R398). -/
def peerRight (s : State) (chip bit : Nat) : Bool :=
  decide (chip < 4096) && bits (getO s (256 * (0x1120 + chip / 128) + 1 + chip % 128)) bit 1 == 1

/-- The ACK of a WAKE, with its nonce, on the port it arrived on. -/
def ackWake (f : LinkFrame) (port : Nat) (s : State) : State :=
  offer port { newFrame s opAck f.srcChip with operand := f.operand2 } s

/-- Keep an accepted nonce among the last 64. -/
def keepNonce (n : Nat) (s : State) : State :=
  let l := s.boot.wakeNonces ++ [n]
  { s with boot := { s.boot with wakeNonces := l.drop (l.length - 64) } }

/-- A WAKE is dropped and counted. -/
def rejectWake (s : State) : State := bump s oWakeRejectCount

/-- WAKE (R472): a verified one in a spare state starts the wake; one that names the identity being woken for is acknowledged
again. -/
def doWake (f : LinkFrame) (port : Nat) (s : State) : State :=
  let ok := peerRight s f.srcChip 6 && wakeVerifies s f && !anyAsserted s 4
  match s.boot.chip with
  | .warmSpare | .coldSpare =>
    if !ok || s.boot.wakeNonces.contains f.operand2 then rejectWake s
    else
      let s := ackWake f port (keepNonce f.operand2 s)
      let s := leaveSpare .coldExit { s with boot := { s.boot with wakeFor := some (f.operand % 65536), spareWanted := none } }
      setO (bump s oWakeCount) oTakeoverState 1
  | .waking =>
    if ok && s.boot.wakeFor == some (f.operand % 65536) then ackWake f port s else rejectWake s
  | _ => rejectWake s

/-! ### The spare restores the mirror (R433) -/

/-- A context as a takeover restores it: it has no gate history, and so predicts every neuron block (R155, R159). -/
def withoutHistory (c : KvCtx) : KvCtx := { c with history := [] }

/-- Every context without its TENTATIVE slots, nor the pages that held no others (R433, step 4). -/
def dropTentative (s : State) : State := s.kv.ctxs.foldl (fun s c => (rollbackCtx c.1 s).2) s

/-- Put a mirrored configuration write in force and in NV. -/
def restoreWrite (e : Nat × Bytes) (s : State) : State := applyNow e.1 e.2 s

/-- The variants a spare takes over: those whose change list has its signed SourceDigest, with their segments built from it again,
bit for bit those of the failed chip (R282, R302, R433, step 3). -/
def soundVariants (s : State) (l : SMap VarSlot) : SMap VarSlot :=
  (l.filter (fun e => decide (sha256 e.2.changes = vmSource e.2.manifest))).map (fun e =>
    (e.1, match castByRoot s (mRoot e.2.manifest) with
      | some c => builtVar s c (buildSegments s c e.2.manifest (changeList e.2.changes)) e.2
      | none => e.2))

/-- MIRROR_COPIED (R433, steps 3 and 4). -/
def doMirrorCopied (s : State) : State :=
  if s.boot.chip ≠ .waking ∨ s.boot.exitFrom.isSome ∨ s.boot.wakeFor.isNone ∨ getO s oTakeoverState ≠ 2 ∨ s.mirror.restored then s
  else
    let m := Config.mirrorImageOf s.mirror.copied
    let s := m.config.foldl (fun s e => restoreWrite e s) s
    dropTentative { s with
      kv := { s.kv with ctxs := smapAll m.ctxs (fun _ c => withoutHistory c), pages := m.pages }
      vars := { s.vars with slots := soundVariants s m.variants }
      sched := { s.sched with trackers := m.trackers }
      faults := { s.faults with griddleMap :=
        (s.faults.griddleMap.zipIdx).map (fun (x : Option Nat × Nat) => if bits m.outMask x.2 1 = 1 then none else x.1) }
      mirror := { s.mirror with copied := [], restored := true, image := m } }

/-! ### Identity (R433, R436) -/

/-- The chips that the route table reaches. -/
def routedChips (s : State) : List Nat :=
  (s.dict.vals.filter (fun (e : Nat × Nat) => routeKey 0 ≤ e.1 && e.1 ≤ routeKey 4095 && bits e.2 8 2 != 0)).map
    (fun (e : Nat × Nat) => 128 * (e.1 / 256 - 0x1100) + e.1 % 256 - 1)

/-- FLOW_SYNC for a VC to a chip. -/
def sendSync (chip vc : Nat) (s : State) : State := routeFrame { newFrame s opFlowSync chip with operand2 := vc } s

/-- The route writes of TakeoverRoutes, each to its chip. -/
def sendRoutes (routes : Bytes) (id : Nat) (s : State) : State :=
  (List.range (min 64 (routes.length / 4))).foldl (fun s i =>
    sendDict (fld routes (4 * i) 2) (routeKey id) true (sub routes (4 * i + 2) 2) s) s

/-- IDENTITY_ASSUMED (R433, step 5; R436). -/
def doIdentity (s : State) : State := match s.boot.wakeFor with
  | some id =>
    if ¬ s.mirror.restored ∨ getO s oTakeoverState ≠ 2 ∨ 4096 ≤ id then s
    else
      let former := getO s oChipId
      let s := applyNow oChipId (natLe 2 id) s
      let s := { s with
        links := { s.links with tx := [], rx := [] }
        mirror := { s.mirror with formerId := former } }
      let s := sendRoutes s.mirror.image.routes id s
      let s := ((routedChips s).filter (· != id)).foldl (fun s c => (List.range 7).foldl (fun s v => sendSync c (v + 1) s) s) s
      setO s oTakeoverState 3
  | none => s

/-! ### The replay (R433, R435, R438) -/

/-- Release a request of the last mirrored commit set again: its record and its notice. -/
def releaseAgain (x : PayloadItem) (s : State) : State :=
  let s := cplPut x.tenant x.record s
  if x.noticed then noticeTo x.tenant x.record x.tokens s else s

/-- Put what an admission image holds of tenant memory where the request reads it. -/
def placePieces (m : ReplayImage) (s : State) : State :=
  m.pieces.foldl (fun s p => tenantWrite .normal m.tenant p.1 p.2 s) s

/-- What an image placed and nothing has overwritten is zero again (R438). -/
def clearPieces (m : ReplayImage) (s : State) : State :=
  m.pieces.foldl (fun s p => match peekTenant s m.tenant p.1 p.2.length with
    | .ok d => tenantWrite .normal m.tenant p.1 ((d.zip p.2).map (fun x => if x.1 = x.2 then 0 else x.1)) s
    | .error _ => s) s

/-- The verdict on a replayed entry, with its original pins. -/
def judgeReplay (s : State) (m : ReplayImage) : Verdict :=
  if dKind m.desc = 0 then judgeRun s m.tenant m.ring m.index m.desc m.cast else judge s m.tenant m.ring m.index m.desc

/-- Admit a request of the replay set. A placement unlike the one a sealed record holds is a divergence. -/
def admitReplay (m : ReplayImage) (s : State) : State :=
  let s := placePieces m s
  match judgeReplay s m with
  | .refuse _ => raiseFault 0x0145 .none 0 none 0 s
  | .pass q pages scratch _ =>
    let q := { q with cast := m.cast, var := m.var, admitTick := m.tick }
    let p := planOf s q s.sched.load
    let i := sfree s.sched.reqs (s.sched.reqs.length + 1) 0
    let t := takeAdmitted q pages scratch p (planChain s q p) (isOversize s q) s
    let t := { t with mirror := { t.mirror with replaySet := t.mirror.replaySet ++ [i] } }
    if m.inRecord ∧ planCrc p ≠ m.planCrc then raiseFault 0x0145 .none 0 (some i) 0 t else t

/-- The images in order of original tick and then AdmitSeq. -/
def replayOrder (l : List ReplayImage) : List ReplayImage :=
  l.mergeSort (fun a b => a.tick < b.tick || (a.tick == b.tick && a.seq ≤ b.seq))

/-- A replayed eviction unlike the recorded one makes the spare fail silent (R219, R435). -/
def divergeStep (s : State) : State :=
  if s.mirror.diverged then raiseFault 0x0145 .none 0 none 0 { s with mirror := { s.mirror with diverged := false } } else s

/-- The first boundary under the new identity (R433, step 6): the record chains to the last mirrored one, the last set is
released again, the replay set is admitted, and the chip is ACTIVE. -/
def replayBoundary (s : State) : State :=
  if getO s oTakeoverState ≠ 3 ∨ s.boot.chip ≠ .waking ∨ s.mirror.begun then s
  else
    let m := s.mirror.image
    let s := { s with
      record := { s.record with ring := [], prevDigest := m.lastDigest }
      boot := { s.boot with chip := .active }
      mirror := { s.mirror with begun := true } }
    let s := m.payload.foldl (fun s x => releaseAgain x s) s
    let s := ((m.payload.map (·.tenant)).eraseDups).foldl (fun s t => cplPublish t s) s
    let s := (replayOrder m.images).foldl (fun s x => admitReplay x s) { s with sched := { s.sched with seq := 0 } }
    setO s oIdentityEpoch m.epoch

/-- TAKEOVER_COMPLETE (R433, step 7): the last request of the replay set has committed. -/
def doTakeoverComplete (s : State) : State :=
  if getO s oTakeoverState ≠ 3 ∨ ¬ s.mirror.begun ∨ s.mirror.replaySet.any (fun i => shas s.sched.reqs i) ∨ ¬ alive s then s
  else
    let epoch := (getO s oIdentityEpoch + 1) % 2 ^ 32
    let s := applyNow oIdentityEpoch (natLe 4 epoch) s
    let d := draw s
    let s := addEntry (recastEntry 7 (d.1 % 65536) s.mirror.formerId (getO s oChipId) 0 epoch) d.2
    let s := s.mirror.image.images.foldl (fun s m => clearPieces m s) s
    let s := setO (setO (bump s oTakeoverCount) oTakeoverState 4) oServeEnable 1
    { s with
      sched := { s.sched with serving := true }
      boot := { s.boot with wakeFor := none }
      mirror := { s.mirror with replaySet := [], restored := false, begun := false, image := {} } }

/-! ### The commands -/

/-- TAKEOVER_START. -/
def execTakeoverStart (ward : Nat) (s : State) : Host.Outcome State Fault Refusal := .next (doTakeoverStart ward s)

/-- WARD_MISS. -/
def execWardMiss (s : State) : Host.Outcome State Fault Refusal := .next (doWardMiss s)

/-- WARD_LOST. -/
def execWardLost (t : Nat) (s : State) : Host.Outcome State Fault Refusal := .next (doWardLost t s)

/-- SPARE_NO_ANSWER. -/
def execSpareNoAnswer (s : State) : Host.Outcome State Fault Refusal := .next (doSpareNoAnswer s)

/-- MIRROR_COPIED. -/
def execMirrorCopied (s : State) : Host.Outcome State Fault Refusal := .next (doMirrorCopied s)

/-- IDENTITY_ASSUMED. -/
def execIdentityAssumed (s : State) : Host.Outcome State Fault Refusal := .next (doIdentity s)

/-- TAKEOVER_COMPLETE. -/
def execTakeoverComplete (s : State) : Host.Outcome State Fault Refusal := .next (doTakeoverComplete s)

/-- WAKE. -/
def execWake (f : LinkFrame) (port : Nat) (s : State) : Host.Outcome State Fault Refusal := .next (doWake f port s)

end Sys2Proof.Machine
end

