-- ==== Sys2Proof/Machine/Dict.lean ====
section
/-! DEFINITION. Writes and reads of any object: the relations and resources of each, the route to the objects that act, and the
boundary's apply of pending writes (R11 to R36, R342, R360, R392 to R407, R462, R463, R496 to R508, R519). -/

namespace Sys2Proof.Machine

open Sys2Proof

/-! ### Relations and resources (R504, checks 4 to 6; R505) -/

/-- A number in a range. -/
def inRange (lo hi v : Nat) : Nat := if lo ≤ v ∧ v ≤ hi then abOk else abRange

/-- The rule of a mark (R34, R35), and of TickAdmitFractionBp (R39). -/
def markRule (s : State) (key v : Nat) : Nat :=
  if key = oTickAdmitFractionBp then inRange 5000 9500 v
  else if key = oTickAdmitNs ∧ ¬ (50000 ≤ v ∧ v ≤ 200000) then abRange
  else if markWriteOk s key v then abOk
  else abRange

/-- Whether a pulse is shorter than half a period I + N/D (R28). -/
def pulseFits (v i n d : Nat) : Bool := decide (2 * v * d < i * d + n)

/-- The rule of SyncOutPulseNs (R28): shorter than half the period, in force and pending. -/
def pulseRule (s : State) (v : Nat) : Nat :=
  let g := storedGrid s
  let pend : Bool := match s.time.pend with
    | some (i, n, d) => pulseFits v i n d
    | none => true
  if 100 ≤ v ∧ v ≤ 100000 ∧ pulseFits v g.i g.n g.d ∧ pend then abOk else abRange

/-- Whether a number is a power of two from 8 to a limit. -/
def powerUpTo (hi v : Nat) : Bool := (List.range 13).any (fun k => v == 2 ^ (k + 3)) && v ≤ hi

/-- Whether an object of a ring's size is not 0, in force or pending. -/
def enabledNow (s : State) (key : Nat) : Bool := getO s key != 0 || nextO s key != 0

/-- The form of a NoticeTarget (R404): its route, byte 1 zero, and for UDP the index of a NoticeDest. -/
def noticeFormOk (v : Nat) : Bool :=
  let b := natLe 8 v
  byteAt b 0 ≤ 2 && byteAt b 1 == 0 && (byteAt b 0 != 2 || fld b 2 2 < 64)

/-- The rules of a tenant's own objects (R342, R358, R360, R492). -/
def tenantRule (s : State) (n sub' v : Nat) : Nat :=
  if 1 ≤ sub' ∧ sub' ≤ 4 then
    if enabledNow s (tkey (oSubRingEntries + sub' - 1) n) then abInUse else abOk
  else if 5 ≤ sub' ∧ sub' ≤ 8 then
    if v ≠ 0 ∧ ¬ powerUpTo 4096 v then abRange
    else if v ≠ 0 ∧ enabledNow s (tkey (oSubRingEntries + sub' - 5) n) then abInUse
    else abOk
  else if sub' = 9 then (if enabledNow s (tkey oCplRingEntries n) then abInUse else abOk)
  else if sub' = 0x0A then
    if v ≠ 0 ∧ ¬ powerUpTo 32768 v then abRange
    else if heldSlots s n ≠ 0 ∨ (v ≠ 0 ∧ enabledNow s (tkey oCplRingEntries n)) then abInUse
    else abOk
  else if sub' = 0x0E then ringResumeRule v
  else if sub' = 0x10 then (if noticeFormOk v then abOk else abRange)
  else if sub' = 0x19 then
    if translates s n (nextO s (tkey oPutWindowBase n)) v then abOk else abLengthRange
  else if sub' = 0x1A then memPagesRule s n v
  else abOk

/-- The value a next-reset object has been given, or the one in force. -/
def nextResetO (s : State) (key : Nat) : Nat := match sfind s.dict.nextReset key with
  | some v => leNat v
  | none => getO s key

/-- The rule of VcCredits v (R393), with the other credits as they stand and as they will. -/
def creditRule (s : State) (key v : Nat) : Nat :=
  let l := (List.range 8).map (fun i => if oVcCredits + i = key then v else nextResetO s (oVcCredits + i))
  if 16384 < sumN l ∨ l.any (fun x => decide (x < 66)) then abRange else abOk

/-- The rule of PilotListenPort (R505). -/
def listenRule (s : State) (p : Nat) : Nat :=
  if getO s (oPortMode + p) = 1 ∧ nextResetO s (oPortMode + p) = 1 then abOk else abInUse

/-- The value a string object has, or will have. -/
def nextS (s : State) (key : Nat) : Bytes := (pendingValue s key).getD (getS s key)

/-- The spans that an ingest channel's buffer and counter word take, where it is enabled (R403). -/
def ingestSpans (v : Bytes) : List (Nat × Nat) :=
  if byteAt v 2 = 1 then [(fld v 8 8, 64 * fld v 16 4), (fld v 24 8, 4)] else []

/-- Whether two spans share a byte. -/
def spansMeet (a b : Nat × Nat) : Bool := a.1 < b.1 + b.2 && b.1 < a.1 + a.2 && a.2 != 0 && b.2 != 0

/-- The rule of an IngestChannel (R403, R505). -/
def ingestRule (s : State) (c : Nat) (v : Bytes) : Nat :=
  let clash := fun (k : Nat) =>
    let w := nextS s (oIngestChannel + k)
    k != c && fld v 0 2 == fld w 0 2 && (ingestSpans v).any (fun a => (ingestSpans w).any (fun b => spansMeet a b))
  if 1 < byteAt v 2 ∨ 128 < byteAt v 3 ∨ 1024 ≤ fld v 0 2 then abRange
  else if byteAt v 2 = 1 ∧ ¬ translates s (fld v 0 2) (fld v 8 8) (64 * fld v 16 4) then abLengthRange
  else if (List.range 64).any clash then abInUse
  else abOk

/-- The span of a link window. -/
def windowSpan (v : Bytes) : Nat × Nat := (fld v 0 8, fld v 8 8)

/-- The rule of a LinkWindow (R407, R505). -/
def windowRule (s : State) (k : Nat) (v : Bytes) : Nat :=
  if (windowSpan v).2 ≠ 0 ∧ 2097152 * getO s oDramLiveFrames < (windowSpan v).1 + (windowSpan v).2 then abLengthRange
  else if (List.range 16).any (fun j => j != k && spansMeet (windowSpan v) (windowSpan (nextS s (oLinkWindow + j)))) then abInUse
  else abOk

/-- The rule of a SensorConfig (R462, R505). -/
def sensorRule (s : State) (n v : Nat) : Nat :=
  let addr := bits v 24 8
  let other := nextO s (oSensorConfig + (if n = 62 then 63 else 62))
  if bits v 7 17 ≠ 0 ∨ bits v 0 2 = 3 ∨ 8 < bits v 2 4 then abRange
  else if n < 62 ∧ (bits v 6 1 = 0 ∨ addr ≠ 0) then abRange
  else if 62 ≤ n ∧ bits v 6 1 = 1 ∧ bits other 6 1 = 1 ∧ addr ≠ 0 ∧ bits other 24 8 = addr then abInUse
  else abOk

/-- Whether a sensor is enabled, as pending writes leave it. -/
def sensorEnabled (s : State) (n : Nat) : Bool :=
  let c := nextO s (oSensorConfig + n)
  n < 62 || (bits c 6 1 == 1 && bits c 24 8 != 0)

/-- The rule of a Threshold (R463). -/
def thresholdRule (s : State) (v : Nat) : Nat :=
  if bits v 7 1 ≠ 0 ∨ bits v 11 5 ≠ 0 ∨ bits v 63 1 ≠ 0 ∨ 4 < thAction v ∨ thDwell v = 0 then abRange
  else if ¬ sensorEnabled s (bits v 0 6) then abRange
  else if thAction v = 2 ∧ (bits v 56 7 = 0 ∨ 64 < bits v 56 7) then abRange
  else abOk

/-- The rule of DieThrottleC and DieCriticalC (R457). -/
def dieRule (s : State) (key v : Nat) : Nat :=
  let throttle := if key = oDieThrottleC then v else nextO s oDieThrottleC
  let critical := if key = oDieCriticalC then v else nextO s oDieCriticalC
  if throttle + 3 < critical then abOk else abRange

/-- The rule of ServeEnable (R534). -/
def serveRule (s : State) (v : Nat) : Nat :=
  if v = 1 ∧ (getO s oBootStage ≠ 12 ∨ getO s oChipId = 0xFFFF) then abState else abOk

/-- The rules of the link chapter's objects. -/
def linkRule (s : State) (key : Nat) (v : Bytes) : Nat :=
  let idx := key / 256
  if key = oPilotListenPort then listenRule s (leNat v)
  else if oPortMode ≤ key ∧ key < oPortMode + 16 then (if 3 < leNat v then abRange else abOk)
  else if oVcCredits ≤ key ∧ key < oVcCredits + 8 then creditRule s key (leNat v)
  else if idx = 0x1015 then (if v.length % 2 = 1 then abRange else abOk)
  else if idx = 0x1016 ∧ key % 256 ≤ 64 then ingestRule s (key % 256 - 1) v
  else if idx = 0x1019 then windowRule s (key % 256 - 1) v
  else abOk

/-- Checks 4 to 6 of R504 beyond the range of an object's own row, for objects that are stored. -/
def objectRule (s : State) (key : Nat) (v : Bytes) : Nat :=
  let idx := key / 256
  let n := leNat v
  if idx = 0x2011 then markRule s key n
  else if key = oTickSlewMaxPpm then inRange 10 10000 n
  else if idx = 0x2013 then (if key = oSyncOutPulseNs then pulseRule s n else syncPinRule s (key - oSyncPinFunction) n)
  else if 0x6000 ≤ idx ∧ idx ≤ 0x63FF then tenantRule s (idx - 0x6000) (key % 256) n
  else if idx = 0x3043 then castPtrRule s (key % 256 - 1) n
  else if 0x3068 ≤ idx ∧ idx ≤ 0x306F then varPtrRule s (128 * (idx - 0x3068) + key % 256 - 1) n
  else if 0x1010 ≤ idx ∧ idx ≤ 0x1019 then linkRule s key v
  else if key = oPuerelmUdpPort then (if n = nextO s oIngestUdpPort then abRange else abOk)
  else if key = oDieThrottleC ∨ key = oDieCriticalC then dieRule s key n
  else if idx = 0x9041 then sensorRule s (key % 256 - 1) n
  else if idx = 0x9043 then thresholdRule s n
  else if key = oShareGrant then shareGrantRule s v
  else if key = oServeEnable then serveRule s n
  else abOk

/-! ### A write by its effect time (R501, R502) -/

/-- The effect time of an object. -/
def effectOf (key : Nat) : Effect := match objRow (key / 256) (key % 256) with
  | some d => d.eff
  | none => .none

/-- Store a checked write by its effect time: at once, for a boundary, or for the next reset. -/
def storeWrite (a : Access) (key : Nat) (v : Bytes) (s : State) : Nat × State := match effectOf key with
  | .nextTick => makePending a key v s
  | .nextReset =>
    let s := noteConfig key v { s with dict := { s.dict with nextReset := sput s.dict.nextReset key v } }
    (abOk, if isPersistent key then bump s oDictNvWriteCount else s)
  | _ => (abOk, noteConfig key v (applyNow key v s))

/-- A write of an object with no act of its own: what it replaces is out of the way of its rules, but for a cast pointer, where every
pending pointer write counts (R267). -/
def plainWrite (a : Access) (key : Nat) (v : Bytes) (s : State) : Nat × State :=
  match objectRule (if key / 256 = 0x3043 then s else withoutOwn a key s) key v with
  | 0 => storeWrite a key v s
  | e => (e, s)

/-! ### Writes that act -/

/-- Writes of a tenant's objects. -/
def writeTenant (a : Access) (n sub' : Nat) (v : Bytes) (s : State) : Nat × State :=
  if sub' = 0x0E then doRingResume a n (leNat v) s
  else if sub' = 0x0F then doTenantReset a n (leNat v) s
  else if sub' = 0x1A then doMemPages a n v s
  else plainWrite a (tkey (0x600000 + sub') n) v s

/-- Writes of the cast and variant chapters' objects. -/
def writeStore (a : Access) (idx sub' : Nat) (v : Bytes) (s : State) : Nat × State := match idx, sub' with
  | 0x3041, 1 => doCastOpen a v s
  | 0x3041, 3 => doStagingHead a (leNat v) s
  | 0x3041, 5 => doCastAbort a (leNat v) s
  | 0x3041, 8 => doCastAdopt a v s
  | 0x3041, 9 => doCastDelete a (leNat v) s
  | 0x3051, 1 => doVariantLoad a v s
  | 0x3051, 4 => doVariantAbort a (leNat v) s
  | 0x3051, 5 => doVariantDelete a (leNat v) s
  | 0x3011, 5 => doMapOutWrite a (leNat v) s
  | _, _ => plainWrite a (256 * idx + sub') v s

/-- Writes of the security chapter's objects. -/
def writeSecurity (a : Access) (idx sub' : Nat) (v : Bytes) (s : State) : Nat × State := match idx, sub' with
  | 0x8011, 1 => doFirmwareStage a v s
  | 0x8011, 0xA => doRollbackCommit a (leNat v) s
  | 0x8040, 1 => doKeyAuthorise a v s
  | 0x8040, 2 => doKeyRevoke a v s
  | 0x8070, 1 => doAttestNonce a v s
  | 0x8090, 1 => doShareGrant a v s
  | 0x8090, 2 => doShareRevoke a v s
  | _, _ => plainWrite a (256 * idx + sub') v s

/-- A write of EngineReset: whether the engine's self-test passes is not the write's to say. -/
def writeEngineReset (a : Access) (v : Bytes) (s : State) : Nat × State :=
  let d := draw s
  doEngineReset a (leNat v) (d.1 % 2 == 1) d.2

/-- Writes of the other objects that act. -/
def writeOther (a : Access) (idx sub' : Nat) (v : Bytes) (s : State) : Nat × State := match idx, sub' with
  | 0x2010, 1 => doTickPeriod a 1 v s
  | 0x2010, 2 => doTickPeriod a 2 v s
  | 0x2010, 3 => doTickPeriod a 3 v s
  | 0x2010, 6 => doRegridNo a v s
  | 0x1003, 3 => doRestoreDefaults a (leNat v) s
  | 0x1004, 3 => doServeEnable a (leNat v) s
  | 0x1005, 1 => doChipReset a (leNat v) s
  | 0x1005, 3 => writeEngineReset a v s
  | 0x1010, 1 => doChipIdWrite a (leNat v) s
  | 0x7031, 1 => doTakeoverWrite a v s
  | 0x7031, 6 => doHandOverWrite a (leNat v) s
  | 0x9040, 2 => doChipStateRequest a (leNat v) s
  | 0xA000, 1 => doStatsRequest a (leNat v) s
  | 0xF001, 1 => (abOk, ctxMod a.ctx (fun c => { c with recSel := leNat v }) s)
  | 0xF070, 1 => (abOk, ctxMod a.ctx (fun c => { c with dbgSel := leNat v }) s)
  | _, _ => plainWrite a (256 * idx + sub') v s

/-- A write whose access, length and range hold. -/
def routeWrite (a : Access) (key : Nat) (v : Bytes) (s : State) : Nat × State :=
  let idx := key / 256
  let sub' := key % 256
  if 0x6000 ≤ idx ∧ idx ≤ 0x63FF then writeTenant a (idx - 0x6000) sub' v s
  else if 0x3000 ≤ idx ∧ idx ≤ 0x30FF then writeStore a idx sub' v s
  else if 0x8000 ≤ idx ∧ idx ≤ 0x80FF then writeSecurity a idx sub' v s
  else writeOther a idx sub' v s

/-- A write of any object (R504): the checks in their order, then the effect of the object written. -/
def writeObject (a : Access) (key : Nat) (v : Bytes) (s : State) : Nat × State :=
  if key = oOwnerInstall then doOwnerInstall a v s
  else if key = oPortReset ∧ v.length = 2 then doPortReset a (leNat v) s
  else match gate s a key v with
    | 0 => if key = oChipReset then routeWrite a key v s else nvAnswer a s (routeWrite a key v s)
    | e => (e, s)

/-- DICT_WRITE. -/
def doDictWrite (a : Access) (idx sub' : Nat) (v : Bytes) (s : State) : State :=
  if 65536 ≤ idx ∨ 256 ≤ sub' then answerWrite (abObject, s) else answerWrite (writeObject a (256 * idx + sub') v s)

/-! ### Reads (R496, R501, R521) -/

/-- A read of any object, counted. -/
def readObject (a : Access) (key : Nat) (pend : Bool) (s : State) : Except Nat Bytes × State :=
  let s := bump s oDictReadCount
  match accessAbort s a false (key / 256) (key % 256) with
  | 0 => (if pend then readPending s a.ctx key else readValue s a.ctx key, s)
  | e => (.error e, s)

/-! ### The boundary (R41, R506, R507) -/

/-- A DICT_APPLY entry. -/
def applyEntry (p : Pending) (code pos : Nat) : Bytes :=
  entry 0x0B (natLe 2 (p.key / 256) ++ natLe 1 (p.key % 256) ++ natLe 1 (whoCode p.who) ++ natLe 2 (whoTenant p.who) ++ zeros 2
    ++ natLe 4 code ++ natLe 4 p.value.length ++ natLe 4 pos ++ zeros 4 ++ p.value)

/-- Whether a write is due at the boundary that ends the tick in progress: it was accepted before the check mark. -/
def dueNow (s : State) (p : Pending) : Bool := p.due != (s.time.tickNo + 2) % 2 ^ 64

/-- Whether an object is a cast or variant pointer. -/
def isPointer (key : Nat) : Bool := key / 256 == 0x3043 || (0x3068 ≤ key / 256 && key / 256 ≤ 0x306F)

/-- A tenant's object takes its value. -/
def applyTenant (n sub' : Nat) (v : Bytes) (s : State) : State :=
  if sub' = 0x0E then resumeRings n (leNat v) s
  else if sub' = 0x0F then s
  else if sub' = 0x1A then setMemPages n (leNat v) s
  else putValue (tkey (0x600000 + sub') n) v s

/-- A pending write takes effect. Nonces and snapshot requests are answered elsewhere in the boundary, tenant resets before
it. -/
def applyValue (key : Nat) (v : Bytes) (s : State) : State :=
  let idx := key / 256
  if 0x6000 ≤ idx ∧ idx ≤ 0x63FF then applyTenant (idx - 0x6000) (key % 256) v s
  else if key = oShareGrant then bump (putGrant v s) oDictNvWriteCount
  else if key = oShareRevoke then bump (dropGrant v s) oDictNvWriteCount
  else if perContext key then s
  else if idx = 0x9043 ∧ getO s key ≠ leNat v then resetEntry (key % 256 - 1) (putValue key v s)
  else putValue key v s

/-- Check a pending write again, apply or drop it, and write its entry (R506, R507). A persistent value then waits for its NV
write. -/
def applyPending (x : Nat × State) (p : Pending) : Nat × State :=
  let s := x.2
  let code := objectRule s p.key p.value
  let s := addEntry (applyEntry p code x.1) s
  if code ≠ 0 then (x.1 + 1, bump s oDictApplyDroppedCount)
  else
    let s := applyValue p.key p.value s
    (x.1 + 1, if isPersistent p.key then
      { s with dict := { s.dict with nvQueue := s.dict.nvQueue ++ [(p.key, p.value)] } } else s)

/-- Step 3 of R41: the due writes, in order of arrival. -/
def applyWrites (s : State) : State :=
  let due := s.dict.pending.filter (dueNow s)
  let rest := s.dict.pending.filter (fun p => !dueNow s p)
  let s := (due.foldl applyPending (0, { s with dict := { s.dict with pending := [] } })).2
  { s with dict := { s.dict with pending := rest ++ s.dict.pending } }

/-- The pointers of due writes with their values before the boundary, in order of arrival. -/
def duePointers (s : State) : List (Nat × Nat) :=
  ((s.dict.pending.filter (dueNow s)).filter (fun p => isPointer p.key)).map (fun p => (p.key, getO s p.key))

/-- The switch of one pointer is recorded, where its value has changed (R302). -/
def recordSwitch (s : State) (x : Nat × Nat) : State :=
  let new := getO s x.1
  let w := fun (v : Nat) => if v = 0xFF then 0xFFFF else v
  if new = x.2 then s
  else recFlag 4 (if x.1 / 256 = 0x3043 then addEntry (switchEntry 0 (x.1 % 256 - 1) (w x.2) (w new)) s
  else addEntry (switchEntry 1 (128 * (x.1 / 256 - 0x3068) + x.1 % 256 - 1) x.2 new) s)

/-- A READY variant slot that no pointer names any more becomes RETIRING (R298). -/
def retireVar (s : State) (x : Nat × Nat) : State :=
  if x.1 / 256 ≠ 0x3043 ∧ x.2 ≠ 0xFFFF ∧ (varGet s x.2).state = 2 ∧ ¬ varNamed s false x.2 then
    varMod x.2 (fun k => { k with state := 3 }) s
  else s

/-- Step 4 of R41, for the pointers: the switches made together are recorded, then slots retire. -/
def switchPointers (l : List (Nat × Nat)) (s : State) : State := l.foldl retireVar (l.foldl recordSwitch s)

/-! ### The commands -/

/-- DICT_WRITE. -/
def execDictWrite (a : Access) (idx sub' : Nat) (v : Bytes) (s : State) : Host.Outcome State Fault Refusal :=
  .next (doDictWrite a idx sub' v s)

end Sys2Proof.Machine
end

