-- ==== Sys2Proof/Machine/Puerelm.lean ====
section
/-! DEFINITION. Puerelm sessions and their messages, segmented transfers, and the local window of the application cores (R480,
R485 to R487, R498, R509 to R515). -/

namespace Sys2Proof.Machine

open Sys2Proof

/-! ### Messages (R510, R511) -/

/-- A message header. -/
def msgHeader (type session sequence requestId bodyLen : Nat) : Bytes :=
  [1] ++ natLe 1 type ++ zeros 2 ++ natLe 4 session ++ natLe 8 sequence ++ natLe 4 requestId ++ natLe 4 bodyLen

/-- A message before or with ACCEPT: Sequence 0, no HMAC. -/
def openMsg (type session requestId : Nat) (body : Bytes) : Bytes :=
  msgHeader type session 0 requestId body.length ++ body

/-- A session. -/
def sessGet (s : State) (id : Nat) : Option Session := sfind s.sec.sessions id

/-- Change a session. -/
def sessMod (id : Nat) (f : Session → Session) (s : State) : State :=
  { s with sec := { s.sec with sessions := smod s.sec.sessions id f } }

/-- A message is dropped without answer. -/
def dropMsg (s : State) : State := bump s oPuerelmDropCount

/-- REFUSE with an abort code. -/
def refuse (mgPort session requestId code : Nat) (s : State) : State :=
  emit (.puerelm mgPort (openMsg 0x05 session requestId (natLe 4 code))) (answer code s)

/-! ### Opening (R485, R486) -/

/-- The ephemeral public key of a draw. -/
def ephKey (ix : Nat) : Bytes := ecBytes (ecMul (Config.freeScalar ix % p256N) p256G)

/-- The bytes that both sides sign: the transcript. -/
def transcript (clientKey nonceC clientEph nonceD : Bytes) (id ix : Nat) : Bytes :=
  clientKey ++ nonceC ++ clientEph ++ nonceD ++ natLe 4 id ++ ephKey ix ++ keyDigest Config.deviceKey

/-- HELLO (R485, R487): answered with CHALLENGE, or a ninth refused. Which SessionId a session gets is free, but that it is
new. -/
def doHello (clientKey clientNonce ephemeral : Bytes) (requestId mgPort t : Nat) (s : State) : State :=
  if ¬ s.boot.porstN then s
  else
    let s := atT t s
    if clientKey.length ≠ 65 ∨ clientNonce.length ≠ 32 ∨ ephemeral.length ≠ 65 ∨ 2 ≤ mgPort then dropMsg s
    else if 8 ≤ s.sec.sessions.length then refuse mgPort 0 requestId abSessions s
    else
      let x := drawBytes 32 s
      let y := draw x.2
      let ix := y.2.draws
      let id := sfree s.sec.sessions 9 (1 + y.1 % (2 ^ 32 - 10))
      let h := transcript clientKey clientNonce ephemeral x.1 id ix
      let new : Session := ⟨clientKey, clientNonce, x.1, ephemeral, ix, h, s.time.now, false, .installer, [], 0, 0, []⟩
      let s := { y.2 with
        draws := ix + 1
        sec := { y.2.sec with sessions := sput y.2.sec.sessions id new } }
      emit (.puerelm mgPort (openMsg 0x02 id requestId
        (x.1 ++ natLe 4 id ++ ephKey ix ++ padTo 64 (Config.deviceSignature (sha256 h))))) s

/-- The principal that a client key gives; none fails the session. -/
def principalOf (s : State) (key : Bytes) : Option Principal :=
  if s.sec.ownerKey = some key then some .owner
  else match keyRecord s key with
    | some r =>
      if recKind r = 1 ∧ recRight r 0 then some .operator
      else if recKind r = 2 ∧ recRight r 0 then some (.tenant (recSubject r))
      else if keyDigest key = keyDigest Config.vendorKey then some .vendor
      else if s.sec.ownerKey.isNone then some .installer
      else none
    | none =>
      if keyDigest key = keyDigest Config.vendorKey then some .vendor
      else if s.sec.ownerKey.isNone then some .installer
      else none

/-- The session key: HKDF of the shared point's X coordinate; none where a key is no point of the curve. -/
def sessionKey (x : Session) (id : Nat) : Option Bytes :=
  (ecMul (Config.freeScalar x.ephIx % p256N) (ecPoint x.clientEph)).map (fun q =>
    hkdf (x.nonceC ++ x.nonceD) (natBe 32 q.1) (natLe 4 id))

/-- A session that fails: refused with AUTH_FAILED, counted, gone. -/
def failSession (id requestId mgPort : Nat) (s : State) : State :=
  refuse mgPort id requestId abAuth (closeSession id (bump s oAuthFailCount))

/-- PROOF (R486). -/
def doProof (id requestId : Nat) (sig : Bytes) (mgPort t : Nat) (s : State) : State :=
  let s := if s.boot.porstN then atT t s else s
  match sessGet s id with
  | none => if s.boot.porstN then dropMsg s else s
  | some x =>
    if x.accepted then dropMsg s
    else if x.challengedAt + 1000000000 < s.time.now then failSession id requestId mgPort s
    else match principalOf s x.clientKey, sessionKey x id with
      | some who, some key =>
        if ¬ ecdsaVerify x.clientKey x.hash sig then failSession id requestId mgPort s
        else
          let s := sessMod id (fun x => { x with accepted := true, who := who, key := key }) s
          emit (.puerelm mgPort (openMsg 0x04 id requestId (natLe 1 (whoCode who) ++ natLe 2 (whoTenant who)))) s
      | _, _ => failSession id requestId mgPort s

/-- PROOF_TIMEOUT (R486): 1,000 ms have passed since CHALLENGE without a PROOF. -/
def doProofTimeout (id : Nat) (s : State) : State := match sessGet s id with
  | some x =>
    if x.accepted then s else closeSession id (bump s oAuthFailCount)
  | none => s

/-! ### Request and response bodies (R512, R513) -/

/-- A response body. -/
def respBody (code flags total : Nat) (data : Bytes) : Bytes :=
  natLe 4 code ++ natLe 1 flags ++ zeros 3 ++ natLe 4 total ++ natLe 2 data.length ++ zeros 2 ++ data

/-- An abort: the code in the body, and counted. -/
def abort (code : Nat) (s : State) : Bytes × State := (respBody code 0 0 [], answer code s)

/-- PENDING_APPLY for an object's writes. -/
def pendingFlag (key : Nat) : Nat := match effectOf key with
  | .nextTick | .nextReset => 1
  | _ => 0

/-- A written object's response. -/
def wrote (a : Access) (key : Nat) (v : Bytes) (s : State) : Bytes × State :=
  let r := writeObject a key v s
  let s := answerWrite r
  (respBody r.1 (if r.1 = 0 then pendingFlag key else 0) 0 [], s)

/-- Bytes that open segmented writes hold, but for one context's. -/
def openBytes (s : State) (but : AccessCtx) : Nat :=
  sumN (s.dict.ctxs.map (fun (e : AccessCtx × CtxObjs) => if e.1 = but then 0 else match e.2.xfer with
    | some x => x.2.1
    | none => 0))

/-- Discard a context's segmented write. -/
def dropXfer (ctx : AccessCtx) (s : State) : State := ctxMod ctx (fun c => { c with xfer := none }) s

/-- A segment of a write: the first opens the transfer, the last has the value checked and applied. -/
def writeSegment (a : Access) (key off total : Nat) (d : Bytes) (s : State) : Bytes × State :=
  match (ctxGet s a.ctx).xfer with
  | none =>
    if off ≠ 0 ∨ total < d.length then abort abTransfer s
    else if 8388608 < openBytes s a.ctx + total then abort abBusy s
    else (respBody 0 2 0 [], ctxMod a.ctx (fun c => { c with xfer := some (key, total, d, s.time.now) }) s)
  | some (k, n, got, at') =>
    if k ≠ key ∨ n ≠ total ∨ off ≠ got.length ∨ total < off + d.length ∨ at' + 1000000000 < s.time.now then
      abort abTransfer (dropXfer a.ctx s)
    else if off + d.length = total then wrote a key (got ++ d) (dropXfer a.ctx s)
    else (respBody 0 2 0 [], ctxMod a.ctx (fun c => { c with xfer := some (key, total, got ++ d, s.time.now) }) s)

/-- A WRITE request. -/
def writeReq (a : Access) (key off total : Nat) (d : Bytes) (s : State) : Bytes × State :=
  if off = 0 ∧ d.length = total then wrote a key d s else writeSegment a key off total d s

/-- A READ request: a value longer than one message is copied at Offset 0 and served from the copy. -/
def readReq (a : Access) (key off : Nat) (pend : Bool) (s : State) : Bytes × State :=
  if off = 0 then match readObject a key pend s with
    | (.error e, s) => abort e s
    | (.ok v, s) =>
      let s := answer abOk s
      let s := if v.length ≤ 1008 then s else ctxMod a.ctx (fun c => { c with readCopy := some (key, v, s.time.now) }) s
      (respBody 0 0 v.length (v.take 1008), s)
  else match (ctxGet s a.ctx).readCopy with
    | some (k, v, at') =>
      if k ≠ key ∨ at' + 1000000000 < s.time.now then abort abTransfer s
      else (respBody 0 0 v.length (sub v off 1008), answer abOk (bump s oDictReadCount))
    | none => abort abTransfer s

/-- The code of a type (R496). -/
def typeCode : OType → Nat
  | .bool => 1
  | .u8 => 2
  | .u16 => 3
  | .u32 => 4
  | .u64 => 5
  | .i8 => 6
  | .i16 => 7
  | .i32 => 8
  | .i64 => 9
  | .octets _ => 0x0B
  | .domain _ => 0x0C
  | .domainAny => 0x0C

/-- The code of an effect time. -/
def effectCode : Effect → Nat
  | .immediate => 0
  | .nextTick => 1
  | .nextReset => 2
  | .regrid => 3
  | .none => 4

/-- The longest value of a type; an object without a stated limit takes what may stand open in all. -/
def typeMax : OType → Nat
  | .octets n => n
  | .domain n => n
  | .domainAny => 8388608
  | t => (typeWidth t).getD 0

/-- A mask of the principals that meet a test, bit p for code p, for an index. -/
def whoMask (idx : Nat) (p : Access → Bool) : Nat :=
  let l : List Principal := [.vendor, .owner, .operator, .tenant (idx - 0x6000), .pilot, .cores, .installer, .neighbour 0]
  sumN ((l.zipIdx).map (fun x => if p ⟨x.1, .firmware, false⟩ then 2 ^ x.2 else 0))

/-- An object's metadata, 16 bytes. -/
def metaBytes (s : State) (idx : Nat) (d : ObjDesc) (key : Nat) : Bytes :=
  natLe 1 (typeCode d.typ) ++ natLe 1 (effectCode d.eff) ++ natLe 1 (if d.persistent then 1 else 0) ++ [0]
    ++ natLe 1 (whoMask idx (fun a => mayRead s a d.acc idx)) ++ natLe 1 (whoMask idx (fun a => mayWrite s a d.acc idx)) ++ zeros 2
    ++ natLe 4 (typeMax d.typ) ++ natLe 4 (objDefault key)

/-- A DESCRIBE request. -/
def describeReq (a : Access) (key : Nat) (s : State) : Bytes × State :=
  let idx := key / 256
  match objRow idx (key % 256) with
  | none => abort (if idxKnown idx then abSubindex else abObject) s
  | some d =>
    if restricted s a false key then abort abDenied s
    else (respBody 0 0 16 (metaBytes s idx d key), answer abOk s)

/-- Whether a request body has the form of R512. -/
def bodyOk (b : Bytes) : Bool := 16 ≤ b.length && b.length == 16 + fld b 12 2 && fld b 12 2 ≤ 1008

/-- A dictionary request of a message type: the body of its response. -/
def dictRequest (a : Access) (type : Nat) (b : Bytes) (s : State) : Bytes × State :=
  let key := 256 * fld b 0 2 + byteAt b 2
  if ¬ bodyOk b then abort abTransfer s
  else match type with
    | 0x10 => readReq a key (fld b 4 4) (bits (byteAt b 3) 0 1 == 1) s
    | 0x11 => writeReq a key (fld b 4 4) (fld b 8 4) (b.drop 16) s
    | 0x12 => describeReq a key s
    | _ => abort abTransfer s

/-! ### Messages of an open session (R487, R514) -/

/-- The accepted session of a message whose HMAC and sequence number hold. -/
def authentic (s : State) (type : Nat) (m : ClientMsg) : Option Session := match sessGet s m.session with
  | some x =>
    let signed := msgHeader type m.session m.sequence m.requestId m.body.length ++ m.body
    if x.accepted && m.body.length ≤ 1024 && m.mac == hmac x.key signed && decide (x.rxSeq < m.sequence) then some x else none
  | none => none

/-- The access that a session's message makes. -/
def sessAccess (x : Session) (m : ClientMsg) : Access := ⟨x.who, .session m.session, m.nvFails⟩

/-- Send a response body, under the key that the session had when it asked. -/
def respond (x : Session) (m : ClientMsg) (body : Bytes) (s : State) : State :=
  let n := (x.txSeq + 1) % 2 ^ 64
  let h := msgHeader 0x18 m.session n m.requestId body.length ++ body
  let s := sessMod m.session (fun y => { y with
    txSeq := n
    cache := (y.cache ++ [(m.requestId, body)]).drop (y.cache.length + 1 - 32) }) s
  emit (.puerelm m.mgPort (h ++ hmac x.key h)) s

/-- Send a stored response again. -/
def respondAgain (x : Session) (m : ClientMsg) (body : Bytes) (s : State) : State :=
  let n := (x.txSeq + 1) % 2 ^ 64
  let h := msgHeader 0x18 m.session n m.requestId body.length ++ body
  let s := sessMod m.session (fun y => { y with txSeq := n }) (bump s oPuerelmRetryAnswerCount)
  emit (.puerelm m.mgPort (h ++ hmac x.key h)) s

/-- A request of an open session: dropped, answered from the stored responses, or carried out and answered. -/
def request (type : Nat) (m : ClientMsg) (f : Access → State → Bytes × State) (s : State) : State :=
  if ¬ s.boot.porstN then s
  else
    let s := atT m.time s
    match authentic s type m with
    | none => dropMsg s
    | some x =>
      let s := sessMod m.session (fun y => { y with rxSeq := m.sequence }) s
      match x.cache.find? (fun e => e.1 == m.requestId) with
      | some e => respondAgain x m e.2 s
      | none =>
        let r := f (sessAccess x m) s
        respond x m r.1 r.2

/-- CLOSE: the session ends without answer. -/
def doClose (m : ClientMsg) (s : State) : State :=
  if ¬ s.boot.porstN then s
  else
    let s := atT m.time s
    match authentic s 0x21 m with
    | none => dropMsg s
    | some _ => closeSession m.session s

/-- SESSION_IDLE (R487). -/
def doSessionIdle (id : Nat) (s : State) : State := match sessGet s id with
  | some x => if x.accepted then closeSession id s else s
  | none => s

/-- TRANSFER_TIMEOUT (R512): more than 1,000 ms between segments discard the transfer. -/
def doTransferTimeout (id : Nat) (s : State) : State := match (ctxGet s (.session id)).xfer with
  | some _ => answer abTransfer (dropXfer (.session id) s)
  | none => s

/-! ### The local window (R493, R498, R515) -/

/-- The principal of a hart, by its tag register. -/
def hartWho (s : State) (h : Nat) : Principal := match sfind s.dict.hartTags h with
  | some n => .tenant n
  | none => .cores

/-- CORE_MAILBOX_REQUEST (R515): the response body stands in the hart's mailbox. -/
def doMailbox (h type : Nat) (body : Bytes) (nvFails : Bool) (s : State) : State :=
  if ¬ mainOn s then s
  else
    let r := dictRequest ⟨hartWho s h, .hart h, nvFails⟩ type body s
    { r.2 with dict := { r.2.dict with mailboxes := sput r.2.dict.mailboxes h r.1 } }

/-! ### The commands -/

/-- HELLO. -/
def execHello (clientKey clientNonce ephemeral : Bytes) (requestId mgPort t : Nat) (s : State) : Host.Outcome State Fault Refusal :=
  .next (doHello clientKey clientNonce ephemeral requestId mgPort t s)

/-- PROOF. -/
def execProof (id requestId : Nat) (sig : Bytes) (mgPort t : Nat) (s : State) : Host.Outcome State Fault Refusal :=
  .next (doProof id requestId sig mgPort t s)

/-- PROOF_TIMEOUT. -/
def execProofTimeout (id : Nat) (s : State) : Host.Outcome State Fault Refusal := .next (doProofTimeout id s)

/-- READ. -/
def execRead (m : ClientMsg) (s : State) : Host.Outcome State Fault Refusal :=
  .next (request 0x10 m (fun a s => dictRequest a 0x10 m.body s) s)

/-- WRITE. -/
def execWrite (m : ClientMsg) (s : State) : Host.Outcome State Fault Refusal :=
  .next (request 0x11 m (fun a s => dictRequest a 0x11 m.body s) s)

/-- DESCRIBE. -/
def execDescribe (m : ClientMsg) (s : State) : Host.Outcome State Fault Refusal :=
  .next (request 0x12 m (fun a s => dictRequest a 0x12 m.body s) s)

/-- KEEPALIVE. -/
def execKeepalive (m : ClientMsg) (s : State) : Host.Outcome State Fault Refusal :=
  .next (request 0x20 m (fun _ s => ([], s)) s)

/-- CLOSE. -/
def execClose (m : ClientMsg) (s : State) : Host.Outcome State Fault Refusal := .next (doClose m s)

/-- SESSION_IDLE. -/
def execSessionIdle (id : Nat) (s : State) : Host.Outcome State Fault Refusal := .next (doSessionIdle id s)

/-- TRANSFER_TIMEOUT. -/
def execTransferTimeout (id : Nat) (s : State) : Host.Outcome State Fault Refusal := .next (doTransferTimeout id s)

/-- CORE_MAILBOX_REQUEST. -/
def execCoreMailboxRequest (h type : Nat) (b : MailboxBody) (s : State) : Host.Outcome State Fault Refusal :=
  .next (doMailbox h type b.body b.nvFails s)

end Sys2Proof.Machine
end

