-- ==== Sys2Proof/Machine/Links.lean ====
section
/-! DEFINITION. The Byari links and the Ethernet ingest: lanes, hop retry, flows, the effect of each frame at its destination,
collectives and datagrams (R388 to R407, R427 to R431, R436, R437, R516, R532). -/

namespace Sys2Proof.Machine

open Sys2Proof

/-! ### Lanes (R390, R391) -/

/-- A lane of a port is bad: a Byari port retrains on its good lanes or goes DOWN; an Ethernet port loses the lane or goes
DOWN. -/
def badLane (n lane : Nat) (s : State) : State :=
  let p := portGet s n
  if p.st = 0 ∨ 4 ≤ lane ∨ p.bad.contains lane then s
  else
    let bad := p.bad ++ [lane]
    let t := trained p.mode bad
    let st := if p.mode ≠ 1 ∨ t.1 = 0 then t.1 else if p.st = 4 then (if lane = 0 then 0 else 4) else 1
    let width := if st = 0 then 0 else if st = 1 ∨ st = 4 then p.width else t.2
    laneDrop n t.2 lane (portMod n (fun p => { p with
      bad := bad
      st := st
      width := width }) s)

/-- Whether a cause makes a lane bad: uncorrectable codewords do beyond LaneUncorrLimit (R390). -/
def laneFails (s : State) : LaneCause → Bool
  | .codewords n => decide (getO s oLaneUncorrLimit < n)
  | _ => true

/-- LANE_BAD (R390). -/
def doLaneBad (n lane : Nat) (cause : LaneCause) (at' : Nat) (s : State) : State :=
  if 16 ≤ n ∨ s.faults.failed ∨ laneFails s cause = false then s else badLane n lane (atT at' s)

/-! ### Hop retry (R395) -/

/-- Send the replay buffer's frames again from place i on, each counted. -/
def resendFrom (n i : Nat) (s : State) : State :=
  let p := portGet s n
  let s := portMod n (fun p => { p with
    replay := (p.replay.zipIdx).map (fun (x : (LinkFrame × Nat) × Nat) => if i ≤ x.2 then (x.1.1, x.1.2 + 1) else x.1) }) s
  (p.replay.drop i).foldl (fun s x => emit (.frame n { x.1 with linkAck := (p.rxSeq + 4095) % 4096 }) (linkBump 2 s)) s

/-- A port one of whose frames has now been resent 16 times retrains as if a lane were bad: which lane is a free value among
its good lanes. -/
def resendLimit (n : Nat) (s : State) : State :=
  let p := portGet s n
  if p.replay.any (fun x => x.2 == 16) then
    let good := (List.range 4).filter (fun l => !p.bad.contains l)
    let d := draw s
    match good with
    | [] => d.2
    | l :: _ => badLane n (nth l good (d.1 % good.length)) d.2
  else s

/-- Go back to place i of the replay buffer. -/
def goBack (n i : Nat) (s : State) : State :=
  if s.faults.failed ∨ ¬ carries (portGet s n) opPut then s else resendLimit n (resendFrom n i s)

/-- Whether a LinkAck covers a LinkSeq. -/
def ackCovers (ack seq : Nat) : Bool := (ack + 4096 - seq) % 4096 < 2048

/-- An acknowledgement frees the frames it covers. -/
def freeReplay (n ack : Nat) (s : State) : State :=
  portMod n (fun p => { p with replay := p.replay.filter (fun (x : LinkFrame × Nat) => !ackCovers ack x.1.linkSeq) }) s

/-- Credits come back on a VC. -/
def giveCredit (n vc bursts : Nat) (s : State) : State :=
  portMod n (fun p => { p with credits := updNth p.credits vc (· + bursts) }) s

/-- Send what waits at a port. -/
def drainAll (n : Nat) (s : State) : State := drainPort n (portGet s n).waiting.length s

/-- ACK. -/
def doAck (n ack vc bursts : Nat) (s : State) : State :=
  if 16 ≤ n ∨ s.faults.failed then s else drainAll n (giveCredit n vc bursts (freeReplay n ack s))

/-- NAK: go back to the frame after LinkAck. -/
def doNak (n ack : Nat) (s : State) : State :=
  if 16 ≤ n ∨ s.faults.failed then s else drainAll n (goBack n 0 (freeReplay n ack s))

/-- HOP_TIMEOUT: 20 µs without an acknowledgement; go back to the oldest frame. -/
def doHopTimeout (n : Nat) (s : State) : State :=
  if 16 ≤ n ∨ (portGet s n).replay = [] then s else goBack n 0 s

/-- ACK_TIMER: 1 µs without a reverse frame to carry LinkAck. -/
def doAckTimer (n : Nat) (s : State) : State :=
  if 16 ≤ n ∨ ¬ (portGet s n).ackDue ∨ s.faults.failed then s else offer n (newFrame s opAck 0) s

/-- RETRAIN_COMPLETE: the port is in service at its new width; frames lost meanwhile are resent. -/
def doRetrainComplete (n : Nat) (s : State) : State :=
  let p := portGet s n
  if 16 ≤ n ∨ p.st ≠ 1 ∨ s.faults.failed then s
  else
    let t := trained p.mode p.bad
    drainAll n (goBack n 0 (portMod n (fun p => { p with
      st := t.1
      width := t.2 }) s))

/-! ### Flow control (R396, R436) -/

/-- Send a flow's unacknowledged frames again, each counted. -/
def resendFlow (k : Nat) (s : State) : State :=
  (txGet s k).unacked.foldl (fun s f => routeFrame f (linkBump 4 s)) s

/-- FLOW_ACK. -/
def doFlowAck (src vc seq : Nat) (s : State) : State :=
  if s.faults.failed then s
  else
    let k := flowKey src vc
    let s := txMod k (fun t => { t with unacked := t.unacked.filter (fun f => !seqLe f.flowSeq seq) }) s
    flowDrain k (txGet s k).stalled.length (mirrorFlowAck src vc seq s)

/-- FLOW_NAK. -/
def doFlowNak (src vc seq : Nat) (s : State) : State :=
  if s.faults.failed then s else resendFlow (flowKey src vc) (doFlowAck src vc seq s)

/-- FLOW_TIMEOUT. -/
def doFlowTimeout (dest vc : Nat) (s : State) : State := if s.faults.failed then s else resendFlow (flowKey dest vc) s

/-- The buddy's watch over its ward starts afresh: a spare has assumed the ward's identity. -/
def wardBack (s : State) : State :=
  setO { s with mirror := { s.mirror with
    store := []
    records := []
    wardTick := none
    probeAt := none
    wardLost := false
    wardLastSeen := false
    spareIx := 0
    wakeNonce := none } } oTakeoverState 0

/-- FLOW_SYNC: the flow's unacknowledged frames are discarded, and both of its directions start at 0 (R436, R439). -/
def doFlowSync (src vc : Nat) (s : State) : State :=
  if s.faults.failed then s
  else
    let k := flowKey src vc
    let s := txMod k (fun t => { t with
      next := 0
      unacked := [] }) s
    let s := rxMod k (fun _ => {}) s
    let s := if s.mirror.wardLost ∧ src = getO s oWardChipId then wardBack s else s
    flowDrain k (txGet s k).stalled.length s

/-! ### LATE (R401) -/

/-- LATE: the deadlines of the group's open instances move out, never in. -/
def doLate (f : LinkFrame) (s : State) : State :=
  let g := f.operand2 % 65536
  let until' := f.operand + bits f.operand2 16 16 + getO s oCollectiveTimeoutTicks
  let s := linkBump 8 s
  { s with links := { s.links with insts := s.links.insts.map (fun (x : CollInst) =>
    if x.group = g then { x with deadline := max x.deadline until' } else x) } }

/-! ### Rights and places (R398) -/

/-- The right a frame needs: a PUT into the cast staging ring needs CAST; a GET of tenant memory has none. -/
def rightOf (s : State) (f : LinkFrame) : Option Nat :=
  if f.opcode = opPut ∧ f.space = 0 ∧ stagingBase s ≤ f.address
      ∧ f.address + f.payload.length ≤ stagingBase s + regionBytes s 10 then some 7
  else if f.opcode = opGet ∧ f.space = 1 then none
  else opRight f.opcode f.space

/-- Whether bytes of a frame's space lie in a place that allows a right. -/
def placeAllowed (s : State) (f : LinkFrame) (bit a n : Nat) : Bool :=
  if f.space = 0 then
    (List.range 16).any (fun k =>
      let w := getS s (oLinkWindow + k)
      decide ((windowSpan w).1 ≤ a ∧ a + n ≤ (windowSpan w).1 + (windowSpan w).2) && bits (byteAt w 16) bit 1 == 1)
  else if f.space = 1 then
    let b := getO s (tkey oPutWindowBase f.tenant)
    decide (b ≤ a ∧ a + n ≤ b + getO s (tkey oPutWindowBytes f.tenant)) && translates s f.tenant a n
  else false

/-- Whether the peer entry of a frame's source grants its right. -/
def peerAllows (s : State) (f : LinkFrame) : Bool := match rightOf s f with
  | some bit => peerRight s f.srcChip bit
  | none => false

/-- Whether both tests of R398 hold for bytes of the frame's space. -/
def remoteAllowed (s : State) (f : LinkFrame) (a n : Nat) : Bool :=
  peerAllows s f && placeAllowed s f ((rightOf s f).getD 0) a n

/-- A frame dropped as denied. -/
def denied (s : State) : State := linkBump 6 s

/-- The empty answer to a request, with Operand2[63] set. -/
def answerDenied (op : Nat) (f : LinkFrame) (s : State) : State :=
  flowSend { newFrame s op f.srcChip with
    operand2 := 2 ^ 63
    tag := f.tag } s

/-- The device address of an aligned target in a frame's space. -/
def targetOf (s : State) (f : LinkFrame) (a : Nat) : Option Nat := if f.space = 1 then translate s f.tenant a else some a

/-! ### PUT and SLOT_PUT (R398) -/

/-- Write bytes in a frame's space. -/
def spaceWrite (f : LinkFrame) (a : Nat) (d : Bytes) (s : State) : State :=
  if f.space = 1 then tenantWrite .normal f.tenant a d s else memWrite .normal a d s

/-- PUT. -/
def doPut (f : LinkFrame) (s : State) : State :=
  if remoteAllowed s f f.address f.payload.length then spaceWrite f f.address f.payload s else denied s

/-- The slots of a SLOT_PUT payload one after another: each is checked and its used bursts are written. -/
def putSlots (f : LinkFrame) (fmt : Fmt) : Nat → Nat → Bytes → State → State
  | 0, _, _, s => s
  | k + 1, i, d, s =>
    let n := slotUsed fmt d
    let u := d.take n
    let s := match slotRead fmt (padTo (slotBytes fmt) u) with
      | .ok _ => if u.length = n then spaceWrite f (f.address + i * slotBytes fmt) u s else bump s oSparseMetaCount
      | .error _ => bump s oSparseMetaCount
    putSlots f fmt k (i + 1) (d.drop n) s

/-- SLOT_PUT. -/
def doSlotPut (f : LinkFrame) (s : State) : State :=
  let fmt : Fmt := if f.operand2 % 2 = 0 then .a8 else .a4
  if remoteAllowed s f f.address (f.operand * slotBytes fmt) then
    putSlots f fmt (min f.operand (f.payload.length / 64)) 0 f.payload s
  else denied s

/-! ### GET (R398) -/

/-- The sectors of an INGOT read: whole sectors of a READY or DEGRADED cast. -/
def ingotBytes (s : State) (ibn n : Nat) : Option Bytes :=
  if ibn % 1024 ≠ 0 ∨ n % 49152 ≠ 0 ∨ n = 0 then none
  else
    let ls := (List.range (n / 49152)).map (fun i => ibn / 1024 + i)
    if ls.all (fun l => match castOfSector s l with
      | some x => let c := castGet s x.1; (c.state == 4 || c.state == 5) && !c.damaged.any (fun m => m.1 == l)
      | none => false) then some ((ls.map (sectorGet s)).flatten)
    else none

/-- The bytes of a change list from an offset, by its SourceDigest. -/
def sourceBytes (s : State) (f : LinkFrame) : Option Bytes :=
  match s.vars.slots.find? (fun e => e.2.changes != [] && vmSource e.2.manifest == f.payload.take 32) with
  | some e => if f.operand < e.2.changes.length then some (e.2.changes.drop f.operand) else none
  | none => none

/-- Whether a GET is allowed. -/
def getAllowed (s : State) (f : LinkFrame) : Bool :=
  if f.space < 2 then remoteAllowed s f f.address f.operand else peerAllows s f

/-- What a GET reads, with the state after the read; none where it cannot be read. -/
def getBytes (f : LinkFrame) (s : State) : Option Bytes × State :=
  if f.space = 2 then (ingotBytes s f.address f.operand, s)
  else if f.space = 3 then (sourceBytes s f, s)
  else match memRead .stream f.address f.operand s with
    | (.ok d, s) => (some d, s)
    | (.error _, s) => (none, s)

/-- GET: answered with GET_DATA frames that carry its Tag. -/
def doGet (f : LinkFrame) (s : State) : State :=
  if ¬ getAllowed s f then answerDenied opGetData f (denied s)
  else match getBytes f s with
    | (some d, s) => sendAll ((cutFrames s opGetData f.srcChip true d).map (fun g => { g with tag := f.tag })) s
    | (none, s) => answerDenied opGetData f (denied s)

/-- GET_DATA: a spare that copies the mirror keeps what it receives; an empty answer to a GET of a DAMAGED sector has the next peer
asked (R273). -/
def doGetData (f : LinkFrame) (s : State) : State :=
  if bits f.operand2 63 1 = 1 ∧ shas s.ingot.asks (f.tag / 1024) then repairDenied f.tag s
  else if s.boot.chip = .waking ∧ getO s oTakeoverState = 2 ∧ ¬ s.mirror.restored ∧ bits f.operand2 63 1 = 0 then
    { s with mirror := { s.mirror with copied := s.mirror.copied ++ [f.payload] } }
  else s

/-! ### REDUCE and its instances (R400, R437) -/

/-- The group and the instance number of a REDUCE. -/
def reduceKey (f : LinkFrame) : Nat × Nat := (f.tag % 65536, bits f.tag 16 32)

/-- The open instance of a key. -/
def instOf (s : State) (k : Nat × Nat) : Option CollInst := s.links.insts.find? (fun x => x.group == k.1 && x.instNo == k.2)

/-- The end of what a member's payload has applied in an instance. -/
def endOf (x : CollInst) (chip : Nat) : Nat := sget 0 x.ends chip

/-- Whether a REDUCE repeats what was applied, or comes for an instance already complete. -/
def reduceOld (s : State) (f : LinkFrame) : Bool :=
  let k := reduceKey f
  (match sfind s.links.lastInst k.1 with
    | some n => decide (k.2 ≤ n)
    | none => false)
  || (match instOf s k with
    | some x => if f.payload = [] then x.lasts.contains f.srcChip
        else decide (f.address + f.payload.length ≤ endOf x f.srcChip)
    | none => false)

/-- Add the part of a payload above an address, burst by burst. -/
def addAbove (f : LinkFrame) (floor : Nat) : Nat → Nat → State → State
  | 0, _, s => s
  | k + 1, i, s =>
    let a := f.address + 64 * i
    let s := if a < floor then s else match targetOf s f a with
      | some d => (atomicOp 5 false d 0 0 (sub f.payload (64 * i) 64) s).2
      | none => s
    addAbove f floor k (i + 1) s

/-- Add 1 to the signal word. -/
def signal (f : LinkFrame) (s : State) : State := match targetOf s f f.operand with
  | some d => (atomicOp 0 false d 1 0 [] s).2
  | none => s

/-- Put an instance among the open ones. -/
def putInst (x : CollInst) (s : State) : State :=
  { s with links := { s.links with
    insts := s.links.insts.filter (fun (y : CollInst) => !(y.group == x.group && y.instNo == x.instNo)) ++ [x] } }

/-- Close a complete instance. -/
def closeInst (x : CollInst) (s : State) : State :=
  { s with links := { s.links with
    insts := s.links.insts.filter (fun (y : CollInst) => !(y.group == x.group && y.instNo == x.instNo))
    lastInst := sput s.links.lastInst x.group x.instNo } }

/-- Whether LAST has come from every other member. -/
def instDone (s : State) (x : CollInst) : Bool :=
  ((groupMembers s x.group).filter (· != getO s oChipId)).all (fun c => x.lasts.contains c)

/-- Apply a REDUCE to its instance. -/
def applyReduce (f : LinkFrame) (x : CollInst) (s : State) : State :=
  let floor := endOf x f.srcChip
  let s := addAbove f floor (fBursts f) 0 s
  let s := if f.signal then signal f s else s
  let x := { x with
    ends := if f.payload = [] then x.ends else sput x.ends f.srcChip (max floor (f.address + f.payload.length))
    lasts := if f.lastFrame ∧ ¬ x.lasts.contains f.srcChip then x.lasts ++ [f.srcChip] else x.lasts }
  if instDone s x then closeInst x s else putInst x s

/-- Whether a REDUCE's targets are aligned and in allowed places. -/
def reduceAllowed (s : State) (f : LinkFrame) : Bool :=
  remoteAllowed s f f.address f.payload.length && decide (f.payload = [] ∨ f.address % 64 = 0)
    && (!f.signal || (remoteAllowed s f f.operand 4 && decide (f.operand % 4 = 0)))

/-- REDUCE_FRAME. At most 256 instances stand open; a frame that would open one more is dropped. -/
def doReduce (f : LinkFrame) (s : State) : State :=
  if ¬ reduceAllowed s f then denied s
  else if reduceOld s f then bump s oCollectiveDupDropCount
  else
    let k := reduceKey f
    match instOf s k with
    | some x => applyReduce f x s
    | none =>
      if 256 ≤ s.links.insts.length then denied s
      else applyReduce f ⟨k.1, k.2, [], [], s.time.tickNo + getO s oCollectiveTimeoutTicks, false⟩ s

/-- COLLECTIVE_TIMEOUT: an open instance is past its deadline; it stays open. -/
def doCollectiveTimeout (g n at' : Nat) (s : State) : State := match instOf s (g, n) with
  | some x =>
    if x.timedOut ∨ s.time.tickNo < x.deadline ∨ ¬ alive s then s
    else putInst { x with timedOut := true } (raiseFault 0x0125 .none 0 none 0 (atT at' s))
  | none => s

/-! ### ATOMIC (R328, R393, R398) -/

/-- Whether an ATOMIC returns a value: SWAP and CAS. -/
def atomicReturns (f : LinkFrame) : Bool := f.operand2 % 8 == 3 || f.operand2 % 8 == 4

/-- An ATOMIC refused: counted, and answered where it returns a value. -/
def atomicDenied (f : LinkFrame) (s : State) : State :=
  if atomicReturns f then answerDenied opAtomicResp f (denied s) else denied s

/-- ATOMIC: of a CAS, Operand is the value compared and Tag the new one. -/
def doAtomicFrame (f : LinkFrame) (s : State) : State :=
  let code := f.operand2 % 8
  if 4 < code ∨ ¬ remoteAllowed s f f.address (atomicWidth code) then atomicDenied f s
  else match targetOf s f f.address with
    | none => atomicDenied f s
    | some a =>
      match atomicOp code false a (if code = 4 then f.tag else f.operand) (if code = 4 then f.operand else 0) [] s with
      | (none, s) => atomicDenied f s
      | (some old, s) =>
        if atomicReturns f then
          flowSend { newFrame s opAtomicResp f.srcChip with
            operand := old
            tag := f.tag } s
        else s

/-- ATOMIC_RESP: the old value comes back to the requester. -/
def doAtomicResp (f : LinkFrame) (s : State) : State := emit (.atomicResult f.operand) s

/-! ### The mirror at the buddy (R50, R399, R427, R431) -/

/-- MIRROR_KV: kept in the mirror store. -/
def doMirrorKv (f : LinkFrame) (s : State) : State :=
  if peerAllows s f then { s with mirror := { s.mirror with store := s.mirror.store ++ [f.payload] } } else denied s

/-- A record frame joins the record it belongs to: offset 0 begins one, and the last 64 stay. -/
def joinRecord (f : LinkFrame) (l : List (Nat × Bytes)) : List (Nat × Bytes) :=
  if f.operand = 0 then (l ++ [(fld f.payload 0 8, f.payload)]).drop (l.length + 1 - 64)
  else match l.getLast? with
    | some r => l.dropLast ++ [(r.1, r.2 ++ f.payload)]
    | none => l

/-- The record complete: cut to its length, the ward's last tick noted, and whether it carries HANDOVER_LAST. -/
def recordDone (ward : Bool) (s : State) : State := match s.mirror.records.getLast? with
  | some r => { s with mirror := { s.mirror with
      records := s.mirror.records.dropLast ++ [(r.1, r.2.take (fld r.2 20 4))]
      wardTick := if ward then some r.1 else s.mirror.wardTick
      wardLastSeen := s.mirror.wardLastSeen || (ward && bits (byteAt r.2 13) 5 1 == 1) } }
  | none => s

/-- MIRROR_RECORD. -/
def doMirrorRecord (f : LinkFrame) (s : State) : State :=
  if ¬ peerAllows s f then denied s
  else
    let s := { s with mirror := { s.mirror with records := joinRecord f s.mirror.records } }
    if f.lastFrame then recordDone (f.srcChip == getO s oWardChipId) s else s

/-! ### NOTICE and the dictionary (R404, R405, R516) -/

/-- NOTICE: handed to the software of the chip. -/
def doNotice (f : LinkFrame) (s : State) : State := emit (.notice f.srcChip (f.operand2 % 2 == 1) f.payload) s

/-- A DICT_RESP: the value, or an abort code with Operand2[63] set. -/
def dictAnswer (f : LinkFrame) (code : Nat) (v : Bytes) (s : State) : State :=
  flowSend { newFrame s opDictResp f.srcChip with
    operand2 := if code = 0 then 0 else code + 2 ^ 63
    tag := f.tag
    payload := toBursts v } s

/-- The key a DICT frame names. -/
def dictKey (f : LinkFrame) : Nat := 256 * (f.operand % 65536) + bits f.operand 16 8

/-- The value a DICT write carries: a payload is whole bursts, so it is cut to what the object's type can hold. -/
def dictValue (f : LinkFrame) : Bytes := match objRow (dictKey f / 256) (dictKey f % 256) with
  | some d => f.payload.take (typeMax d.typ)
  | none => f.payload

/-- A DICT read: a value longer than 4,096 bytes is not reachable. -/
def dictRead (f : LinkFrame) (a : Access) (s : State) : State :=
  match readObject a (dictKey f) (bits f.operand 25 1 == 1) s with
  | (.error e, s) => dictAnswer f e [] (answer e s)
  | (.ok v, s) =>
    if 4096 < v.length then dictAnswer f abTransfer [] (answer abTransfer s)
    else dictAnswer f 0 (v.drop (f.operand2 % 2 ^ 32)) (answer abOk s)

/-- A DICT write: whole, from offset 0. -/
def dictWriteFrame (f : LinkFrame) (a : Access) (s : State) : State :=
  if f.operand2 % 2 ^ 32 ≠ 0 then dictAnswer f abTransfer [] (answer abTransfer s)
  else
    let r := writeObject a (dictKey f) (dictValue f) s
    dictAnswer f r.1 [] (answerWrite r)

/-- A neighbour's access; whether the NV write that it makes fails is a free value, for the frame does not say. -/
def neighbourAccess (f : LinkFrame) (s : State) : Access × State :=
  let d := draw s
  (⟨.neighbour f.srcChip, .neighbour f.srcChip, d.1 % 2 == 1⟩, d.2)

/-- DICT: without the DICT right the frame is denied; else the object is read or written as a neighbour's access. -/
def doDict (f : LinkFrame) (s : State) : State :=
  if ¬ peerAllows s f then dictAnswer f abDenied [] (denied s)
  else
    let x := neighbourAccess f s
    if bits f.operand 24 1 = 1 then dictWriteFrame f x.1 x.2 else dictRead f x.1 x.2

/-- DICT_RESP: the request it answers is closed; any answer of the ward ends the probe of R431. -/
def doDictResp (f : LinkFrame) (s : State) : State :=
  match s.links.gets.find? (fun (x : Nat × Nat) => x.1 == f.tag && x.2 == f.srcChip) with
  | some _ => { s with
      links := { s.links with gets := s.links.gets.filter (fun (x : Nat × Nat) => !(x.1 == f.tag && x.2 == f.srcChip)) }
      mirror := { s.mirror with probeAt := none } }
  | none => s

/-! ### FRAME_RECEIVE (R392 to R397, R405, R532) -/

/-- The effect of an accepted frame at its destination. -/
def frameEffect (f : LinkFrame) (port : Nat) (s : State) : State := match f.opcode with
  | 0x03 => doFlowAck f.srcChip (f.operand2 % 8) (f.operand % 2 ^ 32) s
  | 0x04 => doFlowNak f.srcChip (f.operand2 % 8) (f.operand % 2 ^ 32) s
  | 0x05 => doFlowSync f.srcChip (f.operand2 % 8) s
  | 0x08 => doLate f s
  | 0x09 => doWake f port s
  | 0x10 => doPut f s
  | 0x11 => doSlotPut f s
  | 0x12 => doGet f s
  | 0x13 => doGetData f s
  | 0x14 => doReduce f s
  | 0x15 => doAtomicFrame f s
  | 0x16 => doAtomicResp f s
  | 0x18 => doMirrorKv f s
  | 0x19 => doMirrorRecord f s
  | 0x1A => doNotice f s
  | 0x1B => doDict f s
  | 0x1C => doDictResp f s
  | _ => s

/-- One NAK for a run of frames that are not the expected one. -/
def nakOnce (n : Nat) (s : State) : State :=
  if (portGet s n).nakSent then s
  else offer n (newFrame s opNak 0) (portMod n (fun p => { p with nakSent := true }) s)

/-- The credits that a received frame has taken are owed to the other end. -/
def oweCredit (n : Nat) (f : LinkFrame) (s : State) : State :=
  if hopFrame f then s else portMod n (fun p => { p with owed := updNth p.owed f.vc (· + frameCost f), ackDue := true }) s

/-- FLOW_ACK or FLOW_NAK to the source of a flow, naming the last FlowSeq accepted. -/
def flowAnswer (op : Nat) (f : LinkFrame) (last : Nat) (s : State) : State :=
  routeFrame { newFrame s op f.srcChip with
    operand := last
    operand2 := f.vc } s

/-- A sequenced frame at its destination: the next one of its flow is applied and acknowledged, a duplicate is dropped and
counted, an early one is answered with one FLOW_NAK for its run. -/
def flowAccept (f : LinkFrame) (port : Nat) (s : State) : State :=
  let k := flowKey f.srcChip f.vc
  let x := rxGet s k
  if f.flowSeq = x.next then
    let s := rxMod k (fun _ => ⟨(x.next + 1) % 2 ^ 32, false⟩) s
    flowAnswer opFlowAck f f.flowSeq (frameEffect f port s)
  else if seqLe f.flowSeq x.next then linkBump 3 s
  else if x.nakSent then s
  else flowAnswer opFlowNak f ((x.next + 2 ^ 32 - 1) % 2 ^ 32) (rxMod k (fun x => { x with nakSent := true }) s)

/-- The ACK of a WAKE at the buddy: the spare it woke has answered with its nonce (R406, R433). -/
def wakeAck (f : LinkFrame) (s : State) : State :=
  if s.mirror.wakeNonce = some f.operand ∧ (spareList s)[s.mirror.spareIx]? = some f.srcChip then
    { s with mirror := { s.mirror with wakeNonce := none } }
  else s

/-- Pass a frame on towards its destination. -/
def forward (f : LinkFrame) (s : State) : State :=
  if f.hops = 0 then s else routeFrame { f with hops := f.hops - 1 } s

/-- What a port in LISTEN takes (R405). -/
def listenTakes (s : State) (f : LinkFrame) : Bool :=
  f.destChip == getO s oChipId && (f.opcode < 0x10 || f.opcode == opDict)

/-- A frame that the hop has accepted: for this chip, for another, or dropped. -/
def hopAccepted (f : LinkFrame) (port : Nat) (s : State) : State :=
  if opVc f.opcode ≠ some f.vc then denied s
  else if getO s oChipId = 0xFFFF then denied s
  else if (portGet s port).st = 4 ∧ ¬ listenTakes s f then s
  else if f.destChip ≠ getO s oChipId then forward f s
  else if ¬ opSequenced f.opcode then frameEffect f port s
  else if s.mirror.wardLost ∧ f.srcChip = getO s oWardChipId then s
  else flowAccept f port s

/-- An ACK or NAK frame, after its LinkAck and credits have been taken. An ACK that echoes a WAKE's nonce is for the chip
it names. -/
def hopControl (f : LinkFrame) (port : Nat) (s : State) : State :=
  if f.opcode = opNak then drainAll port (goBack port 0 s)
  else if f.operand = 0 then s
  else if f.destChip = getO s oChipId then wakeAck f s
  else forward f s

/-- A frame with good CRCs at a port. -/
def frameArrives (f : LinkFrame) (n : Nat) (s : State) : State :=
  let s := drainAll n (giveCredit n f.creditVc f.creditBursts (freeReplay n f.linkAck s))
  if hopFrame f then hopControl f n s
  else if opSequenced f.opcode then
    if f.linkSeq = (portGet s n).rxSeq then
      hopAccepted f n (oweCredit n f (portMod n (fun p => { p with
        rxSeq := (p.rxSeq + 1) % 4096
        nakSent := false }) s))
    else nakOnce n s
  else hopAccepted f n (oweCredit n f s)

/-- FRAME_RECEIVE: the bytes of a frame at a port. -/
def doFrameReceive (n : Nat) (raw : Bytes) (at' : Nat) (s : State) : State :=
  let p := portGet s n
  if 16 ≤ n ∨ p.mode ≠ 1 ∨ ¬ (2 ≤ p.st ∧ p.st ≤ 4) ∨ s.faults.failed then s
  else
    let s := atT at' s
    match frameDecode raw with
    | some f => frameArrives f n s
    | none => nakOnce n (linkBump 1 s)

/-! ### Ethernet ingest (R402, R403) -/

/-- Whether an IPv6 address lies in a prefix. -/
def inPrefix (src pre : Bytes) (len : Nat) : Bool :=
  len ≤ 128 && beNat (padTo 16 src) / 2 ^ (128 - len) == beNat (padTo 16 pre) / 2 ^ (128 - len)

/-- Whether an ingest header and the length of its datagram hold (R402). -/
def ingestHeadOk (b : Bytes) : Bool :=
  32 ≤ b.length && byteAt b 0 < 64 && 1 ≤ byteAt b 1 && byteAt b 1 ≤ 136 && b.length == 32 + 64 * byteAt b 1
    && crcOk (b.take 32) && allZero (sub b 2 2) && allZero (sub b 12 18)

/-- The bursts of a datagram. -/
def ingestBursts (b : Bytes) : List Bytes := (List.range (byteAt b 1)).map (fun i => sub b (32 + 64 * i) 64)

/-- Whether a datagram passes every check of its channel (R403). -/
def ingestOk (s : State) (d : Datagram) : Bool :=
  let b := d.payload
  let c := getS s (oIngestChannel + byteAt b 0)
  ingestHeadOk b && byteAt c 2 == 1 && inPrefix d.source (sub c 32 16) (byteAt c 3)
    && decide (fld b 8 4 + byteAt b 1 ≤ fld c 16 4) && (ingestBursts b).all crcOk
    && translates s (fld c 0 2) (fld c 8 8 + 64 * fld b 8 4) (64 * byteAt b 1) && translates s (fld c 0 2) (fld c 24 8) 4

/-- Whether a port takes ingest datagrams. -/
def ingestPort (s : State) (n : Nat) : Bool :=
  let p := portGet s n
  n < 16 && (p.mode == 2 || p.mode == 3) && (p.st == 2 || p.st == 3)

/-- A Sequence other than the previous one plus one is counted. -/
def ingestGap (ch seq : Nat) (s : State) : State :=
  let s' := { s with links := { s.links with ingestSeq := sput s.links.ingestSeq ch seq } }
  match sfind s.links.ingestSeq ch with
  | some p => if seq = (p + 1) % 2 ^ 32 then s' else linkBump 11 s'
  | none => s'

/-- INGEST_DATAGRAM: written to its channel's buffer, then the counter is added to. -/
def doIngest (d : Datagram) (s : State) : State :=
  if ¬ ingestPort s d.port ∨ d.udpPort ≠ getO s oIngestUdpPort ∨ s.faults.failed then s
  else if ¬ ingestOk s d then linkBump 10 s
  else
    let b := d.payload
    let ch := byteAt b 0
    let c := getS s (oIngestChannel + ch)
    let t := fld c 0 2
    let s := tenantWrite .normal t (fld c 8 8 + 64 * fld b 8 4) (b.drop 32) s
    let s := match translate s t (fld c 24 8) with
      | some a => (atomicOp 0 false a (byteAt b 1) 0 [] s).2
      | none => s
    linkBump 9 (ingestGap ch (fld b 4 4) s)

/-! ### The commands -/

/-- LANE_BAD. -/
def execLaneBad (port : Nat) (b : BadLane) (t : Nat) (s : State) : Host.Outcome State Fault Refusal :=
  .next (doLaneBad port b.lane b.cause t s)

/-- RETRAIN_COMPLETE. -/
def execRetrainComplete (port : Nat) (s : State) : Host.Outcome State Fault Refusal := .next (doRetrainComplete port s)

/-- ACK. -/
def execAck (port linkAck vc bursts : Nat) (s : State) : Host.Outcome State Fault Refusal := .next (doAck port linkAck vc bursts s)

/-- NAK. -/
def execNak (port linkAck : Nat) (s : State) : Host.Outcome State Fault Refusal := .next (doNak port linkAck s)

/-- HOP_TIMEOUT. -/
def execHopTimeout (port : Nat) (s : State) : Host.Outcome State Fault Refusal := .next (doHopTimeout port s)

/-- ACK_TIMER. -/
def execAckTimer (port : Nat) (s : State) : Host.Outcome State Fault Refusal := .next (doAckTimer port s)

/-- FLOW_ACK. -/
def execFlowAck (src vc seq : Nat) (s : State) : Host.Outcome State Fault Refusal := .next (doFlowAck src vc seq s)

/-- FLOW_NAK. -/
def execFlowNak (src vc seq : Nat) (s : State) : Host.Outcome State Fault Refusal := .next (doFlowNak src vc seq s)

/-- FLOW_TIMEOUT. -/
def execFlowTimeout (dest vc : Nat) (s : State) : Host.Outcome State Fault Refusal := .next (doFlowTimeout dest vc s)

/-- FLOW_SYNC: its Operand is 0 in every FLOW_SYNC that R436 sends. -/
def execFlowSync (src vc _seq : Nat) (s : State) : Host.Outcome State Fault Refusal := .next (doFlowSync src vc s)

/-- FRAME_RECEIVE. -/
def execFrameReceive (port : Nat) (raw : Bytes) (t : Nat) (s : State) : Host.Outcome State Fault Refusal :=
  .next (doFrameReceive port raw t s)

/-- LATE. -/
def execLate (f : LinkFrame) (s : State) : Host.Outcome State Fault Refusal := .next (doLate f s)

/-- PUT. -/
def execPut (f : LinkFrame) (s : State) : Host.Outcome State Fault Refusal := .next (doPut f s)

/-- SLOT_PUT. -/
def execSlotPut (f : LinkFrame) (s : State) : Host.Outcome State Fault Refusal := .next (doSlotPut f s)

/-- GET. -/
def execGet (f : LinkFrame) (s : State) : Host.Outcome State Fault Refusal := .next (doGet f s)

/-- GET_DATA. -/
def execGetData (f : LinkFrame) (s : State) : Host.Outcome State Fault Refusal := .next (doGetData f s)

/-- REDUCE_FRAME. -/
def execReduceFrame (f : LinkFrame) (s : State) : Host.Outcome State Fault Refusal := .next (doReduce f s)

/-- ATOMIC. -/
def execAtomic (f : LinkFrame) (s : State) : Host.Outcome State Fault Refusal := .next (doAtomicFrame f s)

/-- ATOMIC_RESP. -/
def execAtomicResp (f : LinkFrame) (s : State) : Host.Outcome State Fault Refusal := .next (doAtomicResp f s)

/-- MIRROR_KV. -/
def execMirrorKv (f : LinkFrame) (s : State) : Host.Outcome State Fault Refusal := .next (doMirrorKv f s)

/-- MIRROR_RECORD. -/
def execMirrorRecord (f : LinkFrame) (s : State) : Host.Outcome State Fault Refusal := .next (doMirrorRecord f s)

/-- NOTICE. -/
def execNotice (f : LinkFrame) (s : State) : Host.Outcome State Fault Refusal := .next (doNotice f s)

/-- DICT. -/
def execDict (f : LinkFrame) (s : State) : Host.Outcome State Fault Refusal := .next (doDict f s)

/-- DICT_RESP. -/
def execDictResp (f : LinkFrame) (s : State) : Host.Outcome State Fault Refusal := .next (doDictResp f s)

/-- COLLECTIVE_TIMEOUT. -/
def execCollectiveTimeout (g n t : Nat) (s : State) : Host.Outcome State Fault Refusal := .next (doCollectiveTimeout g n t s)

/-- INGEST_DATAGRAM. -/
def execIngestDatagram (d : Datagram) (s : State) : Host.Outcome State Fault Refusal := .next (doIngest d s)

end Sys2Proof.Machine
end

