-- ==== Sys2Proof/Machine/Tick.lean ====
section
/-! DEFINITION. TICK_BOUNDARY: the order of R41 with all that happens at a boundary (R18 to R22, R41 to R51, R88, R130 to R132,
R159, R208 to R224, R268, R272, R298 to R302, R352 to R359, R381, R382, R401, R424, R433, R446, R490, R506, R521, R534). -/

namespace Sys2Proof.Machine

open Sys2Proof

/-! ### Step 1: the commit set -/

/-- Tenant resets due at this boundary. -/
def dueResets (s : State) : List Nat :=
  ((s.dict.pending.filter (dueNow s)).filter (fun p => 0x6000 ≤ p.key / 256 && p.key / 256 ≤ 0x63FF
    && p.key % 256 == 0x0F && leNat p.value == 1)).map (fun p => p.key / 256 - 0x6000)

/-- Whether the mirror message of a tick still waits for its acknowledgement. -/
def unmirrored (s : State) (tick : Nat) : Bool := s.mirror.wait.any (fun w => w.1 == tick)

/-- Release the commit set of the tick that ends, or hold it with MIRROR_LATE while the buddy has not acknowledged (R50,
R51). -/
def releaseOrHold (tick : Nat) (s : State) : State :=
  let set := s.sched.commitSet
  let s := if unmirrored s tick then
      recFlag 1 { s with sched := { s.sched with held := s.sched.held ++ [(tick, set)] } }
    else releaseSet tick set s
  { s with sched := { s.sched with commitSet := [] } }

/-- The requests of the commit set that R355 does not hold. -/
def readyIds (s : State) : List Nat := (releasedOf s s.sched.commitSet).map (fun (x : Nat × Request) => x.1)

/-- The requests that stand in a commit set, this one or one held for the mirror. -/
def committedIds (s : State) : List Nat := (s.sched.held.map (fun (x : Nat × List Nat) => x.2)).flatten ++ readyIds s

/-- The RUN requests whose tokens the boundary of a tick releases. -/
def tokenIds (s : State) (tick : Nat) : List Nat :=
  if unmirrored s tick ∨ ¬ alive s then []
  else ((releasedOf s s.sched.commitSet).filter (fun (x : Nat × Request) => withResults x.2)).map (fun (x : Nat × Request) => x.1)

/-- SpecOffLeft falls by one (R223). -/
def specCount (s : State) : State :=
  { s with kv := { s.kv with ctxs := smapAll s.kv.ctxs (fun _ c => { c with specOffLeft := c.specOffLeft - 1 }) } }

/-- Step 1 of R41, with the tenant resets of R359 and the deadlines of R382. -/
def commitStep (tick : Nat) (s : State) : State :=
  if ¬ alive s then { s with sched := { s.sched with commitSet := [] } }
  else
    let s := specCount s
    let s := (dueResets s).foldl (fun s t => resetTenant tick t s) s
    let ids := committedIds s
    let s := releaseOrHold tick s
    let s := (s.sched.tenants.map (·.1)).foldl (fun s t => drainTail tick t s) s
    missDeadlines tick ids s

/-- The statistics snapshots asked for, copied after step 1 (R521). -/
def snapshots (tick : Nat) (s : State) : State :=
  let due := (s.dict.pending.filter (dueNow s)).filter (fun p => p.key == oStatsSnapshotRequest && leNat p.value == 1)
  due.foldl (fun s p => ctxMod p.ctx (fun c => { c with snap := some (statsBytes s tick) }) s) s

/-! ### Step 2: generations, and the storage maps that switch at a boundary -/

/-- Free what no request pins; switch refreshed and repaired sectors and the Sieve assignment (R268, R272, R300, R422). -/
def freeStep (s : State) : State := switchSieves (switchRemaps (freeVars (freeCasts s)))

/-! ### Step 4: re-pins, precision, prediction, limits -/

/-- A FOLLOW_PIN entry. -/
def followEntry (i oldC newC oldV newV seq : Nat) : Bytes :=
  entry 0x09 (natLe 2 i ++ natLe 1 oldC ++ natLe 1 newC ++ natLe 4 (oldV + 1024 * newV) ++ natLe 8 seq)

/-- Whether the pair that a request's pointers now name matches (R301). -/
def pairMatches (s : State) (c : Nat) (v : Option Nat) : Bool := match v with
  | some v => mRoot (varGet s v).manifest == mRoot (castGet s c).manifest
  | none => true

/-- Move a request's pins. -/
def rePin (i : Nat) (r : Request) (c : Nat) (v : Option Nat) (s : State) : State :=
  let s := castMod c (fun k => { k with pins := k.pins + 1 }) (castMod r.cast (fun k => { k with pins := k.pins - 1 }) s)
  let s := match r.var with
    | some o => varMod o (fun k => { k with pins := k.pins - 1 }) s
    | none => s
  let s := match v with
    | some n => varMod n (fun k => { k with pins := k.pins + 1 }) s
    | none => s
  let seq := (((namedCtxs r).head?).bind (fun x => (kvCtx s x).map (·.tokenSeq))).getD 0
  let s := addEntry (followEntry i r.cast c (r.var.getD 0x3FF) (v.getD 0x3FF) seq) s
  bump (reqMod i (fun r => { r with
    cast := c
    var := v
    repinned := true }) s) oFollowRepinCount

/-- A request under the follow policy that has committed a token, carries no step and still stands is re-pinned to a new
pair that matches (R301). -/
def followPin (s : State) (i : Nat) : State := match reqGet s i with
  | none => s
  | some r =>
    let v := reqVar s r.desc
    match reqCast s r.desc with
    | none => s
    | some c =>
      if ¬ dFollow r.desc ∨ r.late ∨ (c = r.cast ∧ v = r.var) ∨ ¬ pairMatches s c v then s else rePin i r c v s

/-- PRECISION_DISTRESS of a tracker in the tick (R131). -/
def trackerDistress (t : Tracker) : Bool := t.sat || decide (t.a8Limit * t.total < t.unsafeA8 * 10000)

/-- The format of a step for the next tick (R130); a fixed step shows its own. -/
def nextChoice (t : Tracker) : Fmt :=
  if ¬ t.adaptive then t.fixed
  else if t.total = 0 then t.choice
  else if t.unsafeA4 * 10000 < t.a4Limit * t.total then .a4
  else .a8

/-- A tracker at the start of a tick. -/
def nextTracker (t : Tracker) : Tracker :=
  { t with
    total := 0
    unsafeA4 := 0
    unsafeA8 := 0
    least := none
    eref := t.least.getD t.eref
    choice := nextChoice t
    sat := false
    ran := false
    ranA4 := false
    noSummary := false }

/-- A PRECISION entry (R132). -/
def precisionEntry (ref : Nat) (t : Tracker) : Bytes :=
  entry 0x02 (natLe 4 ref ++ natLe 1 (if nextChoice t = .a4 then 1 else 0) ++ natLe 1 (if trackerDistress t then 1 else 0)
    ++ [i8 (t.least.getD t.eref)] ++ [0] ++ natLe 4 t.total ++ natLe 4 t.unsafeA4 ++ natLe 4 t.unsafeA8 ++ zeros 4)

/-- One tracker's part of the boundary: its entry and its counts. -/
def precisionOf (s : State) (x : Nat × Tracker) : State :=
  let t := x.2
  let s := if t.ran ∧ (t.adaptive ∨ t.noSummary) then addEntry (precisionEntry x.1 t) s else s
  let s := if trackerDistress t then bump s oPrecisionDistressCount else s
  if t.adaptive ∧ t.ranA4 then bump s oAdaptiveA4StepTicks else s

/-- The precision choices, and the trackers started again (R88, R130 to R132). -/
def precisionStep (s : State) : State :=
  let ts := s.sched.trackers
  let s := ts.foldl precisionOf s
  { s with sched := { s.sched with trackers := smapAll ts (fun _ t => nextTracker t) } }

/-- Whether a gated step's make-up blocks exceed the limit (R159). -/
def gateMisses (s : State) (g : GateSt) : Bool := decide (getO s oGateMissLimitBp * g.active < g.makeUp * 10000)

/-- The gate predictor's check of one step. -/
def nextGate (s : State) (g : GateSt) : GateSt :=
  if g.off then ⟨0, 0, true, g.offLeft - 1⟩
  else if gateMisses s g then ⟨0, 0, true, getO s oGateOffTicks⟩
  else ⟨0, 0, false, 0⟩

/-- The gate predictor's check of the tick (R159). -/
def gateStep (s : State) : State :=
  let n := (s.sched.gates.filter (fun (e : Nat × GateSt) => !e.2.off && gateMisses s e.2)).length
  let s := addO s oGateOffCount n
  { s with sched := { s.sched with gates := smapAll s.sched.gates (fun _ g => nextGate s g) } }

/-- Boundaries in a row at which each stack stands CRITICAL (R411). -/
def criticalStep (s : State) : State :=
  { s with faults := { s.faults with criticalTicks := (List.range 12).foldl (fun (m : SMap Nat) k =>
    if stackState s k = 3 then supd 0 m k (· + 1) else sdel m k) s.faults.criticalTicks } }

/-- The issue limits, from the values of the check mark; readings after it count from now on. -/
def limitStep (s : State) : State :=
  let s := mergeSamples (boundaryLimits s)
  { s with power := { s.power with dieTemp := hottest s 24 24 } }

/-- The RECAST entries due (R424). -/
def recastStep (s : State) : State :=
  s.faults.recastDue.foldl (fun s e => addEntry e s) { s with faults := { s.faults with recastDue := [] } }

/-! ### Step 5: the next tick -/

/-- The loads that the next tick starts with: each Griddle carries its recorded cost (R381); nothing is staged or held. -/
def loadStep (s : State) : State :=
  { s with sched := { s.sched with
    load := s.sched.carry
    staged := 0
    sieveLoad := List.replicate 36 0
    seq := 0
    headersRead := false
    lateHeld := []
    reqs := s.sched.reqs.map (fun (e : Nat × Request) => (e.1, { e.2 with units := e.2.units.map (fun (u : UnitSt) =>
      if u.phase = .held then { u with phase := .ready } else u) })) } }

/-- Whether admission is open (R480, R534): ServeEnable is 1 on an owned part; the first window waits for a locked source
or the leave to admit while FREE. -/
def serveStep (s : State) : State :=
  let on := getO s oServeEnable == 1 && s.sec.ownerKey.isSome
    && (s.sched.serving || getO s oTickSourceState == 2 || bits (getO s oTickSourceMask) 2 1 == 1)
  { s with sched := { s.sched with serving := on } }

/-- Boundaries in a row without a step in flight (R470). -/
def idleStep (s : State) : State :=
  { s with boot := { s.boot with
    idleBoundaries := if inFlight s then 0 else s.boot.idleBoundaries + 1 } }

/-- Partners of open collectives are told again while a critical trip lasts (R401, R446). -/
def lateStep (s : State) : State :=
  if ¬ alive s ∨ ¬ s.power.critical.any (fun b => b) then s
  else sendLate (match reportedReason s with
    | some r => lateCause r
    | none => 4) 1 s

/-- Writes accepted after the check mark wait for the boundary that ends the tick now begun. -/
def renumber (s : State) : State :=
  let due := (s.time.tickNo + 1) % 2 ^ 64
  { s with dict := { s.dict with pending := s.dict.pending.map (fun (p : Pending) => { p with due := due }) } }

/-- The attestation reports asked for, formed from the state at the boundary (R490). -/
def reports (due : List Pending) (s : State) : State :=
  due.foldl (fun s p => formReport s.time.tickNo p.ctx p.value s) s

/-- Device time reaches the boundary, and the record of a tick entered late is sealed (R50); it is not sent to the buddy (log 96). -/
def reachBoundary (s : State) : State :=
  let s := { s with time := { s.time with now := max s.time.now (nextBoundary s) } }
  sealRecord s

/-- Steps 3 and 4 of R41, with the requests whose tokens step 1 has released. -/
def applyStep (tokens : List Nat) (s : State) : State :=
  let l := duePointers s
  let s := tokens.foldl followPin (switchPointers l (applyWrites s))
  limitStep (criticalStep (gateStep (precisionStep s)))

/-- Step 5 of R41: the grid moves on, by a regrid or a placement where one is due. -/
def tickStep (s : State) : State := switchSource (placeIfDue (nextTick (regrid s)))

/-- The start of the new tick. -/
def beginTick (s : State) : State :=
  let s := serveStep (idleStep (loadStep (renumber s)))
  askRepairs (replayBoundary (divergeStep (lateStep (syncPulses (openRecord (recastStep s))))))

/-- A boundary while the main domains are held in reset (R451, R467): the Pilot's grid and the SYNC pins go on, and nothing
else does. -/
def heldBoundary (s : State) : State :=
  syncPulses (tickStep { s with time := { s.time with now := max s.time.now (nextBoundary s) } })

/-- TICK_BOUNDARY (R41): enabled once the check mark of the tick in progress has passed. -/
def doTickBoundary (s : State) : State :=
  if ¬ s.boot.porstN ∨ s.time.phase ≠ .sealed then s
  else if s.boot.chip = .tripped then heldBoundary s
  else
    let s := reachBoundary s
    let tick := s.time.tickNo
    let nonces := (s.dict.pending.filter (dueNow s)).filter (fun p => p.key == oAttestNonce)
    let tokens := tokenIds s tick
    let s := snapshots ((tick + 1) % 2 ^ 64) (commitStep tick s)
    reports nonces (beginTick (tickStep (applyStep tokens (freeStep s))))

/-- TICK_BOUNDARY. -/
def execTickBoundary (s : State) : Host.Outcome State Fault Refusal := .next (doTickBoundary s)

end Sys2Proof.Machine
end

