-- ==== Sys2Proof/Machine/Whisk.lean ====
section
/-! DEFINITION. The Whisk's instructions as commands: one instruction on one frame of a Whisk, or on the frames of its row
where the instruction's scope is the row (R161 to R189, R192, R193, R195). -/

namespace Sys2Proof.Machine

open Sys2Proof

/-- Whether a command names a Whisk and a frame that exist, on a part that runs. -/
def whiskAt (s : State) (w : WhiskAt) : Bool := alive s && decide (w.whisk < 68) && decide (w.frame < 16)

/-- The frames that hold blocks of the same row as a frame, by their part, with their numbers. -/
def rowFrames (k : Whisk) (f : Nat) : List (Nat × Frame) :=
  let fr := sget Frame.idle k.frames f
  (k.frames.filter (fun e => e.2.row == fr.row && e.2.position == fr.position && e.2.key == fr.key)).mergeSort (fun a b =>
    a.2.part ≤ b.2.part)

/-- One instruction on one frame (R168): lane work on the frame; a RED of ROW scope goes on with its row's slot, which all
frames of the row share; SPLIT and SOFTMAX of ROW scope work on every frame of the row. -/
def whiskOne (w : WhiskAt) (i : Instr) (k : Whisk) : Whisk :=
  let fr := sget Frame.idle k.frames w.frame
  let row := rowFrames k w.frame
  let put := fun (fs : List (Nat × Frame)) (st : WStat) =>
    { k with frames := fs.foldl (fun m x => sput m x.1 x.2) k.frames, status := k.status.or st }
  let all := fun (_ : Unit) =>
    let r := whiskRow k.env i (row.map (·.2))
    put ((row.map (·.1)).zip r.1) r.2
  match i with
  | .split _ => all ()
  | .softmax _ _ _ .row => all ()
  | .softmax _ _ _ .block =>
    let r := whiskRow k.env i [fr]
    put [(w.frame, r.1.headD fr)] r.2
  | _ => match whiskRed i with
    | some (_, op, slot, a, scope) =>
      let r := opRed w op slot a scope fr
      (match scope with
        | .block => put [(w.frame, r.1)] r.2
        | .row =>
          let x := nth {} r.1.slots slot.val
          put ((w.frame, r.1) :: row.map (fun f => (f.1, (shareSlot slot x [f.2]).headD f.2))) r.2)
    | none => match whiskLane k.env i with
      | some f => put [(w.frame, (f fr).1)] (f fr).2
      | none => k

/-- Whether the checks of R192 find an instruction's frames wrong: of its own frame, or of the row's where its scope is the row. -/
def whiskBad (w : WhiskAt) (i : Instr) (k : Whisk) : Bool :=
  let row := (rowFrames k w.frame).map (·.2)
  let frs := match i with
    | .softmax _ _ _ .row => row
    | _ => [sget Frame.idle k.frames w.frame]
  (whiskCheck k.env i frs).check

/-- WHISK_CHECK against the step whose tile drains through a Whisk (R193). -/
def whiskFail (n : Nat) (s : State) : State := match (logicalOf s n).bind (latchGet s) with
  | some t => stepFaultReplay 0x0111 .whisk n t.request t.step 0 s
  | none => s

/-- A Whisk instruction on the machine. A failed check withholds the step and replays it (R193). -/
def whiskDo (w : WhiskAt) (i : Instr) (s : State) : State :=
  if whiskAt s w then
    let bad := whiskBad w i (sget {} s.engine.whisks w.whisk)
    let s := whiskMod w.whisk (whiskOne w i) s
    if bad then whiskFail w.whisk s else s
  else s

/-- NOP. -/
def execNop (w : WhiskAt) (s : State) : Host.Outcome State Fault Refusal :=
  .next (whiskDo w (.nop w) s)

/-- MOV. -/
def execMov (w : WhiskAt) (d a : Fin 16) (s : State) : Host.Outcome State Fault Refusal :=
  .next (whiskDo w (.mov w d a) s)

/-- CON. -/
def execCon (w : WhiskAt) (d k : Fin 16) (s : State) : Host.Outcome State Fault Refusal :=
  .next (whiskDo w (.con w d k) s)

/-- IDX. -/
def execIdx (w : WhiskAt) (d : Fin 16) (src : IdxSource) (s : State) : Host.Outcome State Fault Refusal :=
  .next (whiskDo w (.idx w d src) s)

/-- SEL. -/
def execSel (w : WhiskAt) (d a b : Fin 16) (m : Fin 4) (s : State) : Host.Outcome State Fault Refusal :=
  .next (whiskDo w (.sel w d a b m) s)

/-- IADD. -/
def execIadd (w : WhiskAt) (d a b : Fin 16) (s : State) : Host.Outcome State Fault Refusal :=
  .next (whiskDo w (.iadd w d a b) s)

/-- ISUB. -/
def execIsub (w : WhiskAt) (d a b : Fin 16) (s : State) : Host.Outcome State Fault Refusal :=
  .next (whiskDo w (.isub w d a b) s)

/-- INEG. -/
def execIneg (w : WhiskAt) (d a : Fin 16) (s : State) : Host.Outcome State Fault Refusal :=
  .next (whiskDo w (.ineg w d a) s)

/-- IABS. -/
def execIabs (w : WhiskAt) (d a : Fin 16) (s : State) : Host.Outcome State Fault Refusal :=
  .next (whiskDo w (.iabs w d a) s)

/-- IMIN. -/
def execImin (w : WhiskAt) (d a b : Fin 16) (s : State) : Host.Outcome State Fault Refusal :=
  .next (whiskDo w (.imin w d a b) s)

/-- IMAX. -/
def execImax (w : WhiskAt) (d a b : Fin 16) (s : State) : Host.Outcome State Fault Refusal :=
  .next (whiskDo w (.imax w d a b) s)

/-- SHL. -/
def execShl (w : WhiskAt) (d a : Fin 16) (n : ShiftBy) (s : State) : Host.Outcome State Fault Refusal :=
  .next (whiskDo w (.shl w d a n) s)

/-- SHR. -/
def execShr (w : WhiskAt) (d a : Fin 16) (n : ShiftBy) (s : State) : Host.Outcome State Fault Refusal :=
  .next (whiskDo w (.shr w d a n) s)

/-- SHRU. -/
def execShru (w : WhiskAt) (d a : Fin 16) (n : ShiftBy) (s : State) : Host.Outcome State Fault Refusal :=
  .next (whiskDo w (.shru w d a n) s)

/-- AND. -/
def execAnd (w : WhiskAt) (d a b : Fin 16) (s : State) : Host.Outcome State Fault Refusal :=
  .next (whiskDo w (.and w d a b) s)

/-- OR. -/
def execOr (w : WhiskAt) (d a b : Fin 16) (s : State) : Host.Outcome State Fault Refusal :=
  .next (whiskDo w (.or w d a b) s)

/-- XOR. -/
def execXor (w : WhiskAt) (d a b : Fin 16) (s : State) : Host.Outcome State Fault Refusal :=
  .next (whiskDo w (.xor w d a b) s)

/-- ICLT. -/
def execIclt (w : WhiskAt) (m : Fin 4) (a b : Fin 16) (s : State) : Host.Outcome State Fault Refusal :=
  .next (whiskDo w (.iclt w m a b) s)

/-- ICEQ. -/
def execIceq (w : WhiskAt) (m : Fin 4) (a b : Fin 16) (s : State) : Host.Outcome State Fault Refusal :=
  .next (whiskDo w (.iceq w m a b) s)

/-- INZ. -/
def execInz (w : WhiskAt) (m : Fin 4) (a : Fin 16) (s : State) : Host.Outcome State Fault Refusal :=
  .next (whiskDo w (.inz w m a) s)

/-- LADD. -/
def execLadd (w : WhiskAt) (d a b : Fin 16) (s : State) : Host.Outcome State Fault Refusal :=
  .next (whiskDo w (.ladd w d a b) s)

/-- LSUB. -/
def execLsub (w : WhiskAt) (d a b : Fin 16) (s : State) : Host.Outcome State Fault Refusal :=
  .next (whiskDo w (.lsub w d a b) s)

/-- LMUL. -/
def execLmul (w : WhiskAt) (d a b : Fin 16) (s : State) : Host.Outcome State Fault Refusal :=
  .next (whiskDo w (.lmul w d a b) s)

/-- LDIV. -/
def execLdiv (w : WhiskAt) (d a b : Fin 16) (s : State) : Host.Outcome State Fault Refusal :=
  .next (whiskDo w (.ldiv w d a b) s)

/-- LNEG. -/
def execLneg (w : WhiskAt) (d a : Fin 16) (s : State) : Host.Outcome State Fault Refusal :=
  .next (whiskDo w (.lneg w d a) s)

/-- LABS. -/
def execLabs (w : WhiskAt) (d a : Fin 16) (s : State) : Host.Outcome State Fault Refusal :=
  .next (whiskDo w (.labs w d a) s)

/-- LMAX. -/
def execLmax (w : WhiskAt) (d a b : Fin 16) (s : State) : Host.Outcome State Fault Refusal :=
  .next (whiskDo w (.lmax w d a b) s)

/-- LMIN. -/
def execLmin (w : WhiskAt) (d a b : Fin 16) (s : State) : Host.Outcome State Fault Refusal :=
  .next (whiskDo w (.lmin w d a b) s)

/-- LSCL. -/
def execLscl (w : WhiskAt) (d a : Fin 16) (imm : BitVec 10) (s : State) : Host.Outcome State Fault Refusal :=
  .next (whiskDo w (.lscl w d a imm) s)

/-- LEXP. -/
def execLexp (w : WhiskAt) (d a : Fin 16) (s : State) : Host.Outcome State Fault Refusal :=
  .next (whiskDo w (.lexp w d a) s)

/-- LCLT. -/
def execLclt (w : WhiskAt) (m : Fin 4) (a b : Fin 16) (s : State) : Host.Outcome State Fault Refusal :=
  .next (whiskDo w (.lclt w m a b) s)

/-- LCEQ. -/
def execLceq (w : WhiskAt) (m : Fin 4) (a b : Fin 16) (s : State) : Host.Outcome State Fault Refusal :=
  .next (whiskDo w (.lceq w m a b) s)

/-- LCINF. -/
def execLcinf (w : WhiskAt) (m : Fin 4) (a : Fin 16) (negative : Bool) (s : State) : Host.Outcome State Fault Refusal :=
  .next (whiskDo w (.lcinf w m a negative) s)

/-- ITOL. -/
def execItol (w : WhiskAt) (d a : Fin 16) (imm : BitVec 10) (s : State) : Host.Outcome State Fault Refusal :=
  .next (whiskDo w (.itol w d a imm) s)

/-- LTOI. -/
def execLtoi (w : WhiskAt) (d a b : Fin 16) (exponent : BitVec 8) (mode : Rounding) (s : State) : Host.Outcome State Fault Refusal :=
  .next (whiskDo w (.ltoi w d a b exponent mode) s)

/-- TAB. -/
def execTab (w : WhiskAt) (d a : Fin 16) (table : Fin 4) (s : State) : Host.Outcome State Fault Refusal :=
  .next (whiskDo w (.tab w d a table) s)

/-- DRAW. -/
def execDraw (w : WhiskAt) (d : Fin 16) (drawIndex : BitVec 10) (s : State) : Host.Outcome State Fault Refusal :=
  .next (whiskDo w (.draw w d drawIndex) s)

/-- MAND. -/
def execMand (w : WhiskAt) (m a b : Fin 4) (s : State) : Host.Outcome State Fault Refusal :=
  .next (whiskDo w (.mand w m a b) s)

/-- MOR. -/
def execMor (w : WhiskAt) (m a b : Fin 4) (s : State) : Host.Outcome State Fault Refusal :=
  .next (whiskDo w (.mor w m a b) s)

/-- MXOR. -/
def execMxor (w : WhiskAt) (m a b : Fin 4) (s : State) : Host.Outcome State Fault Refusal :=
  .next (whiskDo w (.mxor w m a b) s)

/-- MNOT. -/
def execMnot (w : WhiskAt) (m a : Fin 4) (s : State) : Host.Outcome State Fault Refusal :=
  .next (whiskDo w (.mnot w m a) s)

/-- SUM_I. -/
def execSumI (w : WhiskAt) (slot : Fin 4) (a : Fin 16) (scope : Scope) (s : State) : Host.Outcome State Fault Refusal :=
  .next (whiskDo w (.sumI w slot a scope) s)

/-- SUM_L. -/
def execSumL (w : WhiskAt) (slot : Fin 4) (a : Fin 16) (scope : Scope) (s : State) : Host.Outcome State Fault Refusal :=
  .next (whiskDo w (.sumL w slot a scope) s)

/-- MAX_I. -/
def execMaxI (w : WhiskAt) (slot : Fin 4) (a : Fin 16) (scope : Scope) (s : State) : Host.Outcome State Fault Refusal :=
  .next (whiskDo w (.maxI w slot a scope) s)

/-- MAX_L. -/
def execMaxL (w : WhiskAt) (slot : Fin 4) (a : Fin 16) (scope : Scope) (s : State) : Host.Outcome State Fault Refusal :=
  .next (whiskDo w (.maxL w slot a scope) s)

/-- MIN_I. -/
def execMinI (w : WhiskAt) (slot : Fin 4) (a : Fin 16) (scope : Scope) (s : State) : Host.Outcome State Fault Refusal :=
  .next (whiskDo w (.minI w slot a scope) s)

/-- MIN_L. -/
def execMinL (w : WhiskAt) (slot : Fin 4) (a : Fin 16) (scope : Scope) (s : State) : Host.Outcome State Fault Refusal :=
  .next (whiskDo w (.minL w slot a scope) s)

/-- ARGMAX_I. -/
def execArgmaxI (w : WhiskAt) (slot : Fin 4) (a : Fin 16) (scope : Scope) (s : State) : Host.Outcome State Fault Refusal :=
  .next (whiskDo w (.argmaxI w slot a scope) s)

/-- ARGMAX_L. -/
def execArgmaxL (w : WhiskAt) (slot : Fin 4) (a : Fin 16) (scope : Scope) (s : State) : Host.Outcome State Fault Refusal :=
  .next (whiskDo w (.argmaxL w slot a scope) s)

/-- COUNT. -/
def execCount (w : WhiskAt) (slot : Fin 4) (a : Fin 16) (scope : Scope) (s : State) : Host.Outcome State Fault Refusal :=
  .next (whiskDo w (.count w slot a scope) s)

/-- MEAN_L. -/
def execMeanL (w : WhiskAt) (slot : Fin 4) (a : Fin 16) (scope : Scope) (s : State) : Host.Outcome State Fault Refusal :=
  .next (whiskDo w (.meanL w slot a scope) s)

/-- BCAST. -/
def execBcast (w : WhiskAt) (d : Fin 16) (slot : Fin 4) (counts : Bool) (s : State) : Host.Outcome State Fault Refusal :=
  .next (whiskDo w (.bcast w d slot counts) s)

/-- SPLIT. -/
def execSplit (w : WhiskAt) (s : State) : Host.Outcome State Fault Refusal :=
  .next (whiskDo w (.split w) s)

/-- SOFTMAX. -/
def execSoftmax (w : WhiskAt) (d a : Fin 16) (scope : Scope) (s : State) : Host.Outcome State Fault Refusal :=
  .next (whiskDo w (.softmax w d a scope) s)

end Sys2Proof.Machine
end

