-- ==== Sys2Proof/Machine/Dispatch.lean ====
section
/-! DEFINITION. The meaning of every command: one arm for each constructor of Instr, each a call of its own meaning. -/

namespace Sys2Proof.Machine

open Sys2Proof

def exec (i : Instr) (s : State) : Host.Outcome State Fault Refusal :=
  match i with
  | .porstNRise => Sys2Proof.Machine.execPorstNRise s
  | .railPowerGood rail => Sys2Proof.Machine.execRailPowerGood rail s
  | .dram failedChannels => Sys2Proof.Machine.execDram failedChannels s
  | .ingot badDies => Sys2Proof.Machine.execIngot badDies s
  | .selfTest failures => Sys2Proof.Machine.execSelfTest failures s
  | .links badLanes => Sys2Proof.Machine.execLinks badLanes s
  | .porstNFall => Sys2Proof.Machine.execPorstNFall s
  | .alwaysOnRailLoss rail => Sys2Proof.Machine.execAlwaysOnRailLoss rail s
  | .tickBoundary => Sys2Proof.Machine.execTickBoundary s
  | .specResume context => Sys2Proof.Machine.execSpecResume context s
  | .gateOffExpired stepRef => Sys2Proof.Machine.execGateOffExpired stepRef s
  | .budgetWindow => Sys2Proof.Machine.execBudgetWindow s
  | .thermalPersist stack => Sys2Proof.Machine.execThermalPersist stack s
  | .idleEnter => Sys2Proof.Machine.execIdleEnter s
  | .admitMark => Sys2Proof.Machine.execAdmitMark s
  | .ringSuspend tenant ring => Sys2Proof.Machine.execRingSuspend tenant ring s
  | .run tenant ring index desc => Sys2Proof.Machine.execRun tenant ring index desc s
  | .contextCreate tenant ring index desc => Sys2Proof.Machine.execContextCreate tenant ring index desc s
  | .contextDelete tenant ring index desc => Sys2Proof.Machine.execContextDelete tenant ring index desc s
  | .compact tenant ring index desc => Sys2Proof.Machine.execCompact tenant ring index desc s
  | .freeze tenant ring index desc => Sys2Proof.Machine.execFreeze tenant ring index desc s
  | .lateMark => Sys2Proof.Machine.execLateMark s
  | .checkMark => Sys2Proof.Machine.execCheckMark s
  | .mirrorAck tick => Sys2Proof.Machine.execMirrorAck tick s
  | .buddyLost => Sys2Proof.Machine.execBuddyLost s
  | .snapshotAcknowledged chip => Sys2Proof.Machine.execSnapshotAcknowledged chip s
  | .syncTickEdge pin t => Sys2Proof.Machine.execSyncTickEdge pin t s
  | .syncMissed => Sys2Proof.Machine.execSyncMissed s
  | .ptpSync port sync ptpTime t => Sys2Proof.Machine.execPtpSync port sync ptpTime t s
  | .sourceLocked source t => Sys2Proof.Machine.execSourceLocked source t s
  | .sourceLoss t => Sys2Proof.Machine.execSourceLoss t s
  | .holdoverExpired t => Sys2Proof.Machine.execHoldoverExpired t s
  | .unitIssue g => Sys2Proof.Machine.execUnitIssue g s
  | .hopperBind g => Sys2Proof.Machine.execHopperBind g s
  | .hopperUnbind g => Sys2Proof.Machine.execHopperUnbind g s
  | .hopperProducerWrite g hopper burst => Sys2Proof.Machine.execHopperProducerWrite g hopper burst s
  | .hopperConsumerRead g hopper found t => Sys2Proof.Machine.execHopperConsumerRead g hopper found t s
  | .passDrain g t => Sys2Proof.Machine.execPassDrain g t s
  | .finalDrain g => Sys2Proof.Machine.execFinalDrain g s
  | .pause g t => Sys2Proof.Machine.execPause g t s
  | .resume g request step unit t => Sys2Proof.Machine.execResume g request step unit t s
  | .liveReadyYield g t => Sys2Proof.Machine.execLiveReadyYield g t s
  | .matchBuildComplete g t => Sys2Proof.Machine.execMatchBuildComplete g t s
  | .gateKnown request step unit active => Sys2Proof.Machine.execGateKnown request step unit active s
  | .makeUpArrival request step unit block => Sys2Proof.Machine.execMakeUpArrival request step unit block s
  | .tokenSelect request step => Sys2Proof.Machine.execTokenSelect request step s
  | .stepFault ev => Sys2Proof.Machine.execStepFault ev s
  | .replayExhausted request t => Sys2Proof.Machine.execReplayExhausted request t s
  | .unitFaultLimit kind index t => Sys2Proof.Machine.execUnitFaultLimit kind index t s
  | .nop w => Sys2Proof.Machine.execNop w s
  | .mov w d a => Sys2Proof.Machine.execMov w d a s
  | .con w d k => Sys2Proof.Machine.execCon w d k s
  | .idx w d src => Sys2Proof.Machine.execIdx w d src s
  | .sel w d a b m => Sys2Proof.Machine.execSel w d a b m s
  | .iadd w d a b => Sys2Proof.Machine.execIadd w d a b s
  | .isub w d a b => Sys2Proof.Machine.execIsub w d a b s
  | .ineg w d a => Sys2Proof.Machine.execIneg w d a s
  | .iabs w d a => Sys2Proof.Machine.execIabs w d a s
  | .imin w d a b => Sys2Proof.Machine.execImin w d a b s
  | .imax w d a b => Sys2Proof.Machine.execImax w d a b s
  | .shl w d a n => Sys2Proof.Machine.execShl w d a n s
  | .shr w d a n => Sys2Proof.Machine.execShr w d a n s
  | .shru w d a n => Sys2Proof.Machine.execShru w d a n s
  | .and w d a b => Sys2Proof.Machine.execAnd w d a b s
  | .or w d a b => Sys2Proof.Machine.execOr w d a b s
  | .xor w d a b => Sys2Proof.Machine.execXor w d a b s
  | .iclt w m a b => Sys2Proof.Machine.execIclt w m a b s
  | .iceq w m a b => Sys2Proof.Machine.execIceq w m a b s
  | .inz w m a => Sys2Proof.Machine.execInz w m a s
  | .ladd w d a b => Sys2Proof.Machine.execLadd w d a b s
  | .lsub w d a b => Sys2Proof.Machine.execLsub w d a b s
  | .lmul w d a b => Sys2Proof.Machine.execLmul w d a b s
  | .ldiv w d a b => Sys2Proof.Machine.execLdiv w d a b s
  | .lneg w d a => Sys2Proof.Machine.execLneg w d a s
  | .labs w d a => Sys2Proof.Machine.execLabs w d a s
  | .lmax w d a b => Sys2Proof.Machine.execLmax w d a b s
  | .lmin w d a b => Sys2Proof.Machine.execLmin w d a b s
  | .lscl w d a imm => Sys2Proof.Machine.execLscl w d a imm s
  | .lexp w d a => Sys2Proof.Machine.execLexp w d a s
  | .lclt w m a b => Sys2Proof.Machine.execLclt w m a b s
  | .lceq w m a b => Sys2Proof.Machine.execLceq w m a b s
  | .lcinf w m a negative => Sys2Proof.Machine.execLcinf w m a negative s
  | .itol w d a imm => Sys2Proof.Machine.execItol w d a imm s
  | .ltoi w d a b exponent mode => Sys2Proof.Machine.execLtoi w d a b exponent mode s
  | .tab w d a table => Sys2Proof.Machine.execTab w d a table s
  | .draw w d drawIndex => Sys2Proof.Machine.execDraw w d drawIndex s
  | .mand w m a b => Sys2Proof.Machine.execMand w m a b s
  | .mor w m a b => Sys2Proof.Machine.execMor w m a b s
  | .mxor w m a b => Sys2Proof.Machine.execMxor w m a b s
  | .mnot w m a => Sys2Proof.Machine.execMnot w m a s
  | .sumI w slot a scope => Sys2Proof.Machine.execSumI w slot a scope s
  | .sumL w slot a scope => Sys2Proof.Machine.execSumL w slot a scope s
  | .maxI w slot a scope => Sys2Proof.Machine.execMaxI w slot a scope s
  | .maxL w slot a scope => Sys2Proof.Machine.execMaxL w slot a scope s
  | .minI w slot a scope => Sys2Proof.Machine.execMinI w slot a scope s
  | .minL w slot a scope => Sys2Proof.Machine.execMinL w slot a scope s
  | .argmaxI w slot a scope => Sys2Proof.Machine.execArgmaxI w slot a scope s
  | .argmaxL w slot a scope => Sys2Proof.Machine.execArgmaxL w slot a scope s
  | .count w slot a scope => Sys2Proof.Machine.execCount w slot a scope s
  | .meanL w slot a scope => Sys2Proof.Machine.execMeanL w slot a scope s
  | .bcast w d slot counts => Sys2Proof.Machine.execBcast w d slot counts s
  | .split w => Sys2Proof.Machine.execSplit w s
  | .softmax w d a scope => Sys2Proof.Machine.execSoftmax w d a scope s
  | .tileScrub store found t => Sys2Proof.Machine.execTileScrub store found t s
  | .griddleSwap g cause t => Sys2Proof.Machine.execGriddleSwap g cause t s
  | .sieveSwap sieve cause t => Sys2Proof.Machine.execSieveSwap sieve cause t s
  | .selfTestSlice failure t => Sys2Proof.Machine.execSelfTestSlice failure t s
  | .sieveTableBuild sieve slot segment => Sys2Proof.Machine.execSieveTableBuild sieve slot segment s
  | .sieveDecode sieve slot block => Sys2Proof.Machine.execSieveDecode sieve slot block s
  | .ingotRead ibn found reader t => Sys2Proof.Machine.execIngotRead ibn found reader t s
  | .patrol found t => Sys2Proof.Machine.execPatrol found t s
  | .refresh sector fails => Sys2Proof.Machine.execRefresh sector fails s
  | .repairDataArrival sector data => Sys2Proof.Machine.execRepairDataArrival sector data s
  | .ingotLost sector t => Sys2Proof.Machine.execIngotLost sector t s
  | .dramReadEcc address found reader t => Sys2Proof.Machine.execDramReadEcc address found reader t s
  | .dramParityRetry channel failures read t => Sys2Proof.Machine.execDramParityRetry channel failures read t s
  | .dramScrub address found t => Sys2Proof.Machine.execDramScrub address found t s
  | .channelFlag channel t => Sys2Proof.Machine.execChannelFlag channel t s
  | .channelMapOut channel => Sys2Proof.Machine.execChannelMapOut channel s
  | .sliceMove channel slices => Sys2Proof.Machine.execSliceMove channel slices s
  | .lostLineRestore address => Sys2Proof.Machine.execLostLineRestore address s
  | .dramDead address reader => Sys2Proof.Machine.execDramDead address reader s
  | .pantryAccess tag hint address op reader => Sys2Proof.Machine.execPantryAccess tag hint address op reader s
  | .last address reader => Sys2Proof.Machine.execLast address reader s
  | .pantryStorageError slice set way found t => Sys2Proof.Machine.execPantryStorageError slice set way found t s
  | .addI32 keep address value => Sys2Proof.Machine.execAddI32 keep address value s
  | .max keep address value => Sys2Proof.Machine.execMax keep address value s
  | .min keep address value => Sys2Proof.Machine.execMin keep address value s
  | .swap keep address value => Sys2Proof.Machine.execSwap keep address value s
  | .cas keep address compare value => Sys2Proof.Machine.execCas keep address compare value s
  | .reduce keep address data => Sys2Proof.Machine.execReduce keep address data s
  | .addL16 keep address value => Sys2Proof.Machine.execAddL16 keep address value s
  | .sensorSample sensor raw t => Sys2Proof.Machine.execSensorSample sensor raw t s
  | .setPointLower domain => Sys2Proof.Machine.execSetPointLower domain s
  | .powerSample railMv railQuarterA => Sys2Proof.Machine.execPowerSample railMv railQuarterA s
  | .droop rail depthMv durationNs => Sys2Proof.Machine.execDroop rail depthMv durationNs s
  | .supplyFault rail t => Sys2Proof.Machine.execSupplyFault rail t s
  | .clockFault t => Sys2Proof.Machine.execClockFault t s
  | .smbalert rail statusWord fault t => Sys2Proof.Machine.execSmbalert rail statusWord fault t s
  | .expediterCheck t => Sys2Proof.Machine.execExpediterCheck t s
  | .islandCheck t => Sys2Proof.Machine.execIslandCheck t s
  | .boundaryReportMissed t => Sys2Proof.Machine.execBoundaryReportMissed t s
  | .failSilent => Sys2Proof.Machine.execFailSilent s
  | .handOver cause t => Sys2Proof.Machine.execHandOver cause t s
  | .handoverLast => Sys2Proof.Machine.execHandoverLast s
  | .takeoverStart ward => Sys2Proof.Machine.execTakeoverStart ward s
  | .wardMiss => Sys2Proof.Machine.execWardMiss s
  | .wardLost t => Sys2Proof.Machine.execWardLost t s
  | .spareNoAnswer => Sys2Proof.Machine.execSpareNoAnswer s
  | .mirrorCopied => Sys2Proof.Machine.execMirrorCopied s
  | .identityAssumed => Sys2Proof.Machine.execIdentityAssumed s
  | .takeoverComplete => Sys2Proof.Machine.execTakeoverComplete s
  | .laneBad port bad t => Sys2Proof.Machine.execLaneBad port bad t s
  | .retrainComplete port => Sys2Proof.Machine.execRetrainComplete port s
  | .ack port linkAck creditVc creditBursts => Sys2Proof.Machine.execAck port linkAck creditVc creditBursts s
  | .nak port linkAck => Sys2Proof.Machine.execNak port linkAck s
  | .hopTimeout port => Sys2Proof.Machine.execHopTimeout port s
  | .ackTimer port => Sys2Proof.Machine.execAckTimer port s
  | .flowAck srcChip vc seq => Sys2Proof.Machine.execFlowAck srcChip vc seq s
  | .flowNak srcChip vc seq => Sys2Proof.Machine.execFlowNak srcChip vc seq s
  | .flowTimeout destChip vc => Sys2Proof.Machine.execFlowTimeout destChip vc s
  | .flowSync srcChip vc seq => Sys2Proof.Machine.execFlowSync srcChip vc seq s
  | .frameReceive port raw t => Sys2Proof.Machine.execFrameReceive port raw t s
  | .late f => Sys2Proof.Machine.execLate f s
  | .wake f port => Sys2Proof.Machine.execWake f port s
  | .put f => Sys2Proof.Machine.execPut f s
  | .slotPut f => Sys2Proof.Machine.execSlotPut f s
  | .get f => Sys2Proof.Machine.execGet f s
  | .getData f => Sys2Proof.Machine.execGetData f s
  | .reduceFrame f => Sys2Proof.Machine.execReduceFrame f s
  | .atomic f => Sys2Proof.Machine.execAtomic f s
  | .atomicResp f => Sys2Proof.Machine.execAtomicResp f s
  | .mirrorKv f => Sys2Proof.Machine.execMirrorKv f s
  | .mirrorRecord f => Sys2Proof.Machine.execMirrorRecord f s
  | .notice f => Sys2Proof.Machine.execNotice f s
  | .dict f => Sys2Proof.Machine.execDict f s
  | .dictResp f => Sys2Proof.Machine.execDictResp f s
  | .collectiveTimeout group inst t => Sys2Proof.Machine.execCollectiveTimeout group inst t s
  | .ingestDatagram d => Sys2Proof.Machine.execIngestDatagram d s
  | .hello clientKey clientNonce ephemeral requestId mgPort t => Sys2Proof.Machine.execHello clientKey clientNonce ephemeral requestId mgPort t s
  | .proof session requestId signature mgPort t => Sys2Proof.Machine.execProof session requestId signature mgPort t s
  | .proofTimeout session => Sys2Proof.Machine.execProofTimeout session s
  | .read m => Sys2Proof.Machine.execRead m s
  | .write m => Sys2Proof.Machine.execWrite m s
  | .describe m => Sys2Proof.Machine.execDescribe m s
  | .keepalive m => Sys2Proof.Machine.execKeepalive m s
  | .close m => Sys2Proof.Machine.execClose m s
  | .sessionIdle session => Sys2Proof.Machine.execSessionIdle session s
  | .transferTimeout session => Sys2Proof.Machine.execTransferTimeout session s
  | .coreMailboxRequest hart messageType request => Sys2Proof.Machine.execCoreMailboxRequest hart messageType request s
  | .dictWrite a index sub value => Sys2Proof.Machine.execDictWrite a index sub value s
  | .tickPeriodWrite a sub value => Sys2Proof.Machine.execTickPeriodWrite a sub value s
  | .tickRegridNo a value => Sys2Proof.Machine.execTickRegridNo a value s
  | .syncPinFunction a pin value => Sys2Proof.Machine.execSyncPinFunction a pin value s
  | .castOpen a manifest => Sys2Proof.Machine.execCastOpen a manifest s
  | .castStagingHead a value => Sys2Proof.Machine.execCastStagingHead a value s
  | .stagingEntryConsumed fails => Sys2Proof.Machine.execStagingEntryConsumed fails s
  | .castDataComplete => Sys2Proof.Machine.execCastDataComplete s
  | .castVerifyComplete readBackOk => Sys2Proof.Machine.execCastVerifyComplete readBackOk s
  | .castAbort a slot => Sys2Proof.Machine.execCastAbort a slot s
  | .castAdopt a adoption => Sys2Proof.Machine.execCastAdopt a adoption s
  | .castDelete a slot => Sys2Proof.Machine.execCastDelete a slot s
  | .castPointer a pointer slot => Sys2Proof.Machine.execCastPointer a pointer slot s
  | .variantLoad a value => Sys2Proof.Machine.execVariantLoad a value s
  | .mouldPassComplete => Sys2Proof.Machine.execMouldPassComplete s
  | .secondPassComplete decodesOk => Sys2Proof.Machine.execSecondPassComplete decodesOk s
  | .variantAbort a value => Sys2Proof.Machine.execVariantAbort a value s
  | .variantDelete a slot => Sys2Proof.Machine.execVariantDelete a slot s
  | .variantPointer a pointer slot => Sys2Proof.Machine.execVariantPointer a pointer slot s
  | .channelMapOutWrite a channel => Sys2Proof.Machine.execChannelMapOutWrite a channel s
  | .tenantReset a tenant value => Sys2Proof.Machine.execTenantReset a tenant value s
  | .ringResume a tenant mask => Sys2Proof.Machine.execRingResume a tenant mask s
  | .handOverWrite a value => Sys2Proof.Machine.execHandOverWrite a value s
  | .chipStateRequest a value => Sys2Proof.Machine.execChipStateRequest a value s
  | .spareStateReached => Sys2Proof.Machine.execSpareStateReached s
  | .wakeReady failedChannels => Sys2Proof.Machine.execWakeReady failedChannels s
  | .chipReset a value => Sys2Proof.Machine.execChipReset a value s
  | .portReset a mask => Sys2Proof.Machine.execPortReset a mask s
  | .engineReset a unit passes => Sys2Proof.Machine.execEngineReset a unit passes s
  | .serveEnable a value => Sys2Proof.Machine.execServeEnable a value s
  | .ownerInstall a value => Sys2Proof.Machine.execOwnerInstall a value s
  | .keyAuthorise a record => Sys2Proof.Machine.execKeyAuthorise a record s
  | .keyRevoke a digest => Sys2Proof.Machine.execKeyRevoke a digest s
  | .firmwareStage a image => Sys2Proof.Machine.execFirmwareStage a image s
  | .rollbackCommit a kind => Sys2Proof.Machine.execRollbackCommit a kind s
  | .attestNonce a nonce => Sys2Proof.Machine.execAttestNonce a nonce s
  | .shareGrant a grant => Sys2Proof.Machine.execShareGrant a grant s
  | .shareRevoke a grant => Sys2Proof.Machine.execShareRevoke a grant s
  | .tenantMemPages a tenant pages => Sys2Proof.Machine.execTenantMemPages a tenant pages s
  | .statsSnapshotRequest a value => Sys2Proof.Machine.execStatsSnapshotRequest a value s
  | .dictRestoreDefaults a value => Sys2Proof.Machine.execDictRestoreDefaults a value s
  | .powerGoodMissed rail => Sys2Proof.Machine.execPowerGoodMissed rail s
  | .peerDelay port request meanDelayNs => Sys2Proof.Machine.execPeerDelay port request meanDelayNs s
  | .neighbourDiscovery port target => Sys2Proof.Machine.execNeighbourDiscovery port target s
  | .chipIdWrite a value => Sys2Proof.Machine.execChipIdWrite a value s
  | .jtagInstruction j => Sys2Proof.Machine.execJtagInstruction j s
  | .variantRebuildComplete slot => Sys2Proof.Machine.execVariantRebuildComplete slot s
  | .nvWriteComplete index sub ok => Sys2Proof.Machine.execNvWriteComplete index sub ok s

end Sys2Proof.Machine
end

