-- ==== Sys2Proof/Safety.lean ====
section
/-! DEFINITION. What counts as a safe run: a step that answers a next state, and the invariants of the state that every step
keeps; and what a lane instruction of a Whisk does to the machine. -/

namespace Sys2Proof

open Sys2Proof.Machine

/-- A step that neither faults nor is refused. -/
def Safe (s : State) : Prop := ∃ t, step s = .next t

/-- DRAM is held in its canonical form: addresses rise, and no byte that reads as an unlisted one is listed. -/
def MemoryCanonical (s : State) : Prop := Memory.wf s.dram.mem

/-- The logs that the spec bounds stay within their bounds: 256 fault entries (R413), 64 records (R49), 256 droops (R454),
64 accepted WAKE nonces (R489). -/
def LogsBounded (s : State) : Prop :=
  s.faults.log.length ≤ 256 ∧ s.record.ring.length ≤ 64 ∧ s.power.droopLog.length ≤ 256 ∧ s.boot.wakeNonces.length ≤ 64

/-- The frame that a Whisk command names, as the machine holds it. -/
def frameAt (s : State) (w : WhiskAt) : Frame := sget Frame.idle (sget {} s.engine.whisks w.whisk).frames w.frame

/-- What follows a Whisk command that has brought about `u` (R193): where the checks of R192 found its frames wrong, the step that drains
there is withheld and replayed; else nothing. -/
def afterCheck (c : Instr) (w : WhiskAt) (s u : State) : State :=
  if whiskBad w c (sget {} s.engine.whisks w.whisk) then whiskFail w.whisk u else u

/-- A Whisk command completes as a lane instruction (R168): on a part that runs, each lane that M0 and the predicate let through
becomes `f` of it, every other lane stays, `st` joins the sticky status of the run (R195), and nothing else of the machine
changes but what a failed check does. -/
def LanesDo (c : Instr) (w : WhiskAt) (f : Whisk → Frame → Nat → Lane → Lane) (st : Whisk → Frame → WStat) : Prop :=
  ∀ s, whiskAt s w = true → exec c s = .next (afterCheck c w s { s with engine := { s.engine with
    whisks := supd {} s.engine.whisks w.whisk (fun k =>
      let fr := sget Frame.idle k.frames w.frame
      { k with
        frames := sput k.frames w.frame { fr with
          lanes := fr.lanes.mapIdx (fun i l => if l.m0 && (w.predSel.val == 0 || xor (l.mask w.predSel.val) w.predInv)
            then f k fr i l else l) }
        status := k.status.or (st k fr) }) } })

end Sys2Proof
end

