-- ==== Sys2Proof/WellFormed.lean ====
section
/-! DEFINITION. What operands a command can have: every field within the range that its place in the spec gives it. The machine
runs on all commands; these checks say which of them the hardware can be sent. -/

namespace Sys2Proof

/-- The in-die code corrects up to 8 bits of a block (R250). -/
def IngotFinding.wf : IngotFinding → Bool
  | .corrected b => decide (b ≤ 8)
  | .retried b => decide (b ≤ 8)
  | .uncorrectable => true
  | .crcMismatch => true

/-- The fields that a contribution's frame can hold (R392, R400). -/
def Contribution.wf (p : Contribution) : Bool :=
  decide (p.request < 32768) && decide (p.chip < 4096) && decide (p.group < 64) && decide (p.inst < 2 ^ 32)
    && (match p.signalAt with
      | some a => decide (a < 2 ^ 64)
      | none => true)

/-- The fields of a frame that R392's header can hold. -/
def LinkFrame.wf (f : LinkFrame) : Bool :=
  f.opcode < 256 && f.vc < 8 && f.linkSeq < 4096 && f.linkAck < 4096 && f.destChip < 65536 && f.srcChip < 65536
    && f.flowSeq < 2 ^ 32 && f.creditBursts < 65536 && f.creditVc < 8 && f.hops < 32 && f.space < 4 && f.tenant < 1024
    && f.address < 2 ^ 64 && f.operand < 2 ^ 64 && f.operand2 < 2 ^ 64 && f.tag < 2 ^ 64
    && f.payload.length % 64 == 0 && f.payload.length ≤ 4096

/-- A Whisk has 16 frames, and there is one for each physical Griddle (R161). -/
def WhiskAt.wf (w : WhiskAt) : Bool := w.whisk < 68 && w.frame < 16

/-- The length of an access. -/
def MemOp.wf (m : MemOp) : Bool := match m with
  | .read n => 1 ≤ n && n ≤ 2097152
  | .write d => 1 ≤ d.length && d.length ≤ 2097152

/-- A principal's number. -/
def Principal.wf (p : Principal) : Bool := match p with
  | .tenant n => n < 1024
  | .neighbour c => c < 65536
  | _ => true

/-- An access path. -/
def Access.wf (a : Access) : Bool := a.who.wf

/-- A message's header fields and its HMAC (R510). -/
def ClientMsg.wf (m : ClientMsg) : Bool :=
  m.session < 2 ^ 32 && m.sequence < 2 ^ 64 && m.requestId < 2 ^ 32 && m.mac.length == 32 && m.mgPort < 2

/-- A datagram's source address and port. -/
def Datagram.wf (d : Datagram) : Bool := d.port < 16 && d.source.length == 16 && d.udpPort < 65536

/-- The code and the slot of a step fault. -/
def StepFaultEvent.wf (e : StepFaultEvent) : Bool := e.code < 65536 && e.request < 32768 && e.step < 65536

/-- A segment's or block's index and its instant. -/
def TimedIndex.wf (i : TimedIndex) : Bool := decide (i.index < 2 ^ 32) && decide (i.t < 2 ^ 32)

/-- Whether a command's operands are within their ranges. -/
def Instr.wf (i : Instr) : Bool := match i with
  | .porstNRise => true
  | .railPowerGood rail => decide (rail < 7)
  | .dram failedChannels => failedChannels.all (· < 384)
  | .ingot badDies => badDies.all (· < 48)
  | .selfTest _ => true
  | .links badLanes => badLanes.all (· < 64)
  | .porstNFall => true
  | .alwaysOnRailLoss rail => decide (rail < 7)
  | .tickBoundary => true
  | .specResume context => decide (context < 16384)
  | .gateOffExpired stepRef => decide (stepRef < 2 ^ 32)
  | .budgetWindow => true
  | .thermalPersist stack => decide (stack < 12)
  | .idleEnter => true
  | .admitMark => true
  | .ringSuspend tenant ring => decide (tenant < 1024) && decide (ring < 4)
  | .run tenant ring index desc => decide (tenant < 1024) && decide (ring < 4) && decide (index < 2 ^ 32) && desc.length == 64
  | .contextCreate tenant ring index desc => decide (tenant < 1024) && decide (ring < 4) && decide (index < 2 ^ 32) && desc.length == 64
  | .contextDelete tenant ring index desc => decide (tenant < 1024) && decide (ring < 4) && decide (index < 2 ^ 32) && desc.length == 64
  | .compact tenant ring index desc => decide (tenant < 1024) && decide (ring < 4) && decide (index < 2 ^ 32) && desc.length == 64
  | .freeze tenant ring index desc => decide (tenant < 1024) && decide (ring < 4) && decide (index < 2 ^ 32) && desc.length == 64
  | .lateMark => true
  | .checkMark => true
  | .mirrorAck tick => decide (tick < 2 ^ 64)
  | .buddyLost => true
  | .snapshotAcknowledged chip => decide (chip < 65536)
  | .syncTickEdge pin t => decide (pin < 4) && decide (t < 2 ^ 32)
  | .syncMissed => true
  | .ptpSync port sync ptpTime t => decide (port < 2) && decide (sync.master < 2 ^ 224) && decide (ptpTime < 2 ^ 64) && decide (t < 2 ^ 32)
  | .sourceLocked source t => decide (source < 3) && decide (t < 2 ^ 32)
  | .sourceLoss t => decide (t < 2 ^ 32)
  | .holdoverExpired t => decide (t < 2 ^ 32)
  | .unitIssue g => decide (g < 64)
  | .hopperBind g => decide (g < 64)
  | .hopperUnbind g => decide (g < 64)
  | .hopperProducerWrite g hopper burst => decide (g < 64) && decide (hopper < 16) && burst.data.length == 64 && decide (burst.t < 2 ^ 32)
  | .hopperConsumerRead g hopper _ t => decide (g < 64) && decide (hopper < 16) && decide (t < 2 ^ 32)
  | .passDrain g t => decide (g < 64) && decide (t < 2 ^ 32)
  | .finalDrain g => decide (g < 64)
  | .pause g t => decide (g < 64) && decide (t < 2 ^ 32)
  | .resume g request step unit t => decide (g < 64) && decide (request < 32768) && decide (step < 65536) && decide (unit < 2 ^ 32) && decide (t < 2 ^ 32)
  | .liveReadyYield g t => decide (g < 64) && decide (t < 2 ^ 32)
  | .matchBuildComplete g t => decide (g < 64) && decide (t < 2 ^ 32)
  | .gateKnown request step unit active => decide (request < 32768) && decide (step < 65536) && decide (unit < 2 ^ 32) && active.all (· < 2 ^ 16)
  | .makeUpArrival request step unit block => decide (request < 32768) && decide (step < 65536) && decide (unit < 2 ^ 32) && decide (block < 2 ^ 32)
  | .tokenSelect request step => decide (request < 32768) && decide (step < 65536)
  | .stepFault ev => ev.wf
  | .replayExhausted request t => decide (request < 32768) && decide (t < 2 ^ 32)
  | .unitFaultLimit _ index t => decide (index < 2 ^ 32) && decide (t < 2 ^ 32)
  | .nop w => w.wf
  | .mov w _ _ => w.wf
  | .con w _ _ => w.wf
  | .idx w _ _ => w.wf
  | .sel w _ _ _ _ => w.wf
  | .iadd w _ _ _ => w.wf
  | .isub w _ _ _ => w.wf
  | .ineg w _ _ => w.wf
  | .iabs w _ _ => w.wf
  | .imin w _ _ _ => w.wf
  | .imax w _ _ _ => w.wf
  | .shl w _ _ _ => w.wf
  | .shr w _ _ _ => w.wf
  | .shru w _ _ _ => w.wf
  | .and w _ _ _ => w.wf
  | .or w _ _ _ => w.wf
  | .xor w _ _ _ => w.wf
  | .iclt w _ _ _ => w.wf
  | .iceq w _ _ _ => w.wf
  | .inz w _ _ => w.wf
  | .ladd w _ _ _ => w.wf
  | .lsub w _ _ _ => w.wf
  | .lmul w _ _ _ => w.wf
  | .ldiv w _ _ _ => w.wf
  | .lneg w _ _ => w.wf
  | .labs w _ _ => w.wf
  | .lmax w _ _ _ => w.wf
  | .lmin w _ _ _ => w.wf
  | .lscl w _ _ _ => w.wf
  | .lexp w _ _ => w.wf
  | .lclt w _ _ _ => w.wf
  | .lceq w _ _ _ => w.wf
  | .lcinf w _ _ _ => w.wf
  | .itol w _ _ _ => w.wf
  | .ltoi w _ _ _ _ _ => w.wf
  | .tab w _ _ _ => w.wf
  | .draw w _ _ => w.wf
  | .mand w _ _ _ => w.wf
  | .mor w _ _ _ => w.wf
  | .mxor w _ _ _ => w.wf
  | .mnot w _ _ => w.wf
  | .sumI w _ _ _ => w.wf
  | .sumL w _ _ _ => w.wf
  | .maxI w _ _ _ => w.wf
  | .maxL w _ _ _ => w.wf
  | .minI w _ _ _ => w.wf
  | .minL w _ _ _ => w.wf
  | .argmaxI w _ _ _ => w.wf
  | .argmaxL w _ _ _ => w.wf
  | .count w _ _ _ => w.wf
  | .meanL w _ _ _ => w.wf
  | .bcast w _ _ _ => w.wf
  | .split w => w.wf
  | .softmax w _ _ _ => w.wf
  | .tileScrub store _ t => decide (store < 68) && decide (t < 2 ^ 32)
  | .griddleSwap g cause t => decide (g < 64) && decide (cause < 65536) && decide (t < 2 ^ 32)
  | .sieveSwap sieve cause t => decide (sieve < 36) && decide (cause < 65536) && decide (t < 2 ^ 32)
  | .selfTestSlice _ t => decide (t < 2 ^ 32)
  | .sieveTableBuild sieve slot segment => decide (sieve < 36) && decide (slot < 1024) && segment.wf
  | .sieveDecode sieve slot block => decide (sieve < 36) && decide (slot < 1024) && block.wf
  | .ingotRead ibn found _ t => decide (ibn < 4831838208) && found.wf && decide (t < 2 ^ 32)
  | .patrol found t => found.all (fun x => decide (x.1 < 1024) && x.2.wf) && decide (t < 2 ^ 32)
  | .refresh sector fails => decide (sector < 2 ^ 32) && decide (fails < 2 ^ 32)
  | .repairDataArrival sector data => decide (sector < 2 ^ 32) && data.content.length == 49152 && decide (data.fails < 2 ^ 32)
  | .ingotLost sector t => decide (sector < 2 ^ 32) && decide (t < 2 ^ 32)
  | .dramReadEcc address _ _ t => decide (address < 2 ^ 64) && decide (t < 2 ^ 32)
  | .dramParityRetry channel failures _ t => decide (channel < 384) && decide (failures < 2 ^ 32) && decide (t < 2 ^ 32)
  | .dramScrub address _ t => decide (address < 2 ^ 64) && decide (t < 2 ^ 32)
  | .channelFlag channel t => decide (channel < 384) && decide (t < 2 ^ 32)
  | .channelMapOut channel => decide (channel < 384)
  | .sliceMove channel slices => decide (channel < 384) && slices.unreadable.all (· < 2 ^ 32)
      && (match slices.ahead with
        | some sl => decide (sl < 2 ^ 32)
        | none => true)
  | .lostLineRestore address => decide (address < 2 ^ 64)
  | .dramDead address _ => decide (address < 2 ^ 64)
  | .pantryAccess _ _ address op _ => decide (address < 2 ^ 64) && op.wf
  | .last address _ => decide (address < 2 ^ 64)
  | .pantryStorageError slice set way _ t => decide (slice < 64) && decide (set < 2048) && decide (way < 16) && decide (t < 2 ^ 32)
  | .addI32 _ address _ => decide (address < 2 ^ 64)
  | .max _ address _ => decide (address < 2 ^ 64)
  | .min _ address _ => decide (address < 2 ^ 64)
  | .swap _ address _ => decide (address < 2 ^ 64)
  | .cas _ address _ _ => decide (address < 2 ^ 64)
  | .reduce _ address data => decide (address < 2 ^ 64) && data.burst.length == 64 && (match data.part with
      | some p => p.wf
      | none => true)
  | .addL16 _ address _ => decide (address < 2 ^ 64)
  | .sensorSample sensor _ t => decide (sensor < 64) && decide (t < 2 ^ 32)
  | .setPointLower domain => decide (domain < 48)
  | .powerSample railMv railQuarterA => railMv.length == 7 && railQuarterA.length == 7
  | .droop rail depthMv durationNs => decide (rail < 7) && decide (depthMv < 256) && decide (durationNs < 2 ^ 32)
  | .supplyFault rail t => decide (rail < 7) && decide (t < 2 ^ 32)
  | .clockFault t => decide (t < 2 ^ 32)
  | .smbalert rail _ _ t => decide (rail < 7) && decide (t < 2 ^ 32)
  | .expediterCheck t => decide (t < 2 ^ 32)
  | .islandCheck t => decide (t < 2 ^ 32)
  | .boundaryReportMissed t => decide (t < 2 ^ 32)
  | .failSilent => true
  | .handOver cause t => decide (cause < 65536) && decide (t < 2 ^ 32)
  | .handoverLast => true
  | .takeoverStart ward => decide (ward < 65536)
  | .wardMiss => true
  | .wardLost t => decide (t < 2 ^ 32)
  | .spareNoAnswer => true
  | .mirrorCopied => true
  | .identityAssumed => true
  | .takeoverComplete => true
  | .laneBad port bad t => decide (port < 16) && decide (bad.lane < 4) && decide (t < 2 ^ 32)
  | .retrainComplete port => decide (port < 16)
  | .ack port linkAck creditVc creditBursts => decide (port < 16) && decide (linkAck < 4096) && decide (creditVc < 8) && decide (creditBursts < 65536)
  | .nak port linkAck => decide (port < 16) && decide (linkAck < 4096)
  | .hopTimeout port => decide (port < 16)
  | .ackTimer port => decide (port < 16)
  | .flowAck srcChip vc seq => decide (srcChip < 65536) && decide (vc < 8) && decide (seq < 2 ^ 32)
  | .flowNak srcChip vc seq => decide (srcChip < 65536) && decide (vc < 8) && decide (seq < 2 ^ 32)
  | .flowTimeout destChip vc => decide (destChip < 65536) && decide (vc < 8)
  | .flowSync srcChip vc seq => decide (srcChip < 65536) && decide (vc < 8) && decide (seq < 2 ^ 32)
  | .frameReceive port _ t => decide (port < 16) && decide (t < 2 ^ 32)
  | .late f => f.wf
  | .wake f port => f.wf && decide (port < 16)
  | .put f => f.wf
  | .slotPut f => f.wf
  | .get f => f.wf
  | .getData f => f.wf
  | .reduceFrame f => f.wf
  | .atomic f => f.wf
  | .atomicResp f => f.wf
  | .mirrorKv f => f.wf
  | .mirrorRecord f => f.wf
  | .notice f => f.wf
  | .dict f => f.wf
  | .dictResp f => f.wf
  | .collectiveTimeout group inst t => decide (group < 64) && decide (inst < 2 ^ 32) && decide (t < 2 ^ 32)
  | .ingestDatagram d => d.wf
  | .hello clientKey clientNonce ephemeral requestId mgPort t => clientKey.length == 65 && clientNonce.length == 32 && ephemeral.length == 65 && decide (requestId < 2 ^ 32) && decide (mgPort < 2) && decide (t < 2 ^ 32)
  | .proof session requestId signature mgPort t => decide (session < 2 ^ 32) && decide (requestId < 2 ^ 32) && signature.length == 64 && decide (mgPort < 2) && decide (t < 2 ^ 32)
  | .proofTimeout session => decide (session < 2 ^ 32)
  | .read m => m.wf
  | .write m => m.wf
  | .describe m => m.wf
  | .keepalive m => m.wf
  | .close m => m.wf
  | .sessionIdle session => decide (session < 2 ^ 32)
  | .transferTimeout session => decide (session < 2 ^ 32)
  | .coreMailboxRequest hart messageType _ => decide (hart < 65536) && decide (messageType < 256)
  | .dictWrite a index sub _ => a.wf && decide (index < 65536) && decide (sub < 256)
  | .tickPeriodWrite a sub value => a.wf && decide (sub < 256) && decide (value < 2 ^ 32)
  | .tickRegridNo a value => a.wf && decide (value < 2 ^ 64)
  | .syncPinFunction a pin value => a.wf && decide (pin < 4) && decide (value < 256)
  | .castOpen a _ => a.wf
  | .castStagingHead a value => a.wf && decide (value < 2 ^ 32)
  | .stagingEntryConsumed fails => decide (fails < 2 ^ 32)
  | .castDataComplete => true
  | .castVerifyComplete _ => true
  | .castAbort a slot => a.wf && decide (slot < 256)
  | .castAdopt a _ => a.wf
  | .castDelete a slot => a.wf && decide (slot < 256)
  | .castPointer a pointer slot => a.wf && decide (pointer < 64) && decide (slot < 256)
  | .variantLoad a _ => a.wf
  | .mouldPassComplete => true
  | .secondPassComplete _ => true
  | .variantAbort a value => a.wf && decide (value < 256)
  | .variantDelete a slot => a.wf && decide (slot < 65536)
  | .variantPointer a pointer slot => a.wf && decide (pointer < 1024) && decide (slot < 65536)
  | .channelMapOutWrite a channel => a.wf && decide (channel < 65536)
  | .tenantReset a tenant value => a.wf && decide (tenant < 1024) && decide (value < 256)
  | .ringResume a tenant mask => a.wf && decide (tenant < 1024) && decide (mask < 256)
  | .handOverWrite a value => a.wf && decide (value < 256)
  | .chipStateRequest a value => a.wf && decide (value < 256)
  | .spareStateReached => true
  | .wakeReady failedChannels => failedChannels.all (· < 384)
  | .chipReset a value => a.wf && decide (value < 256)
  | .portReset a mask => a.wf && decide (mask < 65536)
  | .engineReset a unit _ => a.wf && decide (unit < 256)
  | .serveEnable a value => a.wf && decide (value < 256)
  | .ownerInstall a _ => a.wf
  | .keyAuthorise a _ => a.wf
  | .keyRevoke a _ => a.wf
  | .firmwareStage a _ => a.wf
  | .rollbackCommit a kind => a.wf && decide (kind < 256)
  | .attestNonce a _ => a.wf
  | .shareGrant a _ => a.wf
  | .shareRevoke a _ => a.wf
  | .tenantMemPages a tenant pages => a.wf && decide (tenant < 1024) && decide (pages < 2 ^ 32)
  | .statsSnapshotRequest a value => a.wf && decide (value < 256)
  | .dictRestoreDefaults a value => a.wf && decide (value < 256)
  | .powerGoodMissed rail => decide (rail < 7)
  | .peerDelay port _ meanDelayNs => decide (port < 2) && decide (meanDelayNs < 2 ^ 32)
  | .neighbourDiscovery port target => decide (port < 16) && target.length == 16
  | .chipIdWrite a value => a.wf && decide (value < 65536)
  | .jtagInstruction _ => true
  | .variantRebuildComplete slot => decide (slot < 1024)
  | .nvWriteComplete index sub _ => decide (index < 65536) && decide (sub < 256)

end Sys2Proof
end

