-- ==== Sys2Proof/Certificates/Slice0/Obligations.lean ====
section
/-! DEFINITION. The statements for the provers. Each says what its docstring says, of every state and all operands. -/

section

open Sys2Proof Sys2Proof.Machine

/-- Start-up begins (R22, R524, R526, R533). The rise of PORST_N starts device time and the tick count at 0 on the provisional
grid, with the part waking, nothing in force but what Safety Island NV holds, and VIO switched on alone. Power-good of a rail
starts the next rail of the order; that of the last rail lets stage ISLAND begin. A rail that misses power-good stops start-up
with BootFault RAIL, ChipState FAILED and PILOT_ALERT_N low. -/
def Obligations.StartUpBegins : Prop :=
  (∀ s, s.boot.porstN = false → ∃ t, exec .porstNRise s = .next t ∧
    t.boot.porstN = true ∧ t.boot.running = true ∧ t.boot.kind = .powerOn ∧ t.boot.chip = .waking ∧
    getO t oBootStage = 1 ∧ t.time.now = 0 ∧ t.time.tickNo = 0 ∧ t.time.tickStart = 0 ∧ t.time.tickLen = 16666667 ∧
    t.time.provisional = true ∧ t.boot.railOn = [false, false, false, true, false, false, false] ∧
    t.out = s.out ++ [.avsWrite 3 750, .pmbus 3 1 0x80] ∧ t.sec.ownerKey = s.sec.ownerKey ∧ t.sec.keys = s.sec.keys ∧
    t.sec.sessions = [] ∧ t.dict.nvA = s.dict.nvA ∧ t.dict.nvB = s.dict.nvB ∧ t.ingot.casts = s.ingot.casts ∧
    t.ingot.content = s.ingot.content ∧ t.pending = s.pending) ∧
  (∀ s r n, s.boot.running = true → nth false s.boot.railOn r = true → nth false s.boot.railGood r = false →
    railOrder.find? (fun x => !nth false (s.boot.railGood.set r true) x) = some n → nth false s.boot.railOn n = false →
    railsCool s = true →
    exec (.railPowerGood r) s =
      .next (startRail n { s with boot := { s.boot with railGood := s.boot.railGood.set r true } })) ∧
  (∀ s r, s.boot.running = true → nth false s.boot.railOn r = true → nth false s.boot.railGood r = false →
    (∀ x ∈ railOrder, nth false (s.boot.railGood.set r true) x = true) →
    exec (.railPowerGood r) s =
      .next (railsReady { s with boot := { s.boot with railGood := s.boot.railGood.set r true } })) ∧
  (∀ s r, s.boot.running = true → nth false s.boot.railOn r = true → nth false s.boot.railGood r = false →
    ∃ t, exec (.powerGoodMissed r) s = .next t ∧ getO t oBootFault = 1 ∧ t.boot.chip = .failed ∧ t.boot.running = false ∧
      alertN t = false ∧ (∀ e ∈ t.links.ports, e.2.st = 0 ∧ e.2.width = 0) ∧
      (∀ k, k ≠ oBootFault → getO t k = getO s k) ∧ t.sec = s.sec ∧ t.ingot = s.ingot ∧ t.dram = s.dram ∧ t.out = s.out)

/-- The stages of start-up (R313, R528 to R532). Stage DRAM maps out the channels that fail training on top of those already out and
counts the frames that live; more than 16 channels out, or regions that do not fit below the reserve, stop start-up with BootFault
DRAM. Stage INGOT stops with a bad die. SELF_TEST stops where a lockstep pair fails, and goes on to load CORE_LOADER otherwise.
LINKS trains every port in its PortMode round its bad lanes, and leaves the part READY and ACTIVE. -/
def Obligations.StartUpStagesRun : Prop :=
  (∀ s failed, atStage s 7 = true →
    let map := s.dram.map ++ (failed.filter (fun c => decide (c < 384) && !s.dram.map.contains c)).eraseDups
    let u := dramCounts map.length (dramTrained map (powerDomains 7 s))
    exec (.dram failed) s = .next (
      if 16 < map.length then bootFault 7 s
      else if reserveFirst u < kvFirst u then bootFault 7 u
      else stageDone 7 (dropVariantPointers (layOut u)))) ∧
  (∀ s badDies, atStage s 8 = true → (∃ d ∈ badDies, d < 48) → exec (.ingot badDies) s = .next (bootFault 8 s)) ∧
  (∀ s badDies, atStage s 8 = true → (∀ d ∈ badDies, 48 ≤ d) →
    let u := powerDomains 8 { s with ingot := { s.ingot with session := none } }
    exec (.ingot badDies) s = .next (stageDone 8 ((u.ingot.casts.map (·.1)).foldl (fun s c => bootCast false c s) u))) ∧
  (∀ s fs, atStage s 9 = true → (.expediterPair ∈ fs ∨ .islandPair ∈ fs) →
    exec (.selfTest fs) s = .next (bootFault 9 (fs.foldl (fun s u => bootTest u s) (powerDomains 9 s)))) ∧
  (∀ s fs, atStage s 9 = true → .expediterPair ∉ fs → .islandPair ∉ fs →
    let r := loadImages 4 [2] (powerDomains 10 (stageDone 9 (fs.foldl (fun s u => bootTest u s) (powerDomains 9 s))))
    exec (.selfTest fs) s = .next (if r.1 then stageDone 10 r.2 else r.2)) ∧
  (∀ s badLanes, atStage s 11 = true → ∃ t, exec (.links badLanes) s = .next t ∧
    t.boot.chip = .active ∧ t.boot.running = false ∧ getO t oBootStage = 12)

/-- Power-down (R525, R535). With PORST_N low, or VPILOT or V1P8 lost, the main rails that are on are commanded off in the order
VSERDES, VSTACK, VCORE, VSRAM, VIO, and all volatile state is lost: device time, DRAM, contexts, requests, engines, links,
sessions, variants but for the session whose loss the next start-up reports, and every object that Safety Island NV does not hold. Keys, images, the dictionary's NV copies, the Ingot Store and
TripCount stay. -/
def Obligations.PowerDownLosesVolatileState : Prop :=
  ∀ s c, (c = .porstNFall ∨ c = .alwaysOnRailLoss 5 ∨ c = .alwaysOnRailLoss 6) → s.boot.porstN = true →
    ∃ t, exec c s = .next t ∧ t.boot.porstN = false ∧
      t.out = s.out ++ (([4, 2, 0, 1, 3] : List Nat).filter (fun r => nth false s.boot.railOn r)).map (fun r => .pmbus r 1 0) ∧
      t.time = {} ∧ t.dram = { map := s.dram.map } ∧ t.kv = {} ∧ t.vars = { session := s.vars.session } ∧ t.sched = {} ∧ t.engine = {} ∧ t.links = {} ∧
      t.mirror = {} ∧ t.sec.sessions = [] ∧ t.faults.log = [] ∧
      (∀ k, heldInNv k = true → getO t k = getO s k) ∧ (∀ k, heldInNv k = false → getO t k = objDefault k) ∧
      t.sec.ownerKey = s.sec.ownerKey ∧ t.sec.keys = s.sec.keys ∧ t.sec.imagesA = s.sec.imagesA ∧ t.sec.imagesB = s.sec.imagesB ∧
      t.dict.nvA = s.dict.nvA ∧ t.dict.nvB = s.dict.nvB ∧ t.ingot.content = s.ingot.content ∧ t.ingot.dies = s.ingot.dies ∧
      t.ingot.casts = s.ingot.casts ∧ t.faults.griddleMap = s.faults.griddleMap ∧ t.pending = s.pending

/-- The reset levels that a write asks for (R22, R535 to R537, R556). A chip reset that R536 accepts begins start-up again; a chip with contexts
or requests answers STATE_CONFLICT and keeps its state. PORT_RESET trains each named port; ENGINE_RESET clears a unit that is not
in service and tests it, and refuses one that is. -/
def Obligations.ResetWritesReset : Prop :=
  (∀ s a, gate s a oChipReset [1] = 0 → resetAllowed s = true →
    exec (.chipReset a 1) s = .next (answerWrite (abOk, chipReset s))) ∧
  (∀ s a, gate s a oChipReset [1] = 0 → s.boot.chip ≠ .failed → s.boot.chip ≠ .tripped →
    (s.kv.ctxs ≠ [] ∨ s.sched.reqs ≠ []) → exec (.chipReset a 1) s = .next (answerWrite (abState, s))) ∧
  (∀ s : State, (∀ k, s.sec.ownerKey = some k → (chipReset s).sec.ownerKey = some k) ∧ (chipReset s).time.tickNo = s.time.tickNo ∧
    (chipReset s).time.tickStart = s.time.tickStart ∧ (chipReset s).time.tickLen = s.time.tickLen ∧
    (chipReset s).time.phase = s.time.phase ∧ (chipReset s).boot.porstN = s.boot.porstN) ∧
  (∀ s a mask, gate s a oPortReset (natLe 2 mask) = 0 → isSpare s = false →
    exec (.portReset a mask) s =
      .next (answerWrite (abOk, (natsWhere 16 (fun p => bits mask p 1 == 1)).foldl (fun s p => resetPort p s) s))) ∧
  (∀ s a u p, gate s a oEngineReset (natLe 1 u) = 0 → inService s u = false →
    exec (.engineReset a u p) s = .next (answerWrite (abOk, resetEngine u p s))) ∧
  (∀ s a u p, gate s a oEngineReset (natLe 1 u) = 0 → inService s u = true →
    exec (.engineReset a u p) s = .next (answerWrite (abState, s))) ∧
  (∀ s u, u < 68 → (resetEngine u true s) =
    { s with engine := { s.engine with stores := sdel s.engine.stores u, whisks := sdel s.engine.whisks u } }) ∧
  (∀ s u, 68 ≤ u → (resetEngine u true s) = { s with vars := { s.vars with sieves := sdel s.vars.sieves (u - 68) } })

/-- Service and identity (R501, R502, R532, R534). SERVE_ENABLE with 1 is refused before stage READY and while ChipId is 0xFFFF, and
otherwise waits for the tick boundary; a write of ChipId comes into force at once and clears Surrendered, and one whose NV write
fails answers NV_FAULT and changes nothing. -/
def Obligations.ServiceAndIdentityWrites : Prop :=
  (∀ s a, gate s a oServeEnable [1] = 0 → (getO s oBootStage ≠ 12 ∨ getO s oChipId = 0xFFFF) →
    exec (.serveEnable a 1) s = .next (answerWrite (abState, s))) ∧
  (∀ s a v, gate s a oServeEnable (natLe 1 v) = 0 → (v = 0 ∨ getO s oBootStage = 12 ∧ getO s oChipId ≠ 0xFFFF) →
    pendingRoom (withoutOwn a oServeEnable s) (natLe 1 v) = true →
    exec (.serveEnable a v) s =
      .next (answerWrite (abOk, noteConfig oServeEnable (natLe 1 v) (addPending a oServeEnable (natLe 1 v) s)))) ∧
  (∀ s a v, gate s a oChipId (natLe 2 v) = 0 → a.nvFails = true → exec (.chipIdWrite a v) s = .next (answerWrite (abNvFault, s))) ∧
  (∀ s a v, gate s a oChipId (natLe 2 v) = 0 → v < 65536 → a.nvFails = false → ∃ t, exec (.chipIdWrite a v) s = .next t ∧
    getO t oChipId = v ∧ getO t oSurrendered = 0 ∧ t.dict.answer = abOk ∧ t.time = s.time ∧ t.sched = s.sched ∧ t.dram = s.dram ∧
    t.sec = s.sec ∧ t.pending = s.pending)

/-- Spare states and IDLE (R467, R470, R471, R538 to R540). A request for a spare state by a chip with no ring and no request is
accepted, and a request for service by a spare begins its exit. SPARE_STATE_REACHED enters the state that is wanted; IDLE_ENTER
gates the engines of a chip without work after IdleEnterTicks boundaries; WAKE_READY brings a warm spare back through stage
READY, and a cold spare through stages 3 to 10 and then LINKS, or into WARM_SPARE where the exit was for that. -/
def Obligations.SpareStatesAndIdle : Prop :=
  (∀ s a v, gate s a oChipStateRequest (natLe 1 v) = 0 → (v = 2 ∨ v = 3) → s.boot.chip = .active → anyRing s = false →
    s.sched.reqs = [] → exec (.chipStateRequest a v) s = .next (answerWrite (abOk,
      { s with boot := { s.boot with spareWanted := some (if v = 2 then .warmSpare else .coldSpare) } }))) ∧
  (∀ s a, gate s a oChipStateRequest [0] = 0 → isSpare s = true → exec (.chipStateRequest a 0) s =
    .next (answerWrite (abOk, leaveSpare .coldExit { s with boot := { s.boot with wakeFor := none } }))) ∧
  (∀ s, s.boot.spareWanted = some .warmSpare → mayEnterSpare s = true → ∃ t, exec .spareStateReached s = .next t ∧
    t.boot.chip = .warmSpare ∧ t.boot.spareWanted = none ∧ t.dram.selfRefresh = true ∧ t.dram.mem = s.dram.mem ∧
    t.boot.engineGated = true ∧ t.kv = s.kv ∧ t.time = s.time ∧ t.sec = s.sec) ∧
  (∀ s, s.boot.spareWanted = some .coldSpare → mayEnterSpare s = true → ∃ t, exec .spareStateReached s = .next t ∧
    t.boot.chip = .coldSpare ∧ t.boot.spareWanted = none ∧ t.dram.mem = [] ∧ t.kv = {} ∧ t.sched = {}) ∧
  (∀ s, s.boot.chip = .active → inFlight s = false → getO s oIdleEnterTicks ≤ s.boot.idleBoundaries →
    exec .idleEnter s = .next { s with boot := { s.boot with chip := .idle, engineGated := true } }) ∧
  (∀ s failed, s.boot.chip = .waking → s.boot.exitFrom = some .warmSpare →
    exec (.wakeReady failed) s = .next (spareReady (bootReady ((List.range 16).foldl (fun s p => trainPort p [] s)
      { s with dram := { s.dram with selfRefresh := false }, boot := { s.boot with engineGated := false } })))) ∧
  (∀ s failed, s.boot.chip = .waking → s.boot.exitFrom = some .coldSpare →
    ¬ (nextRail s = some 3 ∧ ¬ nth false s.boot.railOn 3) →
    let u := coldStages failed s
    exec (.wakeReady failed) s = .next (
      if getO u oBootStage ≠ 10 then u
      else if u.boot.kind = .coldToWarm then enterWarm { u with boot := { u.boot with running := false, exitFrom := none } }
      else spareReady (bootLinks [] u)))

/-- What raising a fault does, all of it (R411 to R413, R416, R425, R426): its entry stands last in the fault log, which keeps the last
256; a SILENT fault silences the chip, a PLANNED one asks for a hand-over unless one is asked for already; the codes that R411
charges to a unit are charged; nothing else changes. -/
def Obligations.RaisedFaultIsLogged : Prop :=
  ∀ code kind idx req d s, let t := raiseFault code kind idx req d s
    let log := s.faults.log ++ [faultEntry s code kind idx req d]
    t.faults.log = log.drop (log.length - 256) ∧ t.faults.log.getLast? = some (faultEntry s code kind idx req d) ∧
    t.faults.silent = (s.faults.silent || faultClass code kind == 3) ∧
    t.faults.planned = (if faultClass code kind = 2 ∧ s.faults.planned = none then some code else s.faults.planned) ∧
    (faultCharges code kind = true →
      t.faults.charges = s.faults.charges.filter (fun c => within s c.2.2 1000000000) ++ [(chargedKind kind, idx, s.time.now)]) ∧
    (faultCharges code kind = false → t.faults.charges = s.faults.charges) ∧
    t = { s with faults := { s.faults with log := t.faults.log, silent := t.faults.silent, planned := t.faults.planned,
                                           charges := t.faults.charges } }

/-- Fail-silence (R411, R416, R425, R469, R532). EXPEDITER_CHECK, ISLAND_CHECK, BOUNDARY_REPORT_MISSED and REPLAY_EXHAUSTED raise
their SILENT fault; a raised SILENT fault takes the chip to FAILED: it gives up its commit set, its ports go idle, Surrendered is
set and it counts once; DRAM, contexts, keys and the Ingot Store stay. -/
def Obligations.SilentFaultsSilence : Prop :=
  (∀ s t, mainOn s = true → exec (.expediterCheck t) s = .next (raiseFault 0x0140 .expediter 0 none 0 (atT t s))) ∧
  (∀ s t, mainOn s = true → let d := draw (raiseFault 0x0141 .island 0 none 0 (atT t s))
    exec (.islandCheck t) s = .next (goSilent (if d.1 % 2 = 1 then setAlert 2 true d.2 else d.2))) ∧
  (∀ s t, mainOn s = true →
    exec (.boundaryReportMissed t) s = .next (goSilent (setAlert 2 true (raiseFault 0x0140 .expediter 0 none 0 (atT t s))))) ∧
  (∀ s i t r, reqGet s i = some r → getO s oReplayLimit ≤ r.replays →
    exec (.replayExhausted i t) s = .next (raiseFault 0x0144 .none 0 (some i) 0 (atT t s))) ∧
  (∀ s, s.faults.silent = true → s.faults.failed = false → ∃ t, exec .failSilent s = .next t ∧
    t.faults.failed = true ∧ alive t = false ∧ t.sched.commitSet = [] ∧ t.sched.held = [] ∧
    t.boot.chip = (if s.boot.chip = .tripped then .tripped else .failed) ∧ getO t oSurrendered = 1 ∧
    getO t oChipFaultCount = (getO s oChipFaultCount + 1) % 2 ^ 64 ∧
    t.out = s.out ++ ((List.range 16).filter (fun p => (portGet s p).st != 0)).map (fun p => .idle p) ∧
    t.dram = s.dram ∧ t.kv = s.kv ∧ t.sec = s.sec ∧ t.ingot = s.ingot ∧ t.time = s.time)

/-- Unit limits, recasts and self-test (R416 to R422). A unit at its limit of charged faults is recast by the swap of its kind; a Griddle
that leaves service gives its place to the lowest spare of its kind, or is taken OUT where none is left; a Stream Sieve is
replaced by the highest serving Dense Sieve at the next boundary; a self-test slice is counted, and a unit that fails it raises
SELF_TEST_FAIL. -/
def Obligations.UnitsAreRecast : Prop :=
  (∀ s g t p, unitCharges (atT t s) .griddle p ≥ getO s oUnitFaultLimit → logicalOf s p = some g →
    exec (.unitFaultLimit .griddle p t) s = .next (swapGriddle g (lastCode s .griddle p) (atT t s))) ∧
  (∀ s n t, unitCharges (atT t s) .sieve n ≥ getO s oUnitFaultLimit →
    exec (.unitFaultLimit .sieve n t) s = .next (recastSieve n (lastCode s .sieve n) (atT t s))) ∧
  (∀ s g c t, g < 64 → s.boot.porstN = true → exec (.griddleSwap g c t) s = .next (swapGriddle g c (atT t s))) ∧
  (∀ s g c p q, physGriddle s g = some p → spareFor (abandon g p s) g = some q → let u := abandon g p s
    swapGriddle g c s = recast 0 c p q 0 (bump (doHopperBind g { u with faults := { u.faults with
      griddleMap := u.faults.griddleMap.set g (some q), spares := u.faults.spares.filter (· != q) } }) oGriddleSwapCount)) ∧
  (∀ s g c p, physGriddle s g = some p → spareFor (abandon g p s) g = none → let u := abandon g p s
    swapGriddle g c s = recast 1 c p 0xFFFF 0 (raiseFault 0x0121 .griddle p none 0 (moveUnits g
      { u with faults := { u.faults with griddleMap := u.faults.griddleMap.set g none } }))) ∧
  (∀ s g p, sfind (abandon g p s).engine.stores p = none ∧ sfind (abandon g p s).engine.whisks p = none ∧
    sfind (abandon g p s).engine.tiles g = none ∧ sfind (abandon g p s).engine.latches g = none ∧ p ∈ (abandon g p s).faults.retired) ∧
  (∀ s n c t, s.boot.porstN = true → exec (.sieveSwap n c t) s = .next (recastSieve n c (atT t s))) ∧
  (∀ s n c, (∀ x ∈ s.faults.sieveDue, x.1 ≠ n) → n ∈ s.faults.sieveStream → n ∉ servingDense s → 1 < (servingDense s).length →
    recastSieve n c s = { s with faults := { s.faults with
      sieveDue := s.faults.sieveDue ++ [(n, (servingDense s).max?, c, offsetNs s)] } }) ∧
  (∀ s t, mainOn s = true → exec (.selfTestSlice none t) s = .next (bump (atT t s) oSelfTestSliceCount)) ∧
  (∀ s u t, mainOn s = true → exec (.selfTestSlice (some u) t) s = .next (testFails u (bump (atT t s) oSelfTestSliceCount)))

/-- Planned hand-over (R426). A write of 1 to HandOver, or a PLANNED fault, asks for a hand-over; HAND_OVER fixes the last tick
and tells the buddy; once the record of that tick is acknowledged and its commit set released, HANDOVER_LAST silences the chip. -/
def Obligations.HandOverRuns : Prop :=
  (∀ s a, gate s a oHandOver [1] = 0 → exec (.handOverWrite a 1) s = .next (answerWrite (abOk,
    { s with faults := { s.faults with planned := s.faults.planned.orElse (fun _ => some 0) } }))) ∧
  (∀ s a, gate s a oHandOver [0] = 0 → exec (.handOverWrite a 0) s = .next (answerWrite (abOk, s))) ∧
  (∀ s c t, s.faults.planned = some c → s.faults.handOver = none → alive s = true → getO s oBuddyChipId = 0xFFFF →
    exec (.handOver c t) s = .next (let u := atT t s
      { u with faults := { u.faults with handOver := some ⟨s.time.tickNo + getO s oHandoverTicks - 1
        + (if getO s oHandoverTicks = 1 ∧ s.record.sealedNow then 1 else 0), s.boot.spareWanted == some .coldSpare⟩ } })) ∧
  (∀ s c t, s.faults.planned = some c → s.faults.handOver = none → alive s = true → getO s oBuddyChipId ≠ 0xFFFF →
    exec (.handOver c t) s = .next (let u := atT t s
      sendDict (getO s oBuddyChipId) oTakeoverStart true (natLe 2 (getO s oChipId))
        { u with faults := { u.faults with handOver := some ⟨s.time.tickNo + getO s oHandoverTicks - 1
          + (if getO s oHandoverTicks = 1 ∧ s.record.sealedNow then 1 else 0), s.boot.spareWanted == some .coldSpare⟩ } })) ∧
  (∀ s h, s.faults.handOver = some h → h.lastTick < s.time.tickNo → (∀ w ∈ s.mirror.wait, h.lastTick < w.1) →
    (∀ x ∈ s.sched.held, h.lastTick < x.1) → exec .handoverLast s = .next (goSilent s))

/-- The speculation width, the gate predictor and stack temperature (R159, R223, R411). SPEC_RESUME sets the width again that the
context asked for; GATE_OFF_EXPIRED lets the step predict again; THERMAL_PERSIST raises its PLANNED fault. -/
def Obligations.ExpiredLimitsLift : Prop :=
  (∀ s id c, kvCtx s id = some c → c.specWidth = 0 → c.specOffLeft = 0 → c.specReq ≠ 0 →
    exec (.specResume id) s =
      .next (addEntry (specEntry id 0 c.specReq 2 0) (kvCtxMod id (fun c' => { c' with specWidth := c.specReq }) s))) ∧
  (∀ s ref, (sget {} s.sched.gates ref).off = true → (sget {} s.sched.gates ref).offLeft = 0 →
    exec (.gateOffExpired ref) s =
      .next { s with sched := { s.sched with gates := supd {} s.sched.gates ref (fun g => { g with off := false }) } }) ∧
  (∀ s k, k < 12 → getO s oThermalRecastTicks ≤ sget 0 s.faults.criticalTicks k → exec (.thermalPersist k) s =
    .next (raiseFault 0x0135 .stack k none 0 s) ∧ (raiseFault 0x0135 .stack k none 0 s).faults.planned ≠ none)

/-- The grid of R18: for a period of at least 1 ns the index of an instant is the one n with T(n) ≤ t < T(n + 1), and T rises. -/
def Obligations.GridIndexIsTheTickThatHoldsAnInstant : Prop :=
  ∀ (g : Grid) (t : Int), 1 ≤ g.i →
    g.t (g.index t) ≤ t ∧ t < g.t (g.index t + 1) ∧ (∀ n, g.t n ≤ t → t < g.t (n + 1) → n = g.index t) ∧
    (∀ n : Int, g.t n < g.t (n + 1))

/-- Phase measurements (R24, R25, R29, R30). An edge of an input pin within the window, or a Sync on the MG port that is the time
source, measures its source: 16 good ones in a row are counted, a bad one starts the count again, and TickPhaseErrorNs holds the
error of the source in use, while another source corrects nothing. A two-step Sync waits for its Follow_Up, and a Sync on the port
that stands by measures nothing. An edge outside the window, and a boundary without an edge, are counted; a standby SYNC that misses
three boundaries in a row is LOCKED no more. -/
def Obligations.TickSourcesAreMeasured : Prop :=
  (∀ s pin t, pin < 4 → syncFunction s pin = 1 → sourceEnabled s 2 = true →
    (edgeError s t).natAbs ≤ getO s oTickSyncWindowNs →
    exec (.syncTickEdge pin t) s = .next (Machine.measure 2 (edgeError s t) (atT t s))) ∧
  (∀ s pin t, pin < 4 → syncFunction s pin = 1 → sourceEnabled s 2 = true →
    getO s oTickSyncWindowNs < (edgeError s t).natAbs →
    exec (.syncTickEdge pin t) s = .next (bump (atT t s) oSyncOutOfWindowCount)) ∧
  (∀ s, (∃ p < 4, syncFunction s p = 1) → let out := decide (2 ≤ s.time.sync.missed) && getO s oTickSourceActive != 2
    exec .syncMissed s = .next (bump (setTrack 2 { s.time.sync with
      missed := s.time.sync.missed + 1, good := 0, locked := s.time.sync.locked && !out, seen := s.time.sync.seen && !out } s)
      oSyncMissedCount)) ∧
  (∀ s port master off p t, port < 2 → sourceEnabled s 1 = true → exec (.ptpSync port ⟨.oneStep, master, off⟩ p t) s =
    .next (ptpMeasure port master off p (atT t s).time.now (atT t s))) ∧
  (∀ s port master off p t, port < 2 → sourceEnabled s 1 = true → exec (.ptpSync port ⟨.twoStep, master, off⟩ p t) s =
    .next (ptpMod port (fun x => { x with waits := some (atT t s).time.now }) (atT t s))) ∧
  (∀ s port master off p t rx, port < 2 → sourceEnabled s 1 = true → (ptpPort s port).waits = some rx →
    exec (.ptpSync port ⟨.followUp, master, off⟩ p t) s = .next (ptpMeasure port master off p rx (atT t s))) ∧
  (∀ s port master off p rx,
    let u := ptpMod port (fun _ => { master := master, lastNs := s.time.now, heard := true, waits := none }) s
    ptpMeasure port master off p rx s = if bestPort u = port then
      Machine.measure 1 off { u with time := { u.time with
        ptpPort := port, ptpRef := (p : Int) + (nth 0 s.time.peerDelay port : Nat) - (rx : Int) } }
    else { u with time := { u.time with ptpPort := bestPort u } }) ∧
  (∀ s src e, src = 1 ∨ src = 2 → let t := Machine.measure src e s
    (track t src).good = (if e.natAbs ≤ getO s oTickLockThresholdNs then (track s src).good + 1 else 0) ∧
    (track t src).locked = (track s src).locked ∧ (track t src).missed = 0 ∧ (track t src).lastNs = s.time.now ∧
    (getO t oTickSourceActive = src → getO t oTickPhaseErrorNs = ofSigned 32 e) ∧
    (getO t oTickSourceActive ≠ src → t.time.slewLeft = s.time.slewLeft ∧ t.time.stepDue = s.time.stepDue ∧
      getO t oTickPhaseErrorNs = getO s oTickPhaseErrorNs) ∧
    t.time.tickNo = s.time.tickNo ∧ t.time.tickStart = s.time.tickStart ∧
    t.time.tickLen = s.time.tickLen ∧ t.sched = s.sched ∧ t.dram = s.dram) ∧
  (∀ s port m, port < 2 → exec (.peerDelay port true m) s = .next (emit (.peerDelayResponse port) s)) ∧
  (∀ s port m, port < 2 → exec (.peerDelay port false m) s =
    .next { s with time := { s.time with peerDelay := s.time.peerDelay.set port m } })

/-- The states of the tick source (R30, R31, R557). Sixteen good measurements lock a source; from any state but LOCKED the device
then runs LOCKED to it. A loss of PTP with SYNC locked goes to SYNC, any other loss to HOLDOVER; HOLDOVER ends in FREE after
TickHoldoverLimitMs. What ends ACQUIRING without a lock is the model's choice (log 76): its source stops, and the other one is acquired
where it delivers, and the state before ACQUIRING returns where it does not. -/
def Obligations.TickSourceStates : Prop :=
  (∀ s src t, (src = 1 ∨ src = 2) → 16 ≤ (track s src).good → (track s src).locked = false → getO s oTickSourceState ≠ 2 →
    ∃ u, exec (.sourceLocked src t) s = .next u ∧ getO u oTickSourceState = 2 ∧ getO u oTickSourceActive = src ∧
      (track u src).locked = true ∧ u.time.holdoverFrom = none ∧ u.time.tickNo = s.time.tickNo ∧ u.sched = s.sched) ∧
  (∀ s t, getO s oTickSourceState = 2 → getO s oTickSourceActive = 2 → 16 ≤ s.time.ptp.good → s.time.ptp.locked = false →
    ∃ u, exec (.sourceLocked 1 t) s = .next u ∧ u.time.switchDue = some 1 ∧ u.time.ptp.locked = true ∧
      getO u oTickSourceActive = 2) ∧
  (∀ s t, getO s oTickSourceState = 2 → sourceLost (atT t s) = true → getO s oTickSourceActive = 1 →
    s.time.sync.locked = true → s.time.sync.missed < 3 → ∃ u, exec (.sourceLoss t) s = .next u ∧ getO u oTickSourceState = 2 ∧
      getO u oTickSourceActive = 2 ∧ u.time.ptp.locked = false) ∧
  (∀ s t, getO s oTickSourceState = 2 → sourceLost (atT t s) = true →
    (getO s oTickSourceActive = 2 ∨ s.time.sync.locked = false ∨ 3 ≤ s.time.sync.missed) →
    ∃ u, exec (.sourceLoss t) s = .next u ∧ getO u oTickSourceState = 3 ∧ getO u oTickSourceActive = 0 ∧
      u.time.holdoverFrom = some (max s.time.now (s.time.tickStart + t).toNat)) ∧
  (∀ s t, getO s oTickSourceState = 1 → sourceLost (atT t s) = true → ∃ u, exec (.sourceLoss t) s = .next u ∧
    (delivers (atT t s) (3 - getO s oTickSourceActive) = true →
      getO u oTickSourceState = 1 ∧ getO u oTickSourceActive = 3 - getO s oTickSourceActive) ∧
    (delivers (atT t s) (3 - getO s oTickSourceActive) = false →
      getO u oTickSourceState = (if holdoverLeft (atT t s) then 3 else 0) ∧ getO u oTickSourceActive = 0)) ∧
  (∀ (s : State) (t h : Nat), getO s oTickSourceState = 3 → s.time.holdoverFrom = some h →
    h + 1000000 * getO s oTickHoldoverLimitMs ≤ max s.time.now (s.time.tickStart + (t : Nat)).toNat →
    ∃ u, exec (.holdoverExpired t) s = .next u ∧ getO u oTickSourceState = 0 ∧ getO u oTickSourceActive = 0 ∧
      u.time.holdoverFrom = none)

/-- The tick boundary (R41, R50). Device time reaches the boundary; the commit set is released, generations are freed, writes, pointer
switches and choices take effect, and the grid moves on before the new tick begins. With no placement or regrid due TickNo counts
one on, the next tick starts where this one ends, and its length is the grid's and the servo's correction. The new record stands
open. With the main domains held in reset (R451) the grid and the SYNC pins alone go on (R467). -/
def Obligations.TickBoundaryBeginsATick : Prop :=
  (∀ s, s.boot.porstN = true → s.time.phase = .sealed → s.boot.chip ≠ .tripped →
    let r := reachBoundary s
    let c := snapshots ((r.time.tickNo + 1) % 2 ^ 64) (commitStep r.time.tickNo r)
    let u := applyStep (tokenIds r r.time.tickNo) (freeStep c)
    u.time.tickNo = s.time.tickNo ∧ u.time.tickStart = s.time.tickStart ∧ u.time.tickLen = s.time.tickLen ∧
    ∃ t, exec .tickBoundary s = .next t ∧ t.time.tickNo = (tickStep u).time.tickNo ∧
      t.time.tickStart = (tickStep u).time.tickStart ∧ t.time.tickLen = (tickStep u).time.tickLen ∧
      t.time.phase = (tickStep u).time.phase ∧ t.pending = s.pending) ∧
  (∀ u, u.time.pend = none → u.time.placeDue = false → u.time.ptpStepDue = false → u.time.stepDue = none →
    u.time.switchDue = none → let t := tickStep u
    let n : Int := toSigned 64 (ofSigned 64 (((u.time.tickNo + 1) % 2 ^ 64 : Nat) - (gridNow u).b))
    t.time.tickNo = (u.time.tickNo + 1) % 2 ^ 64 ∧ t.time.tickStart = u.time.tickStart + u.time.tickLen ∧
    t.time.phase = .window ∧ t.time.tickLen = ((gridNow u).t (n + 1) - (gridNow u).t n + slewStep u).toNat ∧
    t.dict = u.dict) ∧
  (∀ s, s.boot.porstN = true → s.time.phase = .sealed → s.boot.chip = .tripped →
    exec .tickBoundary s = .next (syncPulses (tickStep { s with time := { s.time with
      now := max s.time.now (s.time.tickStart + s.time.tickLen).toNat } })))

/-- The marks of a tick (R34, R36, R44, R50). At the admit mark the window closes after the Expediter's round of the rings; at the late
mark every queue is walked; at the check mark the commit set is fixed (empty on a silent chip), the rest is carried, and the
record is sealed and mirrored. The rings are read once in a tick, by the admit mark at the latest. -/
def Obligations.MarksCloseTheirWindows : Prop :=
  (∀ s, s.time.phase = .window → s.boot.porstN = true → ∃ t, exec .admitMark s = .next t ∧ t.time.phase = .planned ∧
    (let u := readRings (atT (getO s oTickAdmitNs) s)
     admitAllowed u = false → t = { u with time := { u.time with phase := .planned } })) ∧
  (∀ s, s.time.phase = .planned → ∃ t, exec .lateMark s = .next t ∧ t.time.phase = .late ∧ t.time.tickNo = s.time.tickNo ∧
    (alive s = false → t.sched = s.sched ∧ t.engine = s.engine)) ∧
  (∀ s, s.time.phase = .late → s.boot.chip ≠ .tripped →
    let a := atT (checkMark s) s
    let f := flagDistress { a with time := { a.time with phase := .sealed } }
    let u := if alive f then f.sched.reqs.foldl (fun s e => checkTokens e.1 e.2 s) f else f
    let set := if alive u then formSet u else []
    let v := lastFlag (carryAll (commitEntries set { u with sched := { u.sched with commitSet := set } }))
    (sealRecord v).record.sealedNow = true ∧ exec .checkMark s = .next (sendMirror (sealRecord v)) ∧
    (sendMirror (sealRecord v)).time.phase = .sealed ∧ (sendMirror (sealRecord v)).time.tickNo = s.time.tickNo) ∧
  (∀ s, s.time.phase = .late → s.boot.chip = .tripped →
    exec .checkMark s = .next (let u := atT (checkMark s) s
      { u with time := { u.time with phase := .sealed } }))

/-- The chain of tick records (R48, R49). Sealing an open record of a chip in service adds it last to the ring, which keeps the last
64; its header holds TickNo, the count of entries, its size and the digest of its entries; its PrevDigest is the one kept from the
record before it, and bytes 24 to 31 are kept for the record after it. -/
def Obligations.SealedRecordsChain : Prop :=
  ∀ s, s.record.sealedNow = false → isSpare s = false → ∃ b, (sealRecord s).record.ring.getLast? = some (s.time.tickNo, b) ∧
    (sealRecord s).record.ring.length ≤ 64 ∧ (sealRecord s).record.sealedNow = true ∧
    fld b 0 8 = s.time.tickNo % 2 ^ 64 ∧ fld b 8 4 = s.record.lengthNs % 2 ^ 32 ∧ byteAt b 15 = 0 ∧
    fld b 16 4 = s.record.entries.length % 2 ^ 32 ∧ fld b 20 4 = b.length % 2 ^ 32 ∧
    sub b 24 32 = sha256 s.record.entries.flatten ∧ sub b 56 8 = padTo 8 s.record.prevDigest ∧
    b.drop 64 = s.record.entries.flatten ∧ (sealRecord s).record.prevDigest = sub b 24 8

/-- The rings (R345, R350, R358, R371). For each of the five kinds, the head of its ring is taken in the admission window: refused with
the status of the first check that fails, or admitted with its plan; its ring's index moves one on either way. A ring at its fault
limit is suspended with FAULT_LIMIT. At the first boundary of a budget window, or where its length changes, every tenant's tokens are the budget, plus a
negative balance. -/
def Obligations.RingEntriesAreTaken : Prop :=
  (∀ s k c t r ix d e, (k, c) ∈ [(0, Instr.run t r ix d), (1, .contextCreate t r ix d), (2, .contextDelete t r ix d),
      (3, .compact t r ix d), (4, .freeze t r ix d)] →
    s.time.phase = .window → admitAllowed s = true → t < 1024 → r < 4 → dKind d = k →
    let u := readRings s
    ringHas u t r = true → (ringGet u t r).consumer = ix → (ringGet u t r).blocked = false → tokenBarred u t = false → cplRoom u t = true →
    judge u t r ix d = .refuse e →
    exec c s = .next (publishConsumer t r (takeRefused t r ix d e u))) ∧
  (∀ s k c t r ix d q pages scratch busy, (k, c) ∈ [(0, Instr.run t r ix d), (1, .contextCreate t r ix d),
      (2, .contextDelete t r ix d), (3, .compact t r ix d), (4, .freeze t r ix d)] →
    s.time.phase = .window → admitAllowed s = true → t < 1024 → r < 4 → dKind d = k →
    let u := readRings s
    ringHas u t r = true → (ringGet u t r).consumer = ix → (ringGet u t r).blocked = false → tokenBarred u t = false → cplRoom u t = true →
    judge u t r ix d = .pass q pages scratch busy →
    let p := planOf u q u.sched.load
    noWait u q pages scratch busy (startSteps u q p).length p = true →
    (if isOversize u q then clustersIdle u p
      else planFits u u.sched.load u.sched.staged u.sched.sieveLoad p (planChain u q p)) = true →
    exec c s = .next (publishConsumer t r (takeAdmitted q pages scratch p (planChain u q p) (isOversize u q) u))) ∧
  (∀ s t r ix d e, (ringGet (takeRefused t r ix d e s) t r).consumer = ((ringGet s t r).consumer + 1) % 2 ^ 32) ∧
  (∀ s t r, t < 1024 → r < 4 → ringAtLimit s t r = true → (ringGet s t r).suspended = false → ∃ u,
    exec (.ringSuspend t r) s = .next u ∧ (ringGet u t r).suspended = true ∧ (ringGet u t r).cause = 3 ∧
    getO u oRingSuspendCount = (getO s oRingSuspendCount + 1) % 2 ^ 64 ∧ u.time = s.time ∧ u.dram = s.dram ∧
    (∀ t' r', (t', r') ≠ (t, r) → t' < 1024 → r' < 4 → ringGet u t' r' = ringGet s t' r')) ∧
  (∀ s, (windowOf s ≠ s.sched.windowStart ∨ getO s oBudgetWindowTicks ≠ s.sched.windowTicks) → ∃ u, exec .budgetWindow s = .next u ∧ u.sched.windowStart = windowOf s ∧
    (∀ n, tokensLeft u n = (getO s (tkey oTenantTokenBudget n) : Int) +
      (if (tenantGet s n).tokens.getD 0 < 0 then (tenantGet s n).tokens.getD 0 else 0)) ∧
    u.sched.reqs = s.sched.reqs ∧ u.dict = s.dict ∧ u.dram = s.dram)

/-- The mirror (R50, R428 to R430). An acknowledged message ends its wait and releases the commit sets held up to its tick, in their
order, unless a snapshot is on its way, which keeps them held. A buddy that has not acknowledged by the boundary after
MIRROR_LATE is given up: the set held first is released, BUDDY_LOST is raised and a snapshot goes to the other buddy. The
buddy's answer to the snapshot releases every set still held and makes it the buddy in use. -/
def Obligations.MirrorReleasesHeldSets : Prop :=
  (∀ s n, (∃ w ∈ s.mirror.wait, w.1 = n) → let u := { s with
      mirror := { s.mirror with wait := s.mirror.wait.filter (fun w => n < w.1) }
      sched := { s.sched with held := s.sched.held.filter (fun h => n < h.1) } }
    (s.mirror.snapshotTo = none → exec (.mirrorAck n) s =
      .next ((s.sched.held.filter (fun h => h.1 ≤ n)).foldl (fun s h => releaseSet h.1 h.2 s) u)) ∧
    (s.mirror.snapshotTo ≠ none → exec (.mirrorAck n) s =
      .next { u with sched := { u.sched with held := s.sched.held.filter (fun h => h.1 ≤ n) ++ u.sched.held } })) ∧
  (∀ s h h2 rest, s.sched.held = h :: h2 :: rest → s.mirror.snapshotTo = none →
    let u := releaseSet h.1 h.2 { s with sched := { s.sched with held := h2 :: rest } }
    let v := raiseFault 0x0124 .none 0 none (mirrorTo u) u
    let dest := if getO v oBuddyAltChipId = 0xFFFF ∨ v.mirror.toAlt then getO v oBuddyChipId else getO v oBuddyAltChipId
    let w := sendAll (cutFrames v opMirrorKv dest true (mirrorKvBytes v [] v.time.tickNo)) v
    exec .buddyLost s = .next { w with mirror := { w.mirror with
      snapshotTo := some dest, wait := [], config := [], sentPages := w.kv.pages } }) ∧
  (∀ s c, s.mirror.snapshotTo.isSome = true → c ≠ 0xFFFF → (c = getO s oBuddyChipId ∨ c = getO s oBuddyAltChipId) →
    exec (.snapshotAcknowledged c) s = .next (s.sched.held.foldl (fun s h => releaseSet h.1 h.2 s) { s with
      mirror := { s.mirror with snapshotTo := none, toAlt := c != getO s oBuddyChipId, wait := [] }
      sched := { s.sched with held := [] } }))

/-- Units on their Griddle (R38, R81, R91, R97, R111, R124, R149, R193, R341, R376 to R379, R384, R414). The running unit goes on with
its next pass, while its tile before may still stand in the latches, or the first ready unit of a free Griddle's queue is
dispatched, unless a header of its segments faults the step; a pass drain compares its checksums, and one that fails
faults the step; the final drain writes the tile's results, unless a check of the Whisk fails; a token step writes its tokens; a
unit of a class below LIVE pauses at the Expediter's word or yields to a ready LIVE unit, and resumes when it stands first; a step
fault replays its request, after the sector's repair where an Ingot block is damaged. -/
def Obligations.UnitsIssueDrainAndPause : Prop :=
  (∀ s g i r u, alive s = true → g < 64 → (physGriddle s g).isSome = true → (∀ t, tileGet s g = some t → t.waitsDrain = false) →
    r.units.find? (fun x => x.step == u.step && x.unit == u.unit) = some u →
    (runningOn s g = some (i, r, u) → reqGet s i = some r → passReady s r u = true →
      exec (.unitIssue g) s = .next (runPass i r u s)) ∧
    (runningOn s g = none → (queueOf s g).find? (fun x => unitReady s x.1 x.2.1 x.2.2) = some (i, r, u) →
      exec (.unitIssue g) s = .next (match headerFault s r u with
        | none => nextPass i u.step u.unit (loadTables u.griddle i r u (dispatch i r u s))
        | some f => useFault f u.griddle i u.step s))) ∧
  (∀ s g t r u n, tileGet s g = some t → t.waitsDrain = true → latchGet s g = none → alive s = true →
    reqGet s t.request = some r → isCompact r = false → r.units.find? (fun x => x.step == t.step && x.unit == t.unit) = some u →
    exec (.passDrain g n) s = .next (loadWhisk g (drainPass g t r u (atT n s)))) ∧
  (∀ s g t r u, let d := stepOf (reqRecipe s r) u.step
    t.subs.any (fun x => passCompare d t.planes x == some false) = true → drainPass g t r u s =
      let v := countCompares d t.planes t.subs (countTile t s)
      stepFaultReplay 0x0110 .griddle ((physGriddle v g).getD 0) t.request t.step 0 v) ∧
  (∀ s g t r u, latchGet s g = some t → alive s = true → tileOwner s t = some (r, u) →
    let rc := reqRecipe s r
    let d := stepOf rc t.step
    let e := drainEnv s g r rc d u (((stepGet r t.step).fmt).getD .a8) t
    exec (.finalDrain g) s = .next (match tileDrain s r e t.subs with
      | .ok l =>
        if l.flatten.any (·.wst.check) then
          stepFaultReplay 0x0111 .whisk ((physGriddle s g).getD 0) t.request t.step 0 s
        else drained rc d u t (latchDel g (applyDrain r u t e l (clearWhisk g s)))
      | .error f => useFault f g t.request t.step s)) ∧
  (∀ s i k r, reqGet s i = some r → isCompact r = false → k < r.steps.length → (stepOf (reqRecipe s r) k).kind = 3 →
    (stepGet r k).complete = false → r.finished = false → depsDone r (stepOf (reqRecipe s r) k) = true →
    inputsDone r (reqRecipe s r) k (stepOf (reqRecipe s r) k) = true → selectAllowed s r = true → alive s = true →
    r.waitSector = [] → (tenantGet s r.tenant).resetting = false →
    let rc := reqRecipe s r
    let d := stepOf rc k
    ∀ t o toks, tensorAt rc d.row = some t → tensorAt rc d.out = some o →
    selectRows s r rc d t = .ok toks →
    exec (.tokenSelect i k) s = .next (settleStep i k (toks.foldl (fun s x =>
      if tensorRows o r.entries ≤ rowPlace rc d r.entries d.out x.1 then s
      else placeWrite o.hint (tensorPlace r o d.out) (rowPlace rc d r.entries d.out x.1 * o.stride) (natLe 4 x.2) s) s))) ∧
  (∀ s g n i r u, runningOn s g = some (i, r, u) → alive s = true → dClass r.desc ≠ 0 →
    exec (.pause g n) s = .next (pauseRunning 0 g (atT n s))) ∧
  (∀ s g n i r u, alive s = true → runningOn s g = none → tileGet s g = none → (physGriddle s g).isSome = true →
    (queueOf s g).find? (fun x => unitReady s x.1 x.2.1 x.2.2) = some (i, r, u) → u.phase = .paused →
    exec (.resume g i u.step u.unit n) s = .next (startUnit i r u (atT n s))) ∧
  (∀ s g n i r u j q v, runningOn s g = some (i, r, u) → alive s = true → dClass r.desc ≠ 0 → dClass q.desc = 0 →
    (queueOf s g).find? (fun x => unitReady s x.1 x.2.1 x.2.2) = some (j, q, v) →
    exec (.liveReadyYield g n) s = .next (pauseRunning 1 g (atT n s))) ∧
  (∀ s (ev : StepFaultEvent) r, reqGet s ev.request = some r → alive s = true → r.refused = false →
    (r.finished = true → r.status = 0) →
    0x0101 ≤ ev.code → ev.code ≤ 0x010C ∨ ev.code = 0x0110 ∨ ev.code = 0x0111 ∨ ev.code = 0x0112 →
    let ingot := ev.code = 0x0109 ∨ ev.code = 0x010A ∨ ev.code = 0x0101
    let v := if ingot then noteIngot ev.code ev.detail (atT ev.time s) else atT ev.time s
    let u := stepFaultReplay ev.code ev.unitKind ev.unitIndex ev.request ev.step ev.detail v
    exec (.stepFault ev) s = .next
      (if ingot ∧ (castGet u r.cast).damaged.any (fun m => m.1 == ev.detail / 1024) then
        reqMod ev.request (fun r => { r with waitSector := r.waitSector.filter (· != ev.detail / 1024) ++ [ev.detail / 1024] }) u
      else u))

/-- A dispatch and a pause (R111, R128, R376, R384, R471). A dispatched unit runs, a paused one with a RESUME entry, and an IDLE chip
is ACTIVE; a unit that pauses stands paused, with one PAUSE entry last in the record that names its place and what
remains of its price. -/
def Obligations.DispatchAndPauseAreRecorded : Prop :=
  (∀ i r u s, (u.phase = .paused →
      (dispatch i r u s).record = (addEntry (pauseEntry 0x04 i u 0 0 0xFFFF 0 (offsetNs s) 0) s).record) ∧
    (u.phase ≠ .paused → (dispatch i r u s).record = s.record) ∧
    (s.boot.chip = .idle → (dispatch i r u s).boot.chip = .active) ∧
    (s.boot.chip ≠ .idle → (dispatch i r u s).boot = s.boot) ∧
    (dispatch i r u s).time = s.time ∧ (dispatch i r u s).dram = s.dram ∧
    ∀ v, unitGet s i u.step u.unit = some v → ∃ a, unitGet (dispatch i r u s) i u.step u.unit =
      some { v with phase := .running, again := a } ∧ (u.phase ≠ .paused → a = u.again)) ∧
  (∀ point cause block g i u s, let t := pausedAt point cause block g i u s
    t.record = (addEntry (pauseEntry 0x03 i u point cause
      (if point = 2 then u.saveSlot.getD 0xFFFF else 0xFFFF) block (offsetNs s) (remaining u)) s).record ∧
    t.time = s.time ∧ t.dram = s.dram ∧
    ∀ v, unitGet s i u.step u.unit = some v → unitGet t i u.step u.unit = some { v with phase := .paused })

/-- Match tables, gated blocks and Sieves (R80, R124, R143 to R145, R153, R156, R285, R288 to R290). The build of the running tile's next
SxS segment puts its lanes' tables into the older of two banks; one that overflows sends its segment to SxD and is counted once; a
gate's drain fixes its active blocks and counts each once in an execution; a missed block's up product is made up once, compared
and drained like any tile; a Sieve builds a table into the first bank that no block uses, or waits; and decodes a block's
record into its queue. -/
def Obligations.SparseAndGatedWork : Prop :=
  (∀ v g at_ i r u l k seg rest e, let s := atT at_ v
    runningOn s g = some (i, r, u) → isCompact r = false →
    tileChoices s r (reqRecipe s r) (stepOf (reqRecipe s r) u.step) u u.tile = .ok l →
    unbuilt s g i (stepOf (reqRecipe s r) u.step) u l = (k, seg) :: rest →
    passEnv s r (reqRecipe s r) (stepOf (reqRecipe s r) u.step) u = .ok e →
    let mine := sget [] s.engine.banks g
    exec (.matchBuildComplete g at_) v = .next (match segmentTables s r e.rc e.d e.g e.sums seg.1 seg.2 with
      | .error f => useFault f g i u.step s
      | .ok none => { bump s oMatchSetOverflowCount with
          engine := { s.engine with overflow := s.engine.overflow ++ [segKey i u k] } }
      | .ok (some t) => { s with engine := { s.engine with
          banks := sput s.engine.banks g ((mine ++ [(⟨segKey i u k, t⟩ : MatchBank)]).drop (mine.length - 1)) } })) ∧
  (∀ s i k u r h, reqGet s i = some r → sfind (stepGet r k).h u = some h → sfind (stepGet r k).active u = none →
    let st := stepGet r k
    let before := (st.active.map (·.2)).flatten
    let new := (activeOf h).filter (fun b => !before.contains b)
    let missed := (new.filter (fun b => !st.predicted.contains b)).length
    let wasted := if st.active.length + 1 = (r.units.filter (fun x => x.step == k)).length then
      (st.predicted.filter (fun b => !(before ++ activeOf h).contains b)).length else 0
    exec (.gateKnown i k u (activeOf h)) s = .next (stepMod i k (fun x => { x with active := sput x.active u (activeOf h) })
      (gateCount (stepOf (reqRecipe s r) k).ref (if st.active.isEmpty then st.predicted.length else 0) new.length missed wasted s))) ∧
  (∀ s ref p a m w, let t := gateCount ref p a m w s
    getO t oGatePredictedBlockCount = (getO s oGatePredictedBlockCount + p) % 2 ^ 64 ∧
    getO t oGateActiveBlockCount = (getO s oGateActiveBlockCount + a) % 2 ^ 64 ∧
    getO t oGateWastedBlockCount = (getO s oGateWastedBlockCount + w) % 2 ^ 64 ∧
    getO t oGateMakeUpBlockCount = (getO s oGateMakeUpBlockCount + m) % 2 ^ 64 ∧
    (sget {} t.sched.gates ref).makeUp = (sget {} s.sched.gates ref).makeUp + m ∧
    (sget {} t.sched.gates ref).active = (sget {} s.sched.gates ref).active + a) ∧
  (∀ s i k u b r act un, reqGet s i = some r → sfind (stepGet r k).active u = some act →
    r.units.find? (fun x => x.step == k && x.unit == u) = some un → b ∈ act → b ∉ (stepGet r k).predicted →
    b ∉ sget [] (stepGet r k).madeUp u → r.finished = false →
    let rc := reqRecipe s r
    let d := stepOf rc k
    exec (.makeUpArrival i k u b) s = .next (match makeUpTile s i r rc d un b with
      | .error e => useFault e un.griddle i k s
      | .ok t =>
        let v := countCompares d false t.subs (countTile t s)
        let subs := t.subs.map (fun x => { x with status := drainStatus d x.status })
        if t.subs.any (fun x => passCompare d false x == some false) then
          stepFaultReplay 0x0110 .griddle ((physGriddle v un.griddle).getD 0) i k 0 v
        else stepMod i k (fun x => { x with
            madeUp := supd [] x.madeUp u (fun l => l ++ [b])
            ups := keepUps u [[b]] subs x.ups })
          (addO (noteDrain i k rc d ((stepGet r k).fmt.getD .a8) true subs v) oGriddleSatTileCount
            (subs.filter (·.status.sat)).length))) ∧
  (∀ s n v j seg at_, sfind (varGet s v).segments j = some seg → n < 36 → segTableOk seg = true →
    let bank : SieveBank := ⟨v, j, byteAt seg 4, headerLens seg, 0⟩
    ∃ t, exec (.sieveTableBuild n v ⟨j, at_⟩) s = .next t ∧ (∀ m, m ≠ n → sieveGet t m = sieveGet s m) ∧
      ((∀ k, (sieveGet s n).bankA = some k → k.refs = 0) →
        sieveGet t n = { sieveGet s n with bankA := some bank, waitSince := none }) ∧
      (∀ k, (sieveGet s n).bankA = some k → k.refs ≠ 0 →
        ((∀ k, (sieveGet s n).bankB = some k → k.refs = 0) →
          sieveGet t n = { sieveGet s n with bankB := some bank, waitSince := none }) ∧
        (∀ k, (sieveGet s n).bankB = some k → k.refs ≠ 0 →
          sieveGet t n = { sieveGet s n with waitSince := some (atT at_ s).time.now }))) ∧
  (∀ s n v b seg p r c new at_, recordOf (varGet s v) b = .ok (some (seg, p, r)) →
    castByRoot s (mRoot (varGet s v).manifest) = some c →
    n < 36 → (r.1.mode = 1 → bankIs v (b / 8192) (byteAt seg 4) (sieveGet s n).bankA = true ∨
      bankIs v (b / 8192) (byteAt seg 4) (sieveGet s n).bankB = true) →
    mergeRecord (headerLens seg) (byteAt seg 4) p r (baseTrits s c b) = .ok new →
    ∃ t, exec (.sieveDecode n v ⟨b, at_⟩) s = .next t ∧
      (sieveGet t n).queue.getLast? = some (v, b / 8192, b, dirsOf (baseTrits s c b) new) ∧
      ((sieveGet s n).queue.length ≤ 512 → (sieveGet t n).queue.length ≤ 512) ∧
      getO t oSieveRecordCount = (getO s oSieveRecordCount + 1) % 2 ^ 64 ∧ (∀ m, m ≠ n → sieveGet t m = sieveGet s m) ∧
      t.sched = s.sched ∧ t.time = s.time ∧ t.dram = s.dram)

/-- Hoppers and Tile Stores (R233 to R236, R238 to R244). A producer writes one burst, with its check bits, at Head of a Hopper that has
room, and stalls else: a DMA producer the burst that it gathers where the order is the model's to form (log 88), any other the
command's; a consumer reads the burst of its pattern, and stalls beyond the filled region, or faults the step on a burst that is
poisoned or that ECC does not correct; binding goes through the steps in dispatch order, and steps that have ended give their
Hoppers back; the scrubber reads the next of 32,768 bursts in turn, and clears an uncorrectable one outside every filled region,
else poisons it; an error again within 1,000 ms of a write-back swaps the Griddle. -/
def Obligations.HoppersCarryBursts : Prop :=
  (∀ s g n d p at_, physGriddle s g = some p → d.length = 64 → (nth {} (storeGet s p).hoppers n).bound = true →
    n < (storeGet s p).hoppers.length → let h := nth {} (storeGet s p).hoppers n
    let u := addO (atT at_ s) oHopperFullStallCycles (stallCycles (atT at_ s) h.fullSince)
    (hopperFill h < hopperBursts h →
      let d' := ((boundPlan u h).bind (fun pl => gathered u h pl h.made)).getD d
      ∃ t, exec (.hopperProducerWrite g n ⟨d, at_⟩) s = .next t ∧
        burstGet (storeGet t p) (hopperBurst h h.head) = d' ∧ burstSound (storeGet t p) (hopperBurst h h.head) = true ∧
        nth {} (storeGet t p).hoppers n = headOn h ∧
        (∀ b, b ≠ hopperBurst h h.head → burstGet (storeGet t p) b = burstGet (storeGet s p) b) ∧
        (∀ q, q ≠ p → storeGet t q = storeGet s q) ∧ t.dict = u.dict ∧ t.dram = s.dram ∧ t.sched = s.sched) ∧
    (hopperBursts h ≤ hopperFill h → exec (.hopperProducerWrite g n ⟨d, at_⟩) s =
      .next (storeMod p (hopperMod n (fun h => { h with fullSince := some u.time.now })) u))) ∧
  (∀ s g n f at_ p pl, physGriddle s g = some p → let h := nth {} (storeGet s p).hoppers n
    h.bound = true → boundPlan s h = some pl → let x := readPlan pl (hopperFmt s h pl)
    let b := hopperBurst h (h.tail + x.place h.offset)
    let u := addO (atT at_ s) oHopperEmptyStallCycles (stallCycles (atT at_ s) h.emptySince)
    let v := modelEnergy (modelUnit 4 p) 3 1 (storeMod p (hopperMod n (fun h => { h with emptySince := none })) u)
    (hopperFill h < x.need h.offset → exec (.hopperConsumerRead g n f at_) s =
      .next (storeMod p (hopperMod n (fun h => { h with emptySince := some u.time.now })) u)) ∧
    (x.need h.offset ≤ hopperFill h → burstSound (storeGet s p) b = true → (nth {} (storeGet v p).hoppers n).bound = true →
      exec (.hopperConsumerRead g n .clean at_) s = .next (delivered p n g pl v)) ∧
    (x.need h.offset ≤ hopperFill h → (f = .uncorrectable ∨ burstSound (storeGet s p) b = false) →
      exec (.hopperConsumerRead g n f at_) s =
      .next (reportError p b (stepFaultReplay 0x0108 .tileStore p h.request h.step 0 (bump v oTileEccUncorrectableCount))))) ∧
  (∀ s g p, physGriddle s g = some p → alive s = true → exec (.hopperBind g) s =
    .next (bindSteps g p ((dispatchOrder s g).take (getO s oPrefetchDepthSteps + 1)) s)) ∧
  (∀ s g p i k, physGriddle s g = some p → stepLeft s g i k = true → ∃ t, exec (.hopperUnbind g) s = .next t ∧
    (∀ h ∈ (storeGet t p).hoppers, h.bound = true → h.request = i → h.step ≠ k) ∧ (∀ q, q ≠ p → storeGet t q = storeGet s q)) ∧
  (∀ s p f n, p < 68 → s.boot.porstN = true → let b := (storeGet s p).scrubAt
    let u := storeMod p (fun t => { t with scrubAt := (b + 1) % 32768 })
      (if b + 1 = 32768 then bump (atT n s) oTileScrubSweepCount else atT n s)
    (f = .clean → burstSound (storeGet s p) b = true → exec (.tileScrub p f n) s = .next u) ∧
    (∀ k, f = .corrected k → burstSound (storeGet s p) b = true → exec (.tileScrub p f n) s = .next (correctBurst p b u)) ∧
    ((f = .uncorrectable ∨ burstSound (storeGet s p) b = false) →
      let v := bump u oTileEccUncorrectableCount
      exec (.tileScrub p f n) s = .next
        (if burstFilled (storeGet v p) b then
          reportError p b (storeMod p (fun t => { t with poison := t.poison.filter (· != b) ++ [b] }) v)
        else noteBack p b (reportError p b (storeMod p (burstPut b (zeros 64)) v))))) ∧
  (∀ s p b, ((∀ e ∈ (storeGet s p).errors, e.1 = b → within s e.2 1000000000 = false) → reportError p b s = s) ∧
    (∀ g, (∃ e ∈ (storeGet s p).errors, e.1 = b ∧ within s e.2 1000000000 = true) →
      logicalOf (raiseFault 0x0120 .tileStore p none b (bump s oTileStoreHardCount)) p = some g →
      reportError p b s = swapGriddle g 0x0120 (raiseFault 0x0120 .tileStore p none b (bump s oTileStoreHardCount))))

/-- The Ingot Store's reads, patrol and repairs (R250, R251, R261, R270 to R274). A read that ECC corrects counts and may queue a refresh;
one that it does not correct, or whose CRC or trits are wrong, damages the sector and faults the reading step, whose request
waits; the patrol reads the next sector of its order and counts a sweep at its end; a refresh and a verified repair write a spare
sector, whose remap comes at the boundary; a sector damaged for RepairLimitTicks raises INGOT_LOST. -/
def Obligations.IngotSectorsAreReadAndRepaired : Prop :=
  (∀ s ibn rd t f, ibn / 1024 < ingotSectors → let l := ibn / 1024
    let w := modelEnergy (modelUnit 7 (dieOf l)) 6 1 (atT t s)
    let crc := blockCrcOk s ibn
    (∀ b, f = .corrected b → b ≤ 8 → exec (.ingotRead ibn f rd t) s = .next
      (let v := corrected l b w
        if crc = false then ingotFault 0x010A ibn rd v else if badTrits v ibn = true then ingotFault 0x0101 ibn rd v else v)) ∧
    (∀ b, f = .retried b → b ≤ 8 → exec (.ingotRead ibn f rd t) s = .next
      (let v := queueRefresh l (corrected l b (bump w oIngotReadRetryCount))
        if crc = false then ingotFault 0x010A ibn rd v else if badTrits v ibn = true then ingotFault 0x0101 ibn rd v else v)) ∧
    (f = .uncorrectable ∨ (∃ b, 8 < b ∧ (f = .corrected b ∨ f = .retried b)) → exec (.ingotRead ibn f rd t) s = .next
      (ingotFault 0x0109 ibn rd (bump w oIngotReadRetryCount))) ∧
    (f = .crcMismatch → exec (.ingotRead ibn f rd t) s = .next (ingotFault 0x010A ibn rd w))) ∧
  (∀ s l c rel, castOfSector s l = some (c, rel) → (∀ x ∈ (castGet s c).damaged, x.1 ≠ l) →
    (castGet (damage l s) c).damaged = (castGet s c).damaged ++ [(l, s.time.tickNo)] ∧
    (castGet (damage l s) c).state = (if (castGet s c).state = 4 then 5 else (castGet s c).state) ∧
    (∀ d, d ≠ c → castGet (damage l s) d = castGet s d) ∧ (damage l s).dict = s.dict) ∧
  (∀ s ibn i k c r, reqGet s i = some r → (ingotFault c ibn (some (i, k)) s) =
    waitFor (ibn / 1024) i (stepFaultReplay c .nvDie (dieOf (ibn / 1024)) i k ibn (noteIngot c ibn s))) ∧
  (∀ s f t l, patrols s = true → patrolNext (patrolRuns s) s.ingot.patrolAt = some l →
    let pos := l % 48 / 4 * ingotSectors + l + 1
    let w := patrolSector l f (atT t s)
    let v := match castOfSector w l with
      | some (c, _) => if (patrolNext [((castGet w c).first, castSpan (castGet w c))] pos).isNone then sweepEnd c w else w
      | none => w
    exec (.patrol f t) s = .next (powerPatrol (if (patrolNext (patrolRuns v) pos).isSome then
        { v with ingot := { v.ingot with patrolAt := pos } }
      else bump { v with ingot := { v.ingot with patrolAt := 0 } } oPatrolSweepCount))) ∧
  (∀ s l n c rel p u, s.ingot.refreshQ.contains l = true → castOfSector s l = some (c, rel) →
    contentOk s c rel (sectorGet s l) = true → spareWrite (dieOf l) (sectorGet s l) n s = (some p, u) →
    exec (.refresh l n) s = .next (bump { u with ingot := { u.ingot with
      refreshQ := u.ingot.refreshQ.filter (· != l)
      remapDue := u.ingot.remapDue ++ [⟨l, p, false⟩] } } oSectorRefreshCount)) ∧
  (∀ s l d n c rel p u, castOfSector s l = some (c, rel) → isSpare s = false → (∃ x ∈ (castGet s c).damaged, x.1 = l) →
    (∀ x ∈ s.ingot.remapDue, x.sector = l → x.repair = false) → d.length = 49152 → pathOk s c rel d = true →
    spareWrite (dieOf l) d n s = (some p, u) → exec (.repairDataArrival l ⟨d, n⟩) s = .next (bump
      { u with ingot := { u.ingot with remapDue := u.ingot.remapDue ++ [⟨l, p, true⟩] } } oSectorRepairCount)) ∧
  (∀ s l t c rel n, castOfSector s l = some (c, rel) → (l, n) ∈ (castGet s c).damaged →
    n + getO s oRepairLimitTicks ≤ s.time.tickNo →
    exec (.ingotLost l t) s = .next (raiseFault 0x0132 .nvDie (dieOf l) none (1024 * l) (atT t s)))

/-- Cast sessions (R256 to R269). A valid manifest opens a session in a free slot, any other is refused with its code; the head moves on; each staged entry writes the
next data sector; once all data and the digest are written, and read
back (free values), with the manifest's root, the slot is verifying; a good read-back makes it READY, or
FACTORY_HELD, and ends the session; any failure ends it with its code and frees the slot. A held cast is adopted where the owner's signature holds, a cast that no
pointer names is deleted at the boundary, and a pointer write waits for the boundary. -/
def Obligations.CastSessionsRun : Prop :=
  (∀ s a m, gate s a oCastOpen m = 0 → m.length = 1024 → s.ingot.session = none →
    let c := (freeCastSlot s).getD 0
    let u := castMod c (fun k => { k with state := 1, manifest := m, first := (findRun s (manifestSpan m)).getD 0 }) s
    let v := setO (setO u oCastStagingTail (getO u oCastStagingHead)) oCastProgressSectors 0
    exec (.castOpen a m) s = .next (answerWrite (
      if castOpenCheck s m = 0 then (0, { v with ingot := { v.ingot with session := some ⟨c, 0, false⟩ } })
      else (castAbortCode (castOpenCheck s m), setO s oCastLastResult (castOpenCheck s m))))) ∧
  (∀ s m, freeCastSlot s = none ∨ findRun s (manifestSpan m) = none → castOpenCheck s m ≠ 0) ∧
  (∀ s a v, gate s a oCastStagingHead (natLe 4 v) = 0 → v < 2 ^ 32 → s.ingot.session.isSome = true →
    (v + 2 ^ 32 - getO s oCastStagingTail % 2 ^ 32) % 2 ^ 32 ≤ getO s oCastStagingEntries →
    (v + 2 ^ 32 - getO s oCastStagingHead % 2 ^ 32) % 2 ^ 32 ≤ getO s oCastStagingEntries →
    exec (.castStagingHead a v) s = .next (answerWrite (0, setO s oCastStagingHead v))) ∧
  (∀ s n x b u, s.ingot.session = some x → x.verifying = false → getO s oCastStagingHead ≠ getO s oCastStagingTail →
    x.next < dataSectors (mBlocks (castGet s x.slot).manifest) → stagingEntry s = some b → entryOk x b = true →
    let m := (castGet s x.slot).manifest
    let c := sectorContent m x.next b
    tilesOk m x.next c = true → sectorWrite ((castGet s x.slot).first + x.next) c n s = (true, u) →
    exec (.stagingEntryConsumed n) s = .next (
      let v := castMod x.slot (fun k => { k with leaves := k.leaves ++ [leafOf x.next c] }) u
      let v := setO (setO v oCastStagingTail ((getO v oCastStagingTail + 1) % 2 ^ 32)) oCastProgressSectors (x.next + 1)
      { v with ingot := { v.ingot with session := some { x with next := x.next + 1 } } })) ∧
  (∀ s x, s.ingot.session = some x → x.verifying = false →
    x.next = dataSectors (mBlocks (castGet s x.slot).manifest) →
    let y := drawMany (digestSectors (dataSectors (mBlocks (castGet s x.slot).manifest))) s
    let w := writeDigest x.slot y.1 y.2
    exec .castDataComplete s = .next (if w.1 = false then endCast 7 w.2
      else if merkleRoot (castGet s x.slot).leaves = mRoot (castGet s x.slot).manifest then
        let v := castMod x.slot (fun k => { k with state := 2 }) w.2
        { v with ingot := { v.ingot with session := some { x with verifying := true } } }
      else endCast 8 w.2)) ∧
  (∀ s x, s.ingot.session = some x → x.verifying = true → castReadsBack s x.slot = true → castRecipesOk s x.slot = true →
    exec (.castVerifyComplete true) s = .next (endCast 1 (castMod x.slot (fun k => { k with
      state := if bits (mFlags (castGet s x.slot).manifest) 1 1 == 1 then 3 else 4 }) s))) ∧
  (∀ s x, s.ingot.session = some x → x.verifying = true → exec (.castVerifyComplete false) s = .next (endCast 9 s)) ∧
  (∀ s x n, s.ingot.session = some x → n ≠ 1 → (endCast n s).ingot.session = none ∧ getO (endCast n s) oCastLastResult = n ∧
    (castGet (endCast n s) x.slot).state = 0 ∧ ∀ d, d ≠ x.slot → castGet (endCast n s) d = castGet s d) ∧
  (∀ s a x, gate s a oCastAbort (natLe 1 x.slot) = 0 → s.ingot.session = some x →
    exec (.castAbort a x.slot) s = .next (answerWrite (0, endCast 11 s))) ∧
  (∀ s a v k, gate s a oCastAdopt v = 0 → s.sec.ownerKey = some k → byteAt v 0 < 64 → allZero (sub v 1 31) = true →
    (castGet s (byteAt v 0)).state = 3 → sub v 32 32 = mRoot (castGet s (byteAt v 0)).manifest →
    exec (.castAdopt a v) s = .next (answerWrite (if ecdsaVerify k (v.take 64) (sub v 64 64) = true then
      (0, castMod (byteAt v 0) (fun k => { k with state := if k.damaged = [] then 4 else 5 }) s) else (abSignature, s)))) ∧
  (∀ s a v, gate s a oCastDelete (natLe 1 v) = 0 → v < 64 → (castsNamed s true).contains v = false →
    3 ≤ (castGet s v).state → (castGet s v).state ≠ 6 →
    exec (.castDelete a v) s = .next (answerWrite (0, castMod v (fun k => { k with state := 6 }) s))) ∧
  (∀ s a p v, p < 64 → gate s a (castPtrKey p) (natLe 1 v) = 0 → castPtrRule s p v = 0 →
    exec (.castPointer a p v) s = .next (answerWrite (makePending a (castPtrKey p) (natLe 1 v) s)))

/-- Variant sessions (R277 to R286, R301). A valid manifest opens a session, any other is refused with its code; the mould pass copies the change list and gives it a place in
the pool; the second pass builds the segments and the slot is ready; a rebuild forms them again; an abort or a failure frees the
slot; a variant that nothing names is deleted at the boundary, and a pointer write waits for the boundary. -/
def Obligations.VariantSessionsRun : Prop :=
  (∀ s a v, gate s a oVariantLoad v = 0 → v.length = 264 → s.vars.session = none →
    let e := varLoadCheck s a (v.take 256) (fld v 256 8)
    let n := (freeVarSlot s).getD 0
    let u := varMod n (fun k => { k with state := 1, manifest := v.take 256 }) s
    exec (.variantLoad a v) s = .next (answerWrite (if e = 0 then (0,
      setO { u with vars := { u.vars with session := some ⟨n, fld v 256 8, listTenant a, false⟩ } } oVariantLoadProgress 0)
      else (varAbort e, setO s oVariantLastResult e))) ∧
    (freeVarSlot s = none → e ≠ 0)) ∧
  (∀ s x c base, s.vars.session = some x → x.moulded = false → (varGet s x.slot).state = 1 → let m := (varGet s x.slot).manifest
    let b := listBytes s x (8 * vmTotal m)
    let n := varBytes (buildSegments s c m (changeList b)) b
    castByRoot s (mRoot m) = some c → sha256 b = vmSource m → changesOk s c (changeList b) = true →
    firstGap (varPool s) n 0 (varRuns s) = some base → exec .mouldPassComplete s = .next (
      let u := varMod x.slot (fun k => { k with changes := b, base := base, bytes := n }) s
      setO { u with vars := { u.vars with session := some { x with moulded := true } } } oVariantLoadProgress (vmTotal m))) ∧
  (∀ s x c, s.vars.session = some x → x.moulded = true → castByRoot s (mRoot (varGet s x.slot).manifest) = some c →
    exec (.secondPassComplete true) s = .next (bump (endVarSession 1 (varMod x.slot (fun k => builtVar s c
      (buildSegments s c (varGet s x.slot).manifest (changeList (varGet s x.slot).changes)) { k with state := 2 }) s)) oVariantLoadCount) ∧
    exec (.secondPassComplete false) s = .next (endVarSession 9 s)) ∧
  (∀ s v c, (varGet s v).rebuilding = true → castByRoot s (mRoot (varGet s v).manifest) = some c →
    exec (.variantRebuildComplete v) s = .next (varMod v (fun k => builtVar s c (buildSegments s c k.manifest (changeList k.changes))
      { k with rebuilding := false }) s)) ∧
  (∀ s a v, gate s a oVariantAbort (natLe 1 v) = 0 → s.vars.session.isSome = true →
    exec (.variantAbort a v) s = .next (answerWrite (0, endVarSession 10 s))) ∧
  (∀ s x n, s.vars.session = some x → n ≠ 1 → (endVarSession n s).vars.session = none ∧
    getO (endVarSession n s) oVariantLastResult = n ∧ (varGet (endVarSession n s) x.slot).state = 0) ∧
  (∀ s a v, gate s a oVariantDelete (natLe 2 v) = 0 → v < 512 → (varGet s v).state ≠ 0 → (varGet s v).state ≠ 1 →
    varNamed s true v = false →
    exec (.variantDelete a v) s = .next (answerWrite (0, varMod v (fun k => { k with state := 4 }) s))) ∧
  (∀ s a p v, p < 1024 → gate s a (varPtrKey p) (natLe 2 v) = 0 → varPtrRule s p v = 0 →
    exec (.variantPointer a p v) s = .next (answerWrite (makePending a (varPtrKey p) (natLe 2 v) s)))

/-- DRAM errors and map-out (R309 to R319, R325). ECC corrects and counts; an uncorrectable burst is rewritten as LOST and its reader's
step faults; failed transactions are counted to four retries, and a fifth failure flags the channel; a flagged channel
enters the map and migrates, or is HELD with its fault when no reserve is left; slices switch one at a time and the last ends the
map-out; a LOST line is restored by the kind of its frame, or fails the requests that wait for it; a read of a DEAD burst fails
its request. -/
def Obligations.DramErrorsAreHandled : Prop :=
  (∀ s a n rd t, liveRange s a 1 = true → pantryHolds s (a / 64) = false → sfind s.dram.marks (a / 64) = none →
    let w := modelEnergy (modelUnit 6 (channelOf s a)) 5 1 (atT t s)
    exec (.dramReadEcc a (.corrected n) rd t) s = .next (bump w oDramEccCorrectedCount) ∧
    exec (.dramReadEcc a .uncorrectable rd t) s = .next (uncorrectable (a / 64) rd w) ∧
    exec (.dramScrub a (.corrected n) t) s = .next (bump w oDramEccCorrectedCount)) ∧
  (∀ s b, sfind s.dram.marks b = none → let t := uncorrectable b none s
    sfind t.dram.marks b = some .lost ∧ (∀ c, c ≠ b → sfind t.dram.marks c = sfind s.dram.marks c) ∧
    t.dram.mem = s.dram.mem ∧ getO t oDramEccUncorrectableCount = (getO s oDramEccUncorrectableCount + 1) % 2 ^ 64 ∧
    getO t oDramLostLineCount = (getO s oDramLostLineCount + 1) % 2 ^ 64) ∧
  (∀ s a t, liveRange s a 1 = true → sfind s.dram.marks (a / 64) = none → exec (.dramScrub a .uncorrectable t) s =
    .next (let u := modelEnergy (modelUnit 6 (channelOf s a)) 5 1 (atT t s)
      markLost (a / 64) (bump (chanMod (channelOf u a) (fun k => { k with ues := noteTime u k.ues }) u)
        oDramEccUncorrectableCount))) ∧
  (∀ s c n rd t, c < 384 → 0 < n → n ≤ 4 → exec (.dramParityRetry c n rd t) s = .next (let u := atT t s
    addO (chanMod c (fun k => { k with retries := noteTime u k.retries }) u) oDramParityRetryCount n)) ∧
  (∀ s c t, c < 384 → exec (.dramParityRetry c 5 none t) s = .next (let u := atT t s
    let d := draw (addO (chanMod c (fun k => { k with retries := noteTime u k.retries }) u) oDramParityRetryCount 4)
    flagChannel c (d.1 % 65536) d.2)) ∧
  (∀ s c t, getO s oChannelUeLimit < recent (atT t s) (chanGet s c).ues →
    exec (.channelFlag c t) s = .next (flagChannel c 0x010C (atT t s))) ∧
  (∀ s c t, recent (atT t s) (chanGet s c).ues ≤ getO s oChannelUeLimit →
    getO s oChannelRetryLimit < recent (atT t s) (chanGet s c).retries →
    exec (.channelFlag c t) s = .next (flagChannel c ((draw (atT t s)).1 % 65536) (draw (atT t s)).2)) ∧
  (∀ s a c, gate s a oChannelMapOut (natLe 2 c) = 0 → c < 384 →
    exec (.channelMapOutWrite a c) s = .next (answerWrite (0, flagChannel c 0 s))) ∧
  (∀ s c k, c < 384 → (chanGet s c).st = 0 → (∀ x ∈ s.dram.flagged, x.1 ≠ c) →
    flagChannel c k s = { s with dram := { s.dram with flagged := s.dram.flagged ++ [(c, k)] } }) ∧
  (∀ s c, s.dram.flagged.any (fun x => x.1 == c) = true → s.dram.migration = none → s.dram.map.length < 16 →
    getO s oDramReserveLeft ≠ 0 → exec (.channelMapOut c) s = .next (
      let u := chanMod c (fun k => { k with st := 1 }) s
      let v := { u with dram := { u.dram with map := u.dram.map ++ [c], migration := some ⟨c, 0, []⟩ } }
      setO v oDramLiveFrames (getO v oDramLiveFrames - 320))) ∧
  (∀ s c, s.dram.flagged.any (fun x => x.1 == c) = true → s.dram.migration = none →
    (getO s oDramReserveLeft = 0 ∨ 16 ≤ s.dram.map.length) → exec (.channelMapOut c) s = .next (
      let u := chanMod c (fun k => { k with st := 3 }) s
      raiseFault 0x0131 .dramChannel c none 0
        { u with dram := { u.dram with flagged := u.dram.flagged.filter (fun x => x.1 != c) } })) ∧
  (∀ s c ah l g p, s.dram.migration = some g → g.channel = c → let i := nextSlice g (pairing s c) ah
    (pairing s c)[i]? = some p →
    let u := l.foldl (fun s l => moveLine p.1 l s) s
    exec (.sliceMove c ⟨ah, l⟩) s = .next (if (pairing s c).length ≤ (switched g i).moved then mapOutDone c u
      else { u with dram := { u.dram with migration := some (switched g i) } })) ∧
  (∀ (g : Migration) p, g.ahead = [] → nextSlice g p none = g.moved ∧ switched g g.moved = { g with moved := g.moved + 1 }) ∧
  (∀ s c ah l g, s.dram.migration = some g → g.channel = c → pairing s c = [] → exec (.sliceMove c ⟨ah, l⟩) s = .next (mapOutDone c s)) ∧
  (∀ s a, sfind s.dram.marks (2 * (a / 128)) = some .lost →
    (frameKind s (frameOf a) = 0 → exec (.lostLineRestore a) s = .next (restoreLine (a / 128) .zero s)) ∧
    (frameKind s (frameOf a) = 2 → exec (.lostLineRestore a) s = .next (failWaiting (a / 128) s)) ∧
    (frameKind s (frameOf a) = 3 ∨ frameKind s (frameOf a) = 4 → getO s oBuddyChipId ≠ 0xFFFF →
      exec (.lostLineRestore a) s = .next (restoreLine (a / 128) .source s)) ∧
    (frameKind s (frameOf a) = 8 → exec (.lostLineRestore a) s =
      .next (restoreLine (a / 128) .source (loseSave ((a - regionBase s 8) / 245760) s)))) ∧
  (∀ s b, sfind s.dram.marks b = some .lost → sfind (restoreBurst b .zero s).dram.marks b = none ∧
    (restoreBurst b .zero s).dram.mem = memPut s.dram.mem (64 * b) (zeros 64)) ∧
  (∀ s a i k, sfind s.dram.marks (a / 64) = some .dead → pantryHolds s (a / 64) = false → (reqGet s i).isSome = true →
    exec (.dramDead a (i, k)) s = .next (failRequest i 0x0034 s))

/-- The Pantry (R305, R324 to R326, R493). An access that its tag does not allow has no effect but its count or its request's status; a
read that nothing stands in the way of gives the bytes of memory and leaves memory as it is; a write puts its bytes; LAST
gives a line and marks both its bursts DEAD; a storage error is corrected and counted, or drops the way's line, LOST where it
was dirty. -/
def Obligations.PantryServesAccesses : Prop :=
  (∀ s tag h a n rd, tagAllows s tag a n = true → readFault s a n = none → ∃ t,
    exec (.pantryAccess tag h a (.read n) rd) s = .next (emit (.memData (devGet s a n)) t) ∧
    t.dram.mem = s.dram.mem ∧ t.kv = s.kv ∧ t.sched = s.sched ∧ t.time = s.time ∧ t.out = s.out) ∧
  (∀ s tag h a d rd, tagAllows s tag a d.length = true → liveRange s a d.length = true →
    exec (.pantryAccess tag h a (.write d) rd) s = .next (memWrite h a d s)) ∧
  (∀ s tag h a n i k, tagAllows s tag a n = false → (reqGet s i).isSome = true →
    exec (.pantryAccess tag h a (.read n) (some (i, k))) s = .next (failRequest i 0x0016 s)) ∧
  (∀ s tag h a d, tagAllows s tag a d.length = false →
    exec (.pantryAccess tag h a (.write d) none) s = .next (bump s oIsolationBlockCount)) ∧
  (∀ s h a d, d ≠ [] → liveRange s a d.length = true → readFault s a d.length = none →
    (memWrite h a d s).dram.mem = (devPut a d s).dram.mem ∧ (memWrite h a d s).kv = (devPut a d s).kv ∧
    (memWrite h a d s).sched = s.sched ∧ (memWrite h a d s).time = s.time ∧ (memWrite h a d s).out = s.out) ∧
  (∀ s a n, (burstsOf a n).any (ownFrames s) = false → devGet s a n = memGet s.dram.mem a n ∧
    ∀ d, d.length = n → devPut a d s = { s with dram := { s.dram with mem := memPut s.dram.mem a d } }) ∧
  (∀ s a rd, readFault s (128 * (a / 128)) 128 = none → ∃ t,
    exec (.last a rd) s = .next (emit (.memData (devGet s (128 * (a / 128)) 128)) t) ∧
    sfind t.dram.marks (2 * (a / 128)) = some .dead ∧ sfind t.dram.marks (2 * (a / 128) + 1) = some .dead ∧
    t.sched = s.sched ∧ t.out = s.out) ∧
  (∀ s k i w n t, k < 64 → i < 2048 → w < 16 →
    exec (.pantryStorageError k i w (.corrected n) t) s = .next (bump (atT t s) oPantryEccCorrectedCount)) ∧
  (∀ s k i w t l, k < 64 → i < 2048 → w < 16 → lineInWay (sget {} s.dram.pantry (setKey k i)) w = some l →
    let u := atT t s
    let v := { u with dram := { u.dram with
      pantry := sset {} u.dram.pantry (setKey k i) (dropLine (sget {} u.dram.pantry (setKey k i)) l.line) } }
    exec (.pantryStorageError k i w .uncorrectable t) s = .next (wayFails k i w
      (if l.dirty then markLost (2 * l.line + 1) (markLost (2 * l.line) v) else v)))

/-- The Pantry's operations (R328, R429). On an aligned target that can be read, each stores the new value that the rule gives at the
target's bytes and nowhere else, counts once, and SWAP and CAS give the old value back; CAS writes only where the target holds
the value compared; on a misaligned target, or one that cannot be read, the core takes its exception and nothing else changes.
A request's REDUCE contribution to another chip is sent once the buddy has acknowledged the request's image, and is held until
then. -/
def Obligations.AtomicsStoreTheirResult : Prop :=
  (∀ s keep a (v : BitVec 32) f c, a % 4 = 0 → readFault s a 4 = none →
    (c, f) ∈ [(Instr.addI32 keep a v, fun o => natLe 4 (o + v.toNat)),
      (.max keep a v, fun o => natLe 4 (ofSigned 32 (max (toSigned 32 o) (toSigned 32 v.toNat)))),
      (.min keep a v, fun o => natLe 4 (ofSigned 32 (min (toSigned 32 o) (toSigned 32 v.toNat))))] →
    let w := devPut a (f (leNat (devGet s a 4))) s
    ∃ t, exec c s = .next t ∧ t.dram.mem = w.dram.mem ∧ t.kv = w.kv ∧
      getO t oPantryAtomicCount = (getO s oPantryAtomicCount + 1) % 2 ^ 64 ∧ t.sched = s.sched ∧ t.time = s.time ∧ t.out = s.out) ∧
  (∀ s keep a (v : BitVec 32), a % 4 = 0 → readFault s a 4 = none → let w := devPut a (natLe 4 v.toNat) s
    ∃ t, exec (.swap keep a v) s = .next t ∧ t.dram.mem = w.dram.mem ∧ t.kv = w.kv ∧
      t.out = s.out ++ [.atomicResult (leNat (devGet s a 4))] ∧ t.sched = s.sched ∧ t.time = s.time) ∧
  (∀ s keep a (c v : BitVec 64), a % 8 = 0 → readFault s a 8 = none → let o := leNat (devGet s a 8)
    let w := devPut a (natLe 8 (if o = c.toNat then v.toNat else o)) s
    ∃ t, exec (.cas keep a c v) s = .next t ∧ t.dram.mem = w.dram.mem ∧ t.kv = w.kv ∧
      t.out = s.out ++ [.atomicResult o] ∧ t.sched = s.sched ∧ t.time = s.time) ∧
  (∀ s keep a b, a % 64 = 0 → readFault s a 64 = none → let o := devGet s a 64
    let w := devPut a ((List.range 16).map (fun i => natLe 4 (fld o (4 * i) 4 + fld b (4 * i) 4))).flatten s
    ∃ t, exec (.reduce keep a ⟨b, none⟩) s = .next t ∧ t.dram.mem = w.dram.mem ∧ t.kv = w.kv ∧
      getO t oPantryReduceCount = (getO s oPantryReduceCount + 1) % 2 ^ 64 ∧ t.sched = s.sched ∧ t.time = s.time) ∧
  (∀ s keep a b p, a % 64 = 0 → (reqGet s p.request).isSome = true →
    (imageWaits s p.request = false → exec (.reduce keep a ⟨b, some p⟩) s = .next (flowSend (reduceFrameOf s p a b) s)) ∧
    (imageWaits s p.request = true → exec (.reduce keep a ⟨b, some p⟩) s = .next { s with mirror := { s.mirror with
      partsHeld := s.mirror.partsHeld ++ [(p.request, reduceFrameOf s p a b)] } })) ∧
  (∀ s keep a (v : BitVec 16), a % 2 = 0 → readFault s a 2 = none →
    let w := devPut a (natLe 2 (l16Add (leNat (devGet s a 2)) v.toNat).1) s
    ∃ t, exec (.addL16 keep a v) s = .next t ∧ t.dram.mem = w.dram.mem ∧ t.kv = w.kv ∧
      getO t oPantryAtomicCount = (getO s oPantryAtomicCount + 1) % 2 ^ 64 ∧ t.sched = s.sched ∧ t.time = s.time) ∧
  (∀ s keep a (v : BitVec 32), a % 4 ≠ 0 ∨ readFault s a 4 ≠ none → let t := emit (.coreFault (a % 4 != 0)) s
    exec (.addI32 keep a v) s = .next t ∧ exec (.swap keep a v) s = .next t)

/-- Device memory reads back (R304, R305): bytes stored read back, and every other byte reads as before. -/
def Obligations.MemoryReadsBack : Prop :=
  ∀ (m : List Host.Cell) (a : Nat) (bs : Bytes), memGet (memPut m a bs) a bs.length = bs ∧
    (∀ x, x < a ∨ a + bs.length ≤ x → memByte (memPut m a bs) x = memByte m x) ∧
    (Memory.wf m → Memory.wf (memPut m a bs))

/-- Sensor samples (R451, R460, R462, R466, R552). A sample of an enabled sensor passes its filter and then has the Pilot's actions;
without a median stage the filter moves by the difference over its power of two, and the value is the filter's over 256; a value of
125 °C or more in a stack or die zone trips the part at once; a board sensor that does not acknowledge keeps its value, and raises
the alert once three reads in a row have failed; a sample of a sensor that is off, or with PORST_N low, does nothing. -/
def Obligations.SensorsAreSampled : Prop :=
  (∀ s n r t, s.boot.porstN = true → sensorOn s n = true → let u := sensorActs n (filterSample n r (atT t s))
    exec (.sensorSample n (some r) t) s =
      .next (setAlert 5 ([62, 63].any (fun i => decide (3 ≤ (sget ({} : Sensor) u.pilot.sensors i).fails))) u)) ∧
  (∀ s n t, s.boot.porstN = true → sensorOn s n = true → n < 62 → exec (.sensorSample n none t) s = .next (atT t s)) ∧
  (∀ s n t, s.boot.porstN = true → sensorOn s n = true → 62 ≤ n → exec (.sensorSample n none t) s = .next (failedRead n (atT t s))) ∧
  (∀ s n r t, s.boot.porstN = false ∨ sensorOn s n = false → exec (.sensorSample n r t) s = .next s) ∧
  (∀ s n (r : Int), medianLen (sensorCfg s n) = 1 → let k := sget ({} : Sensor) s.pilot.sensors n
    let u := filterSample n r s
    let j := sget ({} : Sensor) u.pilot.sensors n
    (k.seen = true → j.y = k.y + shrFloor (256 * r - k.y) (bits (sensorCfg s n) 2 4)) ∧ (k.seen = false → j.y = 256 * r) ∧
    j.value = shrFloor j.y 8 ∧ j.seen = true ∧ j.fails = 0 ∧ getO u (oSensorValue + n) = ofSigned 16 j.value ∧
    (∀ m, m ≠ n → sget ({} : Sensor) u.pilot.sensors m = sget {} s.pilot.sensors m) ∧ u.power = s.power ∧ u.pins = s.pins) ∧
  (∀ s n, let j := sget ({} : Sensor) (failedRead n s).pilot.sensors n
    let k := sget ({} : Sensor) s.pilot.sensors n
    j.fails = k.fails + 1 ∧ j.value = k.value ∧ j.y = k.y) ∧
  (∀ s n, s.pins.tripN = true → n < 48 → 2000 ≤ sensorValue s n → let t := trip s
    sensorActs n s = t ∧ t.pins.tripN = false ∧ t.boot.chip = .tripped ∧ t.sched.commitSet = [] ∧ t.sched.held = [] ∧
    (∀ e ∈ t.links.ports, e.2.st = 0 ∧ e.2.width = 0) ∧ getO t oSurrendered = 1 ∧ t.dram = s.dram ∧ t.ingot = s.ingot ∧
    t.sec = s.sec)

/-- Power and supplies (R443, R447, R454 to R456, R547, R549). A domain that waits for a lower set-point takes the band of its zone and
its rail's regulator is written; a power sample adds to the energy, to the activity model's static part, and to the window, or after the check
mark to the next window; a droop past the threshold is counted and its entry ends a log of the last 256, while an excursion of more
than 50 mV for 10 µs is the supply fault; a supply fault, a clock fault outside start-up and an SMBALERT with a fault status raise
their fault, a clock fault in start-up stops it, and an SMBALERT reads STATUS_WORD. -/
def Obligations.PowerAndSupplies : Prop :=
  (∀ s d, exec (.setPointLower d) s = .next (match zoneTemp s d with
    | some t =>
      if d ∈ s.power.lowering ∧ nth false s.power.domainOn d = true then applyRails { s with power := { s.power with
        band := s.power.band.set d (bandOf s t)
        lowering := s.power.lowering.filter (· != d) } }
      else s
    | none => s)) ∧
  (∀ s mv qa, s.boot.porstN = true → let p := ((List.range 7).map (fun r => nth 0 mv r * nth 0 qa r)).foldl (· + ·) 0
    let u := modelStatic { s with power := { s.power with energy := s.power.energy + p } }
    (s.time.phase = .sealed → exec (.powerSample mv qa) s = .next { u with power := { u.power with
      lateSamples := s.power.lateSamples ++ [p] } }) ∧
    (s.time.phase ≠ .sealed → s.power.samples.length < 1000000 → exec (.powerSample mv qa) s = .next { u with power := { u.power with
      samples := s.power.samples ++ [p] } })) ∧
  (∀ s, ∃ m, modelStatic s = { s with power := { s.power with model := m } }) ∧
  (∀ s rail depth dur, rail < 7 → getO s oDroopThresholdMv < depth → (depth ≤ 50 ∨ dur < 10000) →
    ∃ t, exec (.droop rail depth dur) s = .next t ∧ getO t oDroopCount = (getO s oDroopCount + 1) % 2 ^ 64 ∧
      t.power.droopLog.getLast? = some (natLe 1 rail ++ natLe 1 depth ++ zeros 2 ++ natLe 4 dur ++ natLe 8 s.time.tickNo) ∧
      t.power.droopLog.length ≤ 256 ∧ (∀ k, k ≠ oDroopCount → getO t k = getO s k) ∧ t.faults = s.faults ∧ t.time = s.time) ∧
  (∀ s rail depth dur, rail < 7 → 50 < depth → 10000 ≤ dur → s.boot.porstN = true →
    exec (.droop rail depth dur) s = .next (raiseFault 0x0143 .clockOrSupply rail none 0 s)) ∧
  (∀ s rail depth dur, depth ≤ getO s oDroopThresholdMv → (depth ≤ 50 ∨ dur < 10000) → exec (.droop rail depth dur) s = .next s) ∧
  (∀ s rail t, rail < 7 → s.boot.porstN = true →
    exec (.supplyFault rail t) s = .next (raiseFault 0x0143 .clockOrSupply rail none 0 (atT t s))) ∧
  (∀ s t, s.boot.porstN = true → s.boot.running = true → exec (.clockFault t) s = .next (bootFault 2 (atT t s))) ∧
  (∀ s t, s.boot.porstN = true → s.boot.running = false → exec (.clockFault t) s = .next (raiseFault 0x0142 .clockOrSupply 0 none 0 (atT t s))) ∧
  (∀ s rail w bad t, rail < 7 → s.boot.porstN = true → let u := emit (.pmbus rail 0x79 0) (atT t s)
    let v := { u with pins := { u.pins with regulator := u.pins.regulator.set rail w.toNat } }
    exec (.smbalert rail w bad t) s = .next (if bad then raiseFault 0x0143 .clockOrSupply rail none 0 v else v))

/-- Takeover at the buddy (R431 to R433). TAKEOVER_START of this chip's ward, and WARD_LOST after a probe of 1 ms without an answer,
begin a takeover where none is under way: TakeoverState becomes WAKING and the spares are tried in the order of the list; WARD_LOST
also raises its fault. WARD_MISS probes a ward once it is overdue. A spare that gives no answer is passed over; with no
spare left the takeover fails with its fault. -/
def Obligations.TakeoverBegins : Prop :=
  (∀ s w, w ≠ 0xFFFF → w = getO s oWardChipId → alive s = true → exec (.takeoverStart w) s = .next (beginTakeover s)) ∧
  (∀ s w, w = 0xFFFF ∨ w ≠ getO s oWardChipId → exec (.takeoverStart w) s = .next s) ∧
  (∀ s, getO s oTakeoverState = 0 → beginTakeover s = wakeFrom (getO s oWardChipId) (spareList s) 0 (setO s oTakeoverState 1)) ∧
  (∀ s, getO s oTakeoverState ≠ 0 → beginTakeover s = s) ∧
  (∀ s w i, getO (wakeFrom w [] i s) oTakeoverState = 5) ∧
  (∀ s t, s.mirror.wardTick = some t → getO s oWardChipId ≠ 0xFFFF → s.mirror.wardLost = false → s.mirror.probeAt = none →
    alive s = true → t + 1 + getO s oWardMissTicks ≤ s.time.tickNo →
    exec .wardMiss s =
      .next (probeWard (getO s oWardChipId) { s with mirror := { s.mirror with probeAt := some s.time.now } })) ∧
  (∀ s t, s.mirror.wardTick = some t → s.time.tickNo < t + 1 + getO s oWardMissTicks → exec .wardMiss s = .next s) ∧
  (∀ s t p, s.mirror.probeAt = some p → p + 1000000 ≤ (atT t s).time.now → s.mirror.wardLost = false → alive s = true →
    let u := raiseFault 0x0146 .none 0 none (getO s oWardChipId) (atT t s)
    exec (.wardLost t) s =
      .next (beginTakeover { u with mirror := { u.mirror with wardLost := true, probeAt := none } })) ∧
  (∀ s n, s.mirror.wakeNonce = some n → getO s oTakeoverState = 1 → exec .spareNoAnswer s =
    .next (wakeFrom (getO s oWardChipId) ((spareList s).drop (s.mirror.spareIx + 1)) (s.mirror.spareIx + 1) s))

/-- WAKE at a spare (R406, R472, R489). A verified WAKE with a fresh nonce keeps the nonce, is acknowledged, and starts the exit
to WAKING for the identity it names; one that does not verify, or repeats a nonce, is dropped and counted; while WAKING, one for the
same identity is acknowledged again and changes nothing else. -/
def Obligations.WakeIsAnswered : Prop :=
  (∀ s f p, s.boot.chip = .warmSpare ∨ s.boot.chip = .coldSpare →
    let u := ackWake f p (keepNonce f.operand2 s)
    let v := leaveSpare .coldExit { u with boot := { u.boot with wakeFor := some (f.operand % 65536), spareWanted := none } }
    exec (.wake f p) s = .next (
      if peerRight s f.srcChip 6 = true ∧ wakeVerifies s f = true ∧ anyAsserted s 4 = false ∧ f.operand2 ∉ s.boot.wakeNonces then
        setO (bump v oWakeCount) oTakeoverState 1
      else bump s oWakeRejectCount)) ∧
  (∀ s f p, s.boot.chip = .waking → exec (.wake f p) s = .next (
    if peerRight s f.srcChip 6 = true ∧ wakeVerifies s f = true ∧ anyAsserted s 4 = false ∧
      s.boot.wakeFor = some (f.operand % 65536) then ackWake f p s else bump s oWakeRejectCount)) ∧
  (∀ s f p, wakeVerifies s f = false ∨ peerRight s f.srcChip 6 = false ∨ anyAsserted s 4 = true →
    exec (.wake f p) s = .next (bump s oWakeRejectCount)) ∧
  (∀ s f p, s.boot.chip = .warmSpare ∨ s.boot.chip = .coldSpare → f.operand2 ∈ s.boot.wakeNonces →
    exec (.wake f p) s = .next (bump s oWakeRejectCount)) ∧
  (∀ s f p, s.boot.chip = .active ∨ s.boot.chip = .idle ∨ s.boot.chip = .failed ∨ s.boot.chip = .tripped →
    exec (.wake f p) s = .next (bump s oWakeRejectCount))

/-- The spare takes the ward's place (R433, R436, R438). The copied mirror puts the ward's configuration, contexts with their COMMITTED
slots and no gate history, sound Variants and trackers in force; the identity is assumed with flows cleared, route writes and
FLOW_SYNC sent, and TakeoverState IDENTITY; the takeover is complete once the replay set has ended: the epoch rises by one, a
RECAST entry is recorded, what the images placed is cleared, and the chip serves. -/
def Obligations.SpareTakesTheWardsPlace : Prop :=
  (∀ s w, s.boot.chip = .waking → s.boot.exitFrom = none → s.boot.wakeFor = some w → getO s oTakeoverState = 2 →
    s.mirror.restored = false → let m := Config.mirrorImageOf s.mirror.copied
    let u := m.config.foldl (fun s e => applyNow e.1 e.2 s) s
    exec .mirrorCopied s = .next (dropTentative { u with
      kv := { u.kv with ctxs := smapAll m.ctxs (fun _ c => { c with history := [] }), pages := m.pages }
      vars := { u.vars with slots := soundVariants u m.variants }
      sched := { u.sched with trackers := m.trackers }
      faults := { u.faults with griddleMap :=
        (u.faults.griddleMap.zipIdx).map (fun (x : Option Nat × Nat) => if bits m.outMask x.2 1 = 1 then none else x.1) }
      mirror := { u.mirror with copied := [], restored := true, image := m } })) ∧
  (∀ s, s.boot.chip ≠ .waking ∨ s.boot.wakeFor = none ∨ getO s oTakeoverState ≠ 2 ∨ s.mirror.restored = true →
    exec .mirrorCopied s = .next s) ∧
  (∀ s id, s.boot.wakeFor = some id → s.mirror.restored = true → getO s oTakeoverState = 2 → id < 4096 →
    let u := applyNow oChipId (natLe 2 id) s
    let v := sendRoutes u.mirror.image.routes id { u with
      links := { u.links with tx := [], rx := [] }
      mirror := { u.mirror with formerId := getO s oChipId } }
    exec .identityAssumed s = .next (setO
      (((routedChips v).filter (· != id)).foldl (fun s c => (List.range 7).foldl (fun s k => sendSync c (k + 1) s) s) v)
      oTakeoverState 3)) ∧
  (∀ s, s.boot.wakeFor = none ∨ s.mirror.restored = false ∨ getO s oTakeoverState ≠ 2 → exec .identityAssumed s = .next s) ∧
  (∀ s, getO s oTakeoverState = 3 → s.mirror.begun = true → (∀ i ∈ s.mirror.replaySet, reqGet s i = none) → alive s = true →
    let epoch := (getO s oIdentityEpoch + 1) % 2 ^ 32
    let d := draw (applyNow oIdentityEpoch (natLe 4 epoch) s)
    let u := addEntry (recastEntry 7 (d.1 % 65536) d.2.mirror.formerId (getO d.2 oChipId) 0 epoch) d.2
    let v := setO (setO (bump (u.mirror.image.images.foldl (fun s m => clearPieces m s) u) oTakeoverCount) oTakeoverState 4) oServeEnable 1
    exec .takeoverComplete s = .next { v with
      sched := { v.sched with serving := true }
      boot := { v.boot with wakeFor := none }
      mirror := { v.mirror with replaySet := [], restored := false, begun := false, image := {} } }) ∧
  (∀ s, getO s oTakeoverState ≠ 3 → exec .takeoverComplete s = .next s)

/-- Lanes and the hop (R390, R391, R393, R395). A bad lane of a port in service retrains it on the good ones, or takes it DOWN, and
leaves every other port; retraining puts the port UP or DEGRADED and resends; an ACK frees the replayed frames it covers, gives
credits back and lets waiting frames go; a NAK and a timeout go back to the oldest unacknowledged frame; the ACK timer offers
an ACK. -/
def Obligations.LinkHopsRetry : Prop :=
  (∀ s n l c t, n < 16 → s.faults.failed = false → exec (.laneBad n ⟨l, c⟩ t) s = .next
    (match c with
      | .codewords k => if getO s oLaneUncorrLimit < k then badLane n l (atT t s) else s
      | _ => badLane n l (atT t s))) ∧
  (∀ s n l, (portGet s n).st ≠ 0 → (portGet s n).st ≠ 4 → l < 4 → l ∉ (portGet s n).bad → (portGet s n).mode = 1 →
    let t := badLane n l s
    let bad := (portGet s n).bad ++ [l]
    (portGet t n).bad = bad ∧ (portGet t n).st = (if byariWidth bad = 0 then 0 else 1) ∧ (∀ m, m ≠ n → portGet t m = portGet s m) ∧
      (portGet t n).replay = (portGet s n).replay ∧ t.dram = s.dram ∧ t.sched = s.sched) ∧
  (∀ s n, n < 16 → (portGet s n).st = 1 → s.faults.failed = false → (portGet s n).mode = 1 → let w := byariWidth (portGet s n).bad
    exec (.retrainComplete n) s = .next (drainAll n (goBack n 0
      (portMod n (fun p => { p with st := if w = 0 then 0 else if w = 4 then 2 else 3, width := w }) s)))) ∧
  (∀ s n a v b, n < 16 → s.faults.failed = false → exec (.ack n a v b) s = .next (drainAll n (giveCredit n v b (freeReplay n a s)))) ∧
  (∀ s n a v b, v < (portGet s n).credits.length → let p := portGet (giveCredit n v b (freeReplay n a s)) n
    p.replay = (portGet s n).replay.filter (fun x => !ackCovers a x.1.linkSeq) ∧
    nth 0 p.credits v = nth 0 (portGet s n).credits v + b) ∧
  (∀ s n a, n < 16 → s.faults.failed = false → exec (.nak n a) s = .next (drainAll n (goBack n 0 (freeReplay n a s)))) ∧
  (∀ s n, n < 16 → (portGet s n).replay ≠ [] → exec (.hopTimeout n) s = .next (goBack n 0 s)) ∧
  (∀ s n, (portGet s n).replay = [] → exec (.hopTimeout n) s = .next s) ∧
  (∀ s n, s.faults.failed = false → carries (portGet s n) opPut = true → goBack n 0 s = resendLimit n (resendFrom n 0 s)) ∧
  (∀ s n, n < 16 → (portGet s n).ackDue = true → s.faults.failed = false →
    exec (.ackTimer n) s = .next (offer n (newFrame s opAck 0) s))

/-- Flows (R396, R436). A FLOW_ACK frees what it covers and lets stalled frames go; a FLOW_NAK and a timeout resend what is left,
each counted; FLOW_SYNC discards what is unacknowledged and starts both directions at 0; the destination takes the next frame of a
flow once and acknowledges it, counts a duplicate and applies nothing of it, and answers a run of early frames with one
FLOW_NAK. -/
def Obligations.FlowsAreReliable : Prop :=
  (∀ s c v q, s.faults.failed = false → let k := flowKey c v
    let u := txMod k (fun t => { t with unacked := t.unacked.filter (fun f => !seqLe f.flowSeq q) }) s
    exec (.flowAck c v q) s = .next (flowDrain k (txGet u k).stalled.length (mirrorFlowAck c v q u))) ∧
  (∀ s c v q, s.faults.failed = false → let k := flowKey c v
    let u := txMod k (fun t => { t with unacked := t.unacked.filter (fun f => !seqLe f.flowSeq q) }) s
    let w := flowDrain k (txGet u k).stalled.length (mirrorFlowAck c v q u)
    exec (.flowNak c v q) s = .next ((txGet w k).unacked.foldl (fun s f => routeFrame f (linkBump 4 s)) w)) ∧
  (∀ s c v, s.faults.failed = false → exec (.flowTimeout c v) s =
    .next ((txGet s (flowKey c v)).unacked.foldl (fun s f => routeFrame f (linkBump 4 s)) s)) ∧
  (∀ s c v q, s.faults.failed = false → (s.mirror.wardLost = false ∨ c ≠ getO s oWardChipId) → (txGet s (flowKey c v)).stalled = [] →
    ∃ t, exec (.flowSync c v q) s = .next t ∧ txGet t (flowKey c v) = {} ∧ rxGet t (flowKey c v) = {} ∧
      (∀ k, k ≠ flowKey c v → txGet t k = txGet s k ∧ rxGet t k = rxGet s k) ∧ t.dram = s.dram ∧ t.sched = s.sched) ∧
  (∀ s c v q, s.faults.failed = false → let k := flowKey c v
    let u := rxMod k (fun _ => {}) (txMod k (fun t => { t with next := 0, unacked := [] }) s)
    let w := if s.mirror.wardLost = true ∧ c = getO s oWardChipId then wardBack u else u
    exec (.flowSync c v q) s = .next (flowDrain k (txGet w k).stalled.length w)) ∧
  (∀ s c v q, s.faults.failed = true → exec (.flowAck c v q) s = .next s ∧ exec (.flowNak c v q) s = .next s ∧
    exec (.flowTimeout c v) s = .next s ∧ exec (.flowSync c v q) s = .next s) ∧
  (∀ s f p, let k := flowKey f.srcChip f.vc
    (f.flowSeq = (rxGet s k).next → flowAccept f p s = flowAnswer opFlowAck f f.flowSeq
      (frameEffect f p (rxMod k (fun _ => ⟨(f.flowSeq + 1) % 2 ^ 32, false⟩) s))) ∧
    (f.flowSeq ≠ (rxGet s k).next → seqLe f.flowSeq (rxGet s k).next = true → flowAccept f p s = linkBump 3 s) ∧
    (seqLe f.flowSeq (rxGet s k).next = false → (rxGet s k).nakSent = true → flowAccept f p s = s))

/-- Received frames (R392 to R397, R516, R532). A frame whose length, CRCs or trailer do not hold is counted and answered by one NAK; a
frame with good CRCs acknowledges, gives credits, and is taken where its LinkSeq is the one expected; a frame for another
chip is passed on with one hop less, and at no hop left dropped; a port that is out of service takes nothing. -/
def Obligations.FramesAreReceived : Prop :=
  (∀ s n b t f, n < 16 → (portGet s n).mode = 1 → (portGet s n).st = 2 ∨ (portGet s n).st = 3 ∨ (portGet s n).st = 4 →
    s.faults.failed = false → frameDecode b = some f → exec (.frameReceive n b t) s = .next (frameArrives f n (atT t s))) ∧
  (∀ s n b t, n < 16 → (portGet s n).mode = 1 → (portGet s n).st = 2 ∨ (portGet s n).st = 3 ∨ (portGet s n).st = 4 →
    s.faults.failed = false → frameDecode b = none → exec (.frameReceive n b t) s = .next (nakOnce n (linkBump 1 (atT t s)))) ∧
  (∀ s n b t, (portGet s n).mode ≠ 1 ∨ (portGet s n).st = 0 ∨ (portGet s n).st = 1 → exec (.frameReceive n b t) s = .next s) ∧
  (∀ s n, (portGet s n).nakSent = true → nakOnce n s = s) ∧
  (∀ f n s, opSequenced f.opcode = true → let u := drainAll n (giveCredit n f.creditVc f.creditBursts (freeReplay n f.linkAck s))
    (f.linkSeq = (portGet u n).rxSeq → frameArrives f n s = hopAccepted f n (oweCredit n f
      (portMod n (fun p => { p with rxSeq := (p.rxSeq + 1) % 4096, nakSent := false }) u))) ∧
    (f.linkSeq ≠ (portGet u n).rxSeq → frameArrives f n s = nakOnce n u)) ∧
  (∀ f n s, opVc f.opcode = some f.vc → getO s oChipId ≠ 0xFFFF → (portGet s n).st ≠ 4 → f.destChip ≠ getO s oChipId →
    hopAccepted f n s = if f.hops = 0 then s else routeFrame { f with hops := f.hops - 1 } s) ∧
  (∀ b f, frameDecode b = some f → b.length = 72 + 64 * fld b 2 2 ∧ fld b 2 2 ≤ 64 ∧ f = frameFields b ∧
    (crc16 (b.take 62)).toNat = fld b 62 2 ∧ b.drop (64 + 64 * fld b 2 2) = trailer f)

/-- Frames at their destination (R328, R398, R399, R516). PUT and SLOT_PUT write where the rights of the source and the place
allow, and are denied and counted elsewhere; GET is answered with the bytes, or with an empty answer; ATOMIC acts as
the Pantry's operation and answers where it returns a value; a mirror frame is kept; a peer that cannot give a damaged sector has the next one asked; a DICT frame reads or writes
as its source's access; DICT_RESP closes its request; NOTICE and ATOMIC_RESP are handed on. -/
def Obligations.FramesActAtTheirDestination : Prop :=
  (∀ s f, remoteAllowed s f f.address f.payload.length = true →
    (f.space = 1 → exec (.put f) s = .next (tenantWrite .normal f.tenant f.address f.payload s)) ∧
    (f.space ≠ 1 → exec (.put f) s = .next (memWrite .normal f.address f.payload s))) ∧
  (∀ s f, remoteAllowed s f f.address f.payload.length = false → exec (.put f) s = .next (linkBump 6 s)) ∧
  (∀ s f, let m : Fmt := if f.operand2 % 2 = 0 then .a8 else .a4
    exec (.slotPut f) s = .next (if remoteAllowed s f f.address (f.operand * slotBytes m) then
      putSlots f m (min f.operand (f.payload.length / 64)) 0 f.payload s else linkBump 6 s)) ∧
  (∀ s f d u, getAllowed s f = true → getBytes f s = (some d, u) →
    exec (.get f) s = .next (((cutFrames u opGetData f.srcChip true d).map (fun g => { g with tag := f.tag })).foldl
      (fun s g => flowSend g s) u)) ∧
  (∀ s f, getAllowed s f = false → exec (.get f) s = .next (answerDenied opGetData f (linkBump 6 s))) ∧
  (∀ s f, s.boot.chip = .waking → getO s oTakeoverState = 2 → s.mirror.restored = false → bits f.operand2 63 1 = 0 →
    exec (.getData f) s = .next { s with mirror := { s.mirror with copied := s.mirror.copied ++ [f.payload] } }) ∧
  (∀ s f, bits f.operand2 63 1 = 1 → shas s.ingot.asks (f.tag / 1024) = true →
    exec (.getData f) s = .next (repairDenied f.tag s)) ∧
  (∀ s f, s.boot.chip ≠ .waking → bits f.operand2 63 1 = 0 ∨ shas s.ingot.asks (f.tag / 1024) = false →
    exec (.getData f) s = .next s) ∧
  (∀ s f a o u, f.operand2 % 8 = 3 → remoteAllowed s f f.address (atomicWidth 3) = true → targetOf s f f.address = some a →
    atomicOp 3 false a f.operand 0 [] s = (some o, u) → exec (.atomic f) s =
      .next (flowSend { newFrame u opAtomicResp f.srcChip with operand := o, tag := f.tag } u)) ∧
  (∀ s f a o u, f.operand2 % 8 ≤ 2 → remoteAllowed s f f.address (atomicWidth (f.operand2 % 8)) = true →
    targetOf s f f.address = some a → atomicOp (f.operand2 % 8) false a f.operand 0 [] s = (some o, u) →
    exec (.atomic f) s = .next u) ∧
  (∀ s f, 4 < f.operand2 % 8 → exec (.atomic f) s = .next (linkBump 6 s)) ∧
  (∀ s f, exec (.atomicResp f) s = .next (emit (.atomicResult f.operand) s)) ∧
  (∀ s f, peerAllows s f = true →
    exec (.mirrorKv f) s = .next { s with mirror := { s.mirror with store := s.mirror.store ++ [f.payload] } } ∧
    (f.lastFrame = false →
      exec (.mirrorRecord f) s = .next { s with mirror := { s.mirror with records := joinRecord f s.mirror.records } })) ∧
  (∀ s f, peerAllows s f = false → exec (.mirrorKv f) s = .next (linkBump 6 s) ∧ exec (.mirrorRecord f) s = .next (linkBump 6 s) ∧
    exec (.dict f) s = .next (dictAnswer f abDenied [] (linkBump 6 s))) ∧
  (∀ s f, exec (.notice f) s = .next (emit (.notice f.srcChip (f.operand2 % 2 == 1) f.payload) s)) ∧
  (∀ s f, peerAllows s f = true → ∃ a u, neighbourAccess f s = (a, u) ∧ a.who = .neighbour f.srcChip ∧ a.ctx = .neighbour f.srcChip ∧
    (bits f.operand 24 1 = 1 → exec (.dict f) s = .next (dictWriteFrame f a u)) ∧
    (bits f.operand 24 1 ≠ 1 → exec (.dict f) s = .next (dictRead f a u))) ∧
  (∀ s f, (f.tag, f.srcChip) ∈ s.links.gets → ∃ t, exec (.dictResp f) s = .next t ∧ (f.tag, f.srcChip) ∉ t.links.gets ∧
    t.mirror.probeAt = none ∧ t.links.ports = s.links.ports ∧ t.dict = s.dict ∧ t.dram = s.dram) ∧
  (∀ s f, (f.tag, f.srcChip) ∉ s.links.gets → exec (.dictResp f) s = .next s)

/-- Collectives and ingest (R400 to R403, R437). A REDUCE that repeats what was applied changes nothing but its count; a new one is
applied to its instance, which closes once LAST has come from every other member; a LATE moves the deadlines of its group out,
never in; an instance past its deadline raises COLLECTIVE_TIMEOUT once and stays open. A datagram that passes its checks is
written to its channel's buffer and counted; one that does not is dropped and counted. -/
def Obligations.CollectivesAndIngest : Prop :=
  (∀ s f, reduceAllowed s f = false → exec (.reduceFrame f) s = .next (linkBump 6 s)) ∧
  (∀ s f, reduceAllowed s f = true → reduceOld s f = true → exec (.reduceFrame f) s = .next (bump s oCollectiveDupDropCount)) ∧
  (∀ s f x, reduceAllowed s f = true → reduceOld s f = false → instOf s (reduceKey f) = some x →
    exec (.reduceFrame f) s = .next (applyReduce f x s)) ∧
  (∀ s f, reduceAllowed s f = true → reduceOld s f = false → instOf s (reduceKey f) = none → s.links.insts.length < 256 →
    exec (.reduceFrame f) s = .next (applyReduce f
      ⟨f.tag % 65536, bits f.tag 16 32, [], [], s.time.tickNo + getO s oCollectiveTimeoutTicks, false⟩ s)) ∧
  (∀ s f x, f.payload = [] → f.signal = false → f.lastFrame = true → f.srcChip ∉ x.lasts →
    applyReduce f x s = (if instDone s { x with lasts := x.lasts ++ [f.srcChip] } then
      closeInst { x with lasts := x.lasts ++ [f.srcChip] } s else putInst { x with lasts := x.lasts ++ [f.srcChip] } s)) ∧
  (∀ s f, ∃ t, exec (.late f) s = .next t ∧
    t.links.insts.map (fun x => (x.group, x.instNo, x.ends, x.lasts, x.timedOut)) =
      s.links.insts.map (fun x => (x.group, x.instNo, x.ends, x.lasts, x.timedOut)) ∧
    t.links.insts.map (·.deadline) = s.links.insts.map (fun x => if x.group = f.operand2 % 65536 then
      max x.deadline (f.operand + bits f.operand2 16 16 + getO s oCollectiveTimeoutTicks) else x.deadline) ∧
    t.dram = s.dram ∧ t.links.ports = s.links.ports ∧ t.time = s.time) ∧
  (∀ s g n t x, instOf s (g, n) = some x → x.timedOut = false → x.deadline ≤ s.time.tickNo → alive s = true →
    exec (.collectiveTimeout g n t) s = .next (putInst { x with timedOut := true } (raiseFault 0x0125 .none 0 none 0 (atT t s)))) ∧
  (∀ s g n t x, instOf s (g, n) = some x → x.timedOut = true ∨ s.time.tickNo < x.deadline →
    exec (.collectiveTimeout g n t) s = .next s) ∧
  (∀ s d, ingestPort s d.port = true → d.udpPort = getO s oIngestUdpPort → s.faults.failed = false → ingestOk s d = false →
    exec (.ingestDatagram d) s = .next (linkBump 10 s)) ∧
  (∀ s d, ingestPort s d.port = true → d.udpPort = getO s oIngestUdpPort → s.faults.failed = false → ingestOk s d = true →
    let ch := byteAt d.payload 0
    let c := getS s (oIngestChannel + ch)
    let u := tenantWrite .normal (fld c 0 2) (fld c 8 8 + 64 * fld d.payload 8 4) (d.payload.drop 32) s
    ∀ a, translate u (fld c 0 2) (fld c 24 8) = some a → exec (.ingestDatagram d) s =
      .next (linkBump 9 (ingestGap ch (fld d.payload 4 4) (atomicOp 0 false a (byteAt d.payload 1) 0 [] u).2))) ∧
  (∀ s d, ingestPort s d.port = false ∨ d.udpPort ≠ getO s oIngestUdpPort → exec (.ingestDatagram d) s = .next s)

/-- The Whisk's integer instructions (R168, R169, R171, R192): IADD, ISUB, INEG, IABS, IMIN, IMAX, SHL and SHR form their exact result,
clamp it to 32 bits and set CLIP where that changes it; SHR rounds towards minus infinity for every amount. A lane whose entries
have their residues keeps them, and on such lanes and tables with their parity the residue predicted for each exact result is
its own: no instruction's checks fail. -/
def Obligations.WhiskIntegersClamp : Prop :=
  (∀ w d a b n i (x : Lane → Int), (i, x) ∈ [(Instr.iadd w d a b, fun l : Lane => l.int a.val + l.int b.val),
      (.isub w d a b, fun l => l.int a.val - l.int b.val), (.ineg w d a, fun l => -l.int a.val),
      (.iabs w d a, fun l => |l.int a.val|), (.imin w d a b, fun l => min (l.int a.val) (l.int b.val)),
      (.imax w d a b, fun l => max (l.int a.val) (l.int b.val)), (.shl w d a n, fun l => l.int a.val * 2 ^ shiftAmt n l),
      (.shr w d a n, fun l => (l.int a.val).fdiv (2 ^ shiftAmt n l))] →
    let y := fun l : Lane => max (-2147483648) (min 2147483647 (x l))
    LanesDo i w (fun _ _ _ l => l.setReg d.val (BitVec.ofInt 32 (y l)))
      (fun _ fr => { clip := fr.lanes.any (fun l => wLive w l && x l != y l) })) ∧
  (∀ (l : Lane) d x r, l.res.length = l.v.length → l.regOk r = true → (l.setReg d x).regOk r = true) ∧
  (∀ env i (l : Lane), (∀ r, l.regOk r = true) → (∀ m, l.maskOk m = true) → (∀ t a, tabParityOk env t a = true) →
    laneBad env i l = false)

/-- The Whisk's moves and bit instructions (R168, R169, R171, R181): MOV, CON, IDX, SEL, SHRU, AND, OR, XOR and DRAW write a register
and set no status; NOP leaves every lane; SHRU shifts zeros in, for every amount. -/
def Obligations.WhiskMovesAndBits : Prop :=
  (∀ w d a b m k n g i (x : Whisk → Frame → Nat → Lane → Word), (i, x) ∈ [
      (Instr.mov w d a, fun (_ : Whisk) (_ : Frame) (_ : Nat) (l : Lane) => l.reg a.val),
      (.con w d k, fun e _ _ _ => nth 0 e.env.k k.val), (.idx w d .lane, fun _ _ j _ => BitVec.ofNat 32 j),
      (.idx w d .column, fun _ fr j _ => BitVec.ofNat 32 (240 * fr.part + j)),
      (.idx w d .rowPosition, fun _ fr _ _ => BitVec.ofNat 32 fr.position),
      (.idx w d .blockIndex, fun _ fr _ _ => BitVec.ofNat 32 fr.part), (.idx w d .xe, fun _ _ _ l => BitVec.ofInt 32 l.xe),
      (.sel w d a b m, fun _ _ _ l => if l.mask m.val then l.reg a.val else l.reg b.val),
      (.shru w d a n, fun _ _ _ l => l.reg a.val >>> shiftAmt n l),
      (.and w d a b, fun _ _ _ l => l.reg a.val &&& l.reg b.val), (.or w d a b, fun _ _ _ l => l.reg a.val ||| l.reg b.val),
      (.xor w d a b, fun _ _ _ l => l.reg a.val ^^^ l.reg b.val),
      (.draw w d g, fun _ fr j _ => BitVec.ofNat 32 (dither32 fr.key (ditherCtr fr.position (240 * fr.block + j) g.toNat)))] →
    LanesDo i w (fun e fr j l => l.setReg d.val (x e fr j l)) (fun _ _ => {})) ∧
  (∀ w, LanesDo (.nop w) w (fun _ _ _ l => l) (fun _ _ => {}))

/-- The Whisk's comparisons and mask instructions (R75, R165, R168, R169): each writes its mask, M0 excepted, and sets no status. -/
def Obligations.WhiskMasksAreWritten : Prop :=
  ∀ w m a b p q neg i (x : Lane → Bool), (i, x) ∈ [(Instr.iclt w m a b, fun l : Lane => decide (l.int a.val < l.int b.val)),
      (.iceq w m a b, fun l => l.int a.val == l.int b.val), (.inz w m a, fun l => l.int a.val != 0),
      (.lclt w m a b, fun l => decide (l16Key (l.l16 a.val) < l16Key (l.l16 b.val))),
      (.lceq w m a b, fun l => l16Key (l.l16 a.val) == l16Key (l.l16 b.val)),
      (.lcinf w m a neg, fun l => l.l16 a.val == (if neg then 0xFFFF else 0x7FFF)),
      (.mand w m p q, fun l => l.mask p.val && l.mask q.val), (.mor w m p q, fun l => l.mask p.val || l.mask q.val),
      (.mxor w m p q, fun l => l.mask p.val != l.mask q.val), (.mnot w m p, fun l => !l.mask p.val)] →
    LanesDo i w (fun _ _ _ l =>
      let r := l.mres.set m.val (if x l = true then 1 else 0)
      if m = 0 then l else if m = 1 then { l with m1 := x l, mres := r } else
        if m = 2 then { l with m2 := x l, mres := r } else { l with m3 := x l, mres := r }) (fun _ _ => {})

/-- The Whisk's L16 instructions, conversions and tables (R168, R169, R172 to R176, R179): each writes the result code into bits 15 to 0
of the register and zeros above, and sets CLIP or TABEDGE where some live lane's operation does; LTOI writes its integer; BCAST
writes a slot's result, clamped, or its count. -/
def Obligations.WhiskLogarithms : Prop :=
  (∀ w d a b (j : BitVec 10) i (x : Lane → Nat × Bool), (i, x) ∈ [
      (Instr.ladd w d a b, fun l : Lane => l16Add (l.l16 a.val) (l.l16 b.val)), (.lsub w d a b, fun l => l16Sub (l.l16 a.val) (l.l16 b.val)),
      (.lmul w d a b, fun l => l16Mul (l.l16 a.val) (l.l16 b.val)), (.ldiv w d a b, fun l => l16Div (l.l16 a.val) (l.l16 b.val)),
      (.lneg w d a, fun l => (l16NegOp (l.l16 a.val), false)), (.labs w d a, fun l => (l16AbsOp (l.l16 a.val), false)),
      (.lmax w d a b, fun l => (l16Max (l.l16 a.val) (l.l16 b.val), false)),
      (.lmin w d a b, fun l => (l16Min (l.l16 a.val) (l.l16 b.val), false)),
      (.lscl w d a j, fun l => l16Scl (l.l16 a.val) j.toInt), (.lexp w d a, fun l => l16Exp (l.l16 a.val)),
      (.itol w d a j, fun l => itolAt (l.int a.val) (l.xe + j.toInt))] →
    LanesDo i w (fun _ _ _ l => l.setReg d.val (BitVec.ofNat 32 (x l).1))
      (fun _ fr => { clip := fr.lanes.any (fun l => wLive w l && (x l).2) })) ∧
  (∀ w d a b (e : BitVec 8) mode, let x := fun l : Lane => ltoiAt (l.l16 a.val) e.toInt (roundCode mode) (l.reg b.val).toNat
    LanesDo (.ltoi w d a b e mode) w (fun _ _ _ l => l.setReg d.val (BitVec.ofInt 32 (x l).1))
      (fun _ fr => { clip := fr.lanes.any (fun l => wLive w l && (x l).2) })) ∧
  (∀ w d a n, let x := fun (k : Whisk) (l : Lane) => tabVal (nth {} k.env.cfg n.val) (nth [] k.env.tables n.val) (l.l16 a.val)
    LanesDo (.tab w d a n) w (fun k _ _ l => l.setReg d.val (BitVec.ofNat 32 (x k l).1))
      (fun k fr => { tabEdge := fr.lanes.any (fun l => wLive w l && (x k l).2) })) ∧
  (∀ w d n, let x := fun fr : Frame => slotResult (nth {} fr.slots n.val)
    LanesDo (.bcast w d n false) w (fun _ fr _ l => l.setReg d.val (BitVec.ofInt 32 (max (-2147483648) (min 2147483647 (x fr)))))
      (fun _ fr => { clip := fr.lanes.any (fun l => wLive w l && max (-2147483648) (min 2147483647 (x fr)) != x fr) })) ∧
  (∀ w d n, LanesDo (.bcast w d n true) w
    (fun _ fr _ l => l.setReg d.val (BitVec.ofNat 32 (nth {} fr.slots n.val).count)) (fun _ _ => {}))

/-- The Whisk's reductions (R185, R186). Each of the ten completes: a RED of BLOCK scope folds the live lanes of its frame afresh; one of ROW
scope goes on with its row's slot, which every frame of the row then holds; lanes stay as they are. A BLOCK slot holds the number of
lanes that took part, SUM_I their exact sum, MAX_I and MIN_I their extremes, ARGMAX_I the lowest lane that holds the maximum, SUM_L
their LADD fold from 0 in lane order. -/
def Obligations.WhiskReductionsFold : Prop :=
  (∀ s w slot a sc c op, whiskAt s w = true → (c, op) ∈ [(Instr.sumI w slot a sc, RedOp.sumI), (.sumL w slot a sc, .sumL),
      (.maxI w slot a sc, .maxI), (.maxL w slot a sc, .maxL), (.minI w slot a sc, .minI), (.minL w slot a sc, .minL),
      (.argmaxI w slot a sc, .argmaxI), (.argmaxL w slot a sc, .argmaxL), (.count w slot a sc, .count),
      (.meanL w slot a sc, .meanL)] →
    exec c s = .next (afterCheck c w s (whiskMod w.whisk (fun k =>
      let fr := sget Frame.idle k.frames w.frame
      let r := opRed w op slot a sc fr
      { k with
        frames := (match sc with
          | .block => sput k.frames w.frame r.1
          | .row => (rowFrames k w.frame).foldl (fun m e =>
              sput m e.1 { e.2 with slots := e.2.slots.set slot.val (nth {} r.1.slots slot.val) }) (sput k.frames w.frame r.1))
        status := k.status.or r.2 }) s))) ∧
  (∀ w op (slot : Fin 4) (a : Fin 16) (fr : Frame), slot.val < fr.slots.length → let live := fr.lanes.filter (wLive w)
    let f := (opRed w op slot a .block fr).1
    let x := nth {} f.slots slot.val
    f.lanes = fr.lanes ∧ x.count = live.length ∧ (∀ n, n ≠ slot.val → f.slots[n]? = fr.slots[n]?) ∧
    (op = .sumI → slotResult x = (live.map (fun l => l.int a.val)).sum) ∧
    (op = .sumL → slotResult x = ((live.map (fun l => l.l16 a.val)).foldl (fun u c => (l16Add u c).1) 0 : Nat)) ∧
    (op = .maxI → live ≠ [] → (∃ l ∈ live, slotResult x = l.int a.val) ∧ ∀ l ∈ live, l.int a.val ≤ slotResult x) ∧
    (op = .minI → live ≠ [] → (∃ l ∈ live, slotResult x = l.int a.val) ∧ ∀ l ∈ live, slotResult x ≤ l.int a.val) ∧
    (op = .argmaxI → live ≠ [] → ∃ n l, slotResult x = (n : Nat) ∧ fr.lanes[n]? = some l ∧ wLive w l = true ∧
      (∀ j k, fr.lanes[j]? = some k → wLive w k = true → k.int a.val ≤ l.int a.val ∧ (j < n → k.int a.val < l.int a.val))))

/-- When no lane takes part, a reduction returns its identity with a count of 0 and sets EMPTY (R187): for each code of the table, in
BLOCK scope as the command runs on the machine, and in ROW scope over all the frames of a row. -/
def Obligations.EmptyReductionsGiveTheirIdentity : Prop :=
  ∀ w slot a n (v : Int), (n, v) ∈ [(0, 0), (1, 0), (2, -0x80000000), (3, 0xFFFF), (4, 0x7FFFFFFF), (5, 0x7FFF), (6, 0xFFFF),
      (7, 0xFFFF), (8, 0), (9, 0x0000)] →
    (∀ s c, redOf w n slot a .block = some c → whiskAt s w = true → whiskBad w c (sget {} s.engine.whisks w.whisk) = false →
      slot.val < (frameAt s w).slots.length →
      (∀ l ∈ (frameAt s w).lanes, wLive w l = false) → ∃ t, exec c s = .next t ∧
        slotResult (nth {} (frameAt t w).slots slot.val) = v ∧ (nth {} (frameAt t w).slots slot.val).count = 0 ∧
        (sget {} t.engine.whisks w.whisk).status.empty = true) ∧
    (∀ c env frs, redOf w n slot a .row = some c → (∀ fr ∈ frs, slot.val < fr.slots.length ∧ ∀ l ∈ fr.lanes, wLive w l = false) →
      (∀ fr ∈ (whiskRow env c frs).1, slotResult (nth {} fr.slots slot.val) = v ∧ (nth {} fr.slots slot.val).count = 0) ∧
      (whiskRow env c frs).2.empty = true)

/-- M0 is read-only, and a lane whose M0 is 0 is out of the program (R165): no instruction writes it, on any of the frames of a row; what it
holds changes no reduction and no SOFTMAX; and the packer writes 0 for it, whichever OutKind the program has. -/
def Obligations.MaskedLanesStay : Prop :=
  (∀ env i (frs : List Frame), (∀ fr ∈ frs, fr.lanes.length = 240) → (whiskRow env i frs).1.length = frs.length ∧
    ∀ (n j : Nat) (fr : Frame) (l : Lane), frs[n]? = some fr → fr.lanes[j]? = some l →
      ∃ (fr' : Frame) (l' : Lane), (whiskRow env i frs).1[n]? = some fr' ∧ fr'.lanes[j]? = some l' ∧ l'.m0 = l.m0 ∧ (l.m0 = false → l' = l)) ∧
  (∀ w op a sc (fr : Frame) x v, let other := { fr with lanes := fr.lanes.map (fun l => if l.m0 then l else { l with v := v }) }
    redFrame w op a sc other x = redFrame w op a sc fr x ∧ softIns w a other = softIns w a fr) ∧
  (∀ h l q draw (vs : List OutVal) (n : Nat), l.m0 = false → vs[n]? = some (laneOut h l) → (∀ v ∈ vs, ∃ k, v = laneOut h k) → (∀ j, draw j < 2 ^ 64) →
    (packVals q draw vs).elems[n]? = some 0)

/-- SPLIT and SOFTMAX (R168, R169, R189). SPLIT begins the next phase of each of its row's frames. SOFTMAX writes the outputs of its scope to the
lanes whose M0 is set. With nothing live above minus infinity the outputs are 0 and EMPTY is set; with entries at plus infinity each
takes an equal share and the rest 0; else each live lane takes its exponential over their sum. -/
def Obligations.SplitAndSoftmax : Prop :=
  (∀ s w, whiskAt s w = true → exec (.split w) s = .next (afterCheck (.split w) w s (whiskMod w.whisk (fun k => { k with
    frames := ((rowFrames k w.frame).map (fun e => (e.1, { e.2 with phase := e.2.phase + 1 }))).foldl (fun m e => sput m e.1 e.2) k.frames
    status := k.status.or {} }) s))) ∧
  (∀ s w d a, whiskAt s w = true → exec (.softmax w d a .row) s = .next (afterCheck (.softmax w d a .row) w s (whiskMod w.whisk (fun k =>
    let row := rowFrames k w.frame
    let r := softmaxFrames w d a (row.map (·.2))
    { k with
      frames := ((row.map (·.1)).zip r.1).foldl (fun m e => sput m e.1 e.2) k.frames
      status := k.status.or r.2 }) s))) ∧
  (∀ s w d a, whiskAt s w = true → exec (.softmax w d a .block) s = .next (afterCheck (.softmax w d a .block) w s (whiskMod w.whisk (fun k =>
    let fr := sget Frame.idle k.frames w.frame
    let r := softmaxOut (softIns w a fr)
    { k with
      frames := sput k.frames w.frame (softWrite d (r.1.take 240) fr)
      status := k.status.or r.2 }) s))) ∧
  (∀ xs, (∀ c, some c ∈ xs → c = 0xFFFF) → softmaxOut xs = (xs.map (fun _ => 0), { empty := true })) ∧
  (∀ xs, some 0x7FFF ∈ xs → let n : Nat := (xs.filter (· == some 0x7FFF)).length
    softmaxOut xs = (xs.map (fun x => if x = some 0x7FFF then (l16Div 0x4000 (itolAt n 0).1).1 else 0), {})) ∧
  (∀ xs, some 0x7FFF ∉ xs → (∃ c, some c ∈ xs ∧ c ≠ 0xFFFF) → let mx := (xs.filterMap id).foldl l16Max 0xFFFF
    let e := fun x : Option Nat => match x with
      | none => 0
      | some c => (l16Exp (l16Sub c mx).1).1
    let sum := xs.foldl (fun u x => (l16Add u (e x)).1) 0
    (softmaxOut xs).1 = xs.map (fun x => if x = none then 0 else (l16Div (e x) sum).1) ∧ (softmaxOut xs).2.empty = false)

/-- A step runs the command at the front of the queue, on the state with the queue's rest; on an empty queue the block idles (the
queue and the idling are the model's: assumption log 2). -/
def Obligations.StepRunsFrontCommand : Prop :=
  (∀ (s : State) c rest, s.pending = c :: rest → step s = exec c { s with pending := rest }) ∧
  (∀ s : State, s.pending = [] → step s = .next s)

/-- Every command completes on every state with any operands: it answers a next state, and leaves the queue of waiting commands as
it is. No command of the table faults or is refused. -/
def Obligations.EveryCommandCompletes : Prop :=
  ∀ c s, ∃ t, exec c s = .next t ∧ t.pending = s.pending

/-- DRAM stays in its one canonical form: from every state that has it, any step leads to a state that has it (the form is the
model's: equal memories are equal data). -/
def Obligations.MemoryStaysCanonical : Prop :=
  ∀ s t, MemoryCanonical s → step s = .next t → MemoryCanonical t

/-- The logs of the part stay within the bounds that the spec gives them (R49, R413, R454, R489): 256 fault entries, 64 records,
256 droops and 64 accepted WAKE nonces. From every state within them, any step leads to a state within them. -/
def Obligations.LogsStayBounded : Prop :=
  ∀ s t, LogsBounded s → step s = .next t → LogsBounded t

/-- The owner key cannot be replaced or removed for the life of the part (R481): no command, not even a reset or the loss of power,
changes an owner key once one is installed. -/
def Obligations.OwnerKeyIsPermanent : Prop :=
  ∀ s t k, s.sec.ownerKey = some k → step s = .next t → t.sec.ownerKey = some k

/-- Only power, the marks and boundary of the tick, and writes of the dictionary move the tick in progress (R22, R23, R41, R53). Every other
command leaves its number, start, length and phase, leaves PORST_N, and never turns device time back. -/
def Obligations.OnlyTickCommandsMoveTheTick : Prop :=
  ∀ c s t, exec c s = .next t → match c with
    | .porstNRise | .porstNFall | .alwaysOnRailLoss _ => True
    | .tickBoundary | .admitMark | .lateMark | .checkMark => True
    | .write _ | .dictWrite _ _ _ _ | .coreMailboxRequest _ _ _ | .dict _ | .frameReceive _ _ _ => True
    | _ => t.time.tickNo = s.time.tickNo ∧ t.time.tickStart = s.time.tickStart ∧ t.time.tickLen = s.time.tickLen ∧
        t.time.phase = s.time.phase ∧ t.boot.porstN = s.boot.porstN ∧ s.time.now ≤ t.time.now

/-- The part at reset (R44, R49, R413, R496): its queue is empty, its memory and logs have their forms, it holds no owner and no key, no ring
is enabled, nothing is admitted, no link carries, TRIP_N is high and every number of the dictionary reads its default. -/
def Obligations.ResetStateHolds : Prop :=
  State.reset.pending = [] ∧ MemoryCanonical State.reset ∧ LogsBounded State.reset ∧ State.reset.sec.ownerKey = none ∧
    State.reset.sec.keys = [] ∧ State.reset.sched.reqs = [] ∧ (∀ n, (portGet State.reset n).st = 0) ∧
    State.reset.pins.tripN = true ∧ ∀ k, getO State.reset k = objDefault k

/-- A Whisk instruction's word reads back (R167, R169, R185): the first word of every instruction that an element program can hold decodes to
that instruction, with every operand at every value its field can take. -/
def Obligations.WhiskWordsReadBack : Prop :=
  ∀ i x xs, whiskEncode i = x :: xs → (match i with
    | .nop w | .split w => w.predInv = false ∨ w.predSel ≠ 0
    | .iclt w m _ _ | .iceq w m _ _ | .inz w m _ | .lclt w m _ _ | .lceq w m _ _ | .lcinf w m _ _ | .mand w m _ _ | .mor w m _ _
    | .mxor w m _ _ | .mnot w m _ => m ≠ 0 ∧ (w.predInv = false ∨ w.predSel ≠ 0)
    | .ltoi w _ _ b _ mode => (mode = .dither ∨ b = 0) ∧ (w.predInv = false ∨ w.predSel ≠ 0)
    | .draw w _ _ | .mov w _ _ | .con w _ _ | .idx w _ _ | .sel w _ _ _ _ | .iadd w _ _ _ | .isub w _ _ _ | .ineg w _ _ | .iabs w _ _
    | .imin w _ _ _ | .imax w _ _ _ | .shl w _ _ _ | .shr w _ _ _ | .shru w _ _ _ | .and w _ _ _ | .or w _ _ _ | .xor w _ _ _
    | .ladd w _ _ _ | .lsub w _ _ _ | .lmul w _ _ _ | .ldiv w _ _ _ | .lneg w _ _ | .labs w _ _ | .lmax w _ _ _ | .lmin w _ _ _
    | .lscl w _ _ _ | .lexp w _ _ | .itol w _ _ _ | .tab w _ _ _ | .sumI w _ _ _ | .sumL w _ _ _ | .maxI w _ _ _ | .maxL w _ _ _
    | .minI w _ _ _ | .minL w _ _ _ | .argmaxI w _ _ _ | .argmaxL w _ _ _ | .count w _ _ _ | .meanL w _ _ _ | .bcast w _ _ _
    | .softmax w _ _ _ => w.predInv = false ∨ w.predSel ≠ 0
    | _ => True) → ∃ w : WhiskAt, whiskWord w.whisk w.frame x = some i

/-- A Byari frame reads back (R392): the bytes of every frame whose fields fit their places decode to that frame, payload and all,
with both of its CRCs holding. -/
def Obligations.FramesReadBack : Prop := ∀ f : LinkFrame, f.wf = true → frameDecode (frameBytes f) = some f

/-- Sessions and their requests (R485 to R487, R493, R506, R508, R510 to R515). HELLO opens a challenged session, or is refused at eight; a
PROOF whose signature holds in time makes it accepted for its principal, and one that does not closes it, counted; the timeouts and CLOSE
end a session or its transfer. A request whose HMAC and sequence number hold is carried out with its session's rights and
answered, a repeated one is answered from what is stored, any other is dropped and counted. A core's mailbox request and DICT_WRITE
act as the writes they carry. -/
def Obligations.SessionsAndRequests : Prop :=
  (∀ s k n e q p t, s.boot.porstN = true → k.length = 65 → n.length = 32 → e.length = 65 → p < 2 → s.sec.sessions.length < 8 →
    ∃ u id x, exec (.hello k n e q p t) s = .next u ∧ sessGet s id = none ∧ sessGet u id = some x ∧ x.clientKey = k ∧
      x.nonceC = n ∧ x.clientEph = e ∧ x.accepted = false ∧ x.challengedAt = (atT t s).time.now ∧
      (∀ j, j ≠ id → sessGet u j = sessGet s j) ∧ u.out.length = s.out.length + 1 ∧ u.dict = s.dict) ∧
  (∀ s k n e q p t, s.boot.porstN = true → k.length = 65 → n.length = 32 → e.length = 65 → p < 2 → 8 ≤ s.sec.sessions.length →
    exec (.hello k n e q p t) s = .next (refuse p 0 q abSessions (atT t s))) ∧
  (∀ s id q g p t x, s.boot.porstN = true → sessGet s id = some x → x.accepted = false →
    (atT t s).time.now ≤ x.challengedAt + 1000000000 →
    exec (.proof id q g p t) s = .next (match principalOf (atT t s) x.clientKey, sessionKey x id with
      | some who, some key => if ecdsaVerify x.clientKey x.hash g = true then
          emit (.puerelm p (openMsg 0x04 id q (natLe 1 (whoCode who) ++ natLe 2 (whoTenant who))))
            (sessMod id (fun x => { x with accepted := true, who := who, key := key }) (atT t s))
          else failSession id q p (atT t s)
      | _, _ => failSession id q p (atT t s))) ∧
  (∀ s id q g p t x, s.boot.porstN = true → sessGet s id = some x → x.accepted = false →
    x.challengedAt + 1000000000 < (atT t s).time.now → exec (.proof id q g p t) s = .next (failSession id q p (atT t s))) ∧
  (∀ s id q p, sessGet (failSession id q p s) id = none ∧
    getO (failSession id q p s) oAuthFailCount = (getO s oAuthFailCount + 1) % 2 ^ 64) ∧
  (∀ s id x, sessGet s id = some x → x.accepted = false →
    exec (.proofTimeout id) s = .next (closeSession id (bump s oAuthFailCount)) ∧ exec (.sessionIdle id) s = .next s) ∧
  (∀ s id x, sessGet s id = some x → x.accepted = true → exec (.sessionIdle id) s = .next (closeSession id s) ∧
    exec (.proofTimeout id) s = .next s) ∧
  (∀ s id, sessGet (closeSession id s) id = none ∧ ∀ j, j ≠ id → sessGet (closeSession id s) j = sessGet s j) ∧
  (∀ s m, s.boot.porstN = true → let u := atT m.time s
    exec (.close m) s = .next (if (authentic u 0x21 m).isSome then closeSession m.session u else bump u oPuerelmDropCount)) ∧
  (∀ s id, ((ctxGet s (.session id)).xfer).isSome = true →
    exec (.transferTimeout id) s = .next (answer abTransfer (dropXfer (.session id) s))) ∧
  (∀ s m c (f : Access → State → Bytes × State) n, (c, n, f) ∈ [
      (Instr.read m, 0x10, fun a v => dictRequest a 0x10 m.body v), (.write m, 0x11, fun a v => dictRequest a 0x11 m.body v),
      (.describe m, 0x12, fun a v => dictRequest a 0x12 m.body v), (.keepalive m, 0x20, fun _ v => ([], v))] →
    s.boot.porstN = true → exec c s = .next (match authentic (atT m.time s) n m with
      | none => bump (atT m.time s) oPuerelmDropCount
      | some x =>
        let u := sessMod m.session (fun y => { y with rxSeq := m.sequence }) (atT m.time s)
        match x.cache.find? (fun e => e.1 == m.requestId) with
        | some e => respondAgain x m e.2 u
        | none =>
          let r := f ⟨x.who, .session m.session, m.nvFails⟩ u
          respond x m r.1 r.2)) ∧
  (∀ s n m x, authentic s n m = some x → sessGet s m.session = some x ∧ x.accepted = true ∧ x.rxSeq < m.sequence ∧
    m.mac = hmac x.key (msgHeader n m.session m.sequence m.requestId m.body.length ++ m.body)) ∧
  (∀ s h n b w, mainOn s = true → let r := dictRequest ⟨hartWho s h, .hart h, w⟩ n b s
    exec (.coreMailboxRequest h n ⟨b, w⟩) s = .next { r.2 with dict := { r.2.dict with mailboxes := sput r.2.dict.mailboxes h r.1 } }) ∧
  (∀ s a i j v, i < 65536 → j < 256 → exec (.dictWrite a i j v) s = .next (answerWrite (writeObject a (256 * i + j) v s)))

/-- Writes of the security objects and what belongs to them (R389, R476 to R495, R502, R519, R521, R553). An owner is installed once, by its own
signature over the nonce, and closes every session; a refused install draws a new nonce; a key is authorised by the owner's
signature with a rising serial and stands last in the table; a revoked key goes with its sessions; an image that verifies takes its
slot; a rollback minimum never falls; an NV write that fails refuses its write with NV_FAULT; nonce, grant and snapshot writes wait for the boundary, or are refused with BUSY; NV completes, a
neighbour is answered, and a JTAG instruction acts where the part allows it. -/
def Obligations.SecurityWritesTakeEffect : Prop :=
  (∀ s a v, s.sec.ownerKey.isSome = true → exec (.ownerInstall a v) s = .next (answerWrite (abOwner, freshNonce s))) ∧
  (∀ s a v, s.sec.ownerKey = none → gate s a oOwnerInstall v = 0 → let key := sub v 0 65
    exec (.ownerInstall a v) s = .next (answerWrite (
      if ecdsaVerify key (key ++ s.sec.installNonce ++ keyDigest Config.deviceKey) (sub v 65 64) = true then
        (if a.nvFails = true then (abNvFault, freshNonce s) else (0, installOwner key s))
      else (abSignature, freshNonce s)))) ∧
  (∀ s key, (installOwner key s).sec.ownerKey = some key ∧ (installOwner key s).sec.sessions = []) ∧
  (∀ s a r, gate s a oKeyAuthorise r = 0 →
    exec (.keyAuthorise a r) s = .next (answerWrite (if keyRule s r = 0 then
      (if a.nvFails = true then (abNvFault, s) else (0, putKey r s)) else (keyRule s r, s)))) ∧
  (∀ s r, (recSerial r ≤ s.sec.highSerial ∨ ownerSigned s (sub r 0 96) (sub r 96 64) = false → keyRule s r ≠ 0) ∧
    (putKey r s).sec.keys.getLast? = some r ∧ (putKey r s).sec.highSerial = recSerial r) ∧
  (∀ s a d k, gate s a oKeyRevoke d = 0 → keyOfDigest s d = some k → exec (.keyRevoke a d) s = .next (answerWrite
    (if a.nvFails = true then (abNvFault, s) else (0, dropKey k s))) ∧
    (∀ r ∈ (dropKey k s).sec.keys, r.take 65 ≠ k)) ∧
  (∀ s a d, gate s a oKeyRevoke d = 0 → keyOfDigest s d = none → exec (.keyRevoke a d) s = .next (answerWrite (abRange, s))) ∧
  (∀ s a v, gate s a oFirmwareStage v = 0 → exec (.firmwareStage a v) s = .next (answerWrite (
    if imForm v = true ∧ minVersion s (imKind v) ≤ imVersion v then
      if imSigned v = true then (0, putImage v s) else (abSignature, s)
    else (abRange, s)))) ∧
  (∀ s a k, gate s a oRollbackCommit (natLe 1 k) = 0 → k < 4 → exec (.rollbackCommit a k) s = .next (answerWrite
    (if a.nvFails = true then (abNvFault, s) else (0,
      applyNow (oSecurityVersionMin + k) (natLe 4 (max (minVersion s k) (nth 0 s.sec.measuredVer k))) s)))) ∧
  (∀ s a v, gate s a oAttestNonce v = 0 →
    (pendingRoom (withoutOwn a oAttestNonce s) v = true → exec (.attestNonce a v) s = .next (answerWrite (0,
      ctxMod a.ctx (fun c => { c with report := none }) (noteConfig oAttestNonce v (addPending a oAttestNonce v s))))) ∧
    (pendingRoom (withoutOwn a oAttestNonce s) v = false → exec (.attestNonce a v) s = .next (answerWrite (abBusy, s)))) ∧
  (∀ s a, gate s a oStatsSnapshotRequest [1] = 0 → pendingRoom (withoutOwn a oStatsSnapshotRequest s) [1] = true →
    exec (.statsSnapshotRequest a 1) s = .next (answerWrite (0, ctxMod a.ctx (fun c => { c with snap := none })
      (noteConfig oStatsSnapshotRequest [1] (addPending a oStatsSnapshotRequest [1] s))))) ∧
  (∀ s a g, gate s a oShareGrant g = 0 →
    (shareGrantRule s g = 0 → exec (.shareGrant a g) s = .next (answerWrite (makePending a oShareGrant g s))) ∧
    (shareGrantRule s g ≠ 0 → exec (.shareGrant a g) s = .next (answerWrite (shareGrantRule s g, s)))) ∧
  (∀ s a g, gate s a oShareRevoke g = 0 → exec (.shareRevoke a g) s = .next (answerWrite (makePending a oShareRevoke g s))) ∧
  (∀ s a v, gate s a oDictRestoreDefaults (natLe 1 v) = 0 → exec (.dictRestoreDefaults a v) s =
    .next (answerWrite (0, { s with dict := { s.dict with restoreDefaults := v == 1 } }))) ∧
  (∀ s i j e, s.dict.nvQueue.find? (fun e => e.1 == 256 * i + j) = some e →
    let u := { s with dict := { s.dict with nvQueue := s.dict.nvQueue.erase e } }
    exec (.nvWriteComplete i j true) s = .next (nvStore (256 * i + j) e.2 u) ∧ exec (.nvWriteComplete i j false) s = .next u) ∧
  (∀ s p g, s.boot.porstN = true → p < 16 → 2 ≤ (portGet s p).mode → (portGet s p).st = 2 ∨ (portGet s p).st = 3 →
    exec (.neighbourDiscovery p g) s = .next (emit (.neighbourAdvert p g) s)) ∧
  (∀ s j, j = .bypass ∨ j = .idcode ∨ j = .samplePreload ∨ s.boot.porstN = false ∧ (j = .extest ∨ j = .clamp ∨ j = .highz) →
    exec (.jtagInstruction j) s = .next { s with pins := { s.pins with jtag := j } }) ∧
  (∀ s j, s.boot.porstN = true → bootStopped s = false → j = .extest ∨ j = .clamp ∨ j = .highz →
    exec (.jtagInstruction j) s = .next { s with pins := { s.pins with jtag := .bypass } })

/-- Writes of the tick, the pins and the tenants (R20, R21, R27, R42, R354, R358, R359, R492, R508). A period and a regrid tick are kept
where the grid and the marks allow them, a tick number that is not after the next is out of range; TICK_IN on a second pin is refused with
RESOURCE_IN_USE; a checked write waits for the boundary of R42 in place of an earlier one of its object, or is refused with BUSY; a
tenant's memory, its reset and the resume of its rings go the same way. -/
def Obligations.TickAndTenantWrites : Prop :=
  (∀ s a j v, 0 < j → j ≤ 3 → let b := natLe (if j = 1 then 4 else 2) v
    gate s a (oTickPeriodNs + j - 1) b = 0 → let p := s.time.pend.getD ((storedGrid s).i, (storedGrid s).n, (storedGrid s).d)
    let q : Nat × Nat × Nat := if j = 1 then (leNat b, p.2.1, p.2.2) else if j = 2 then (p.1, leNat b, p.2.2)
      else (p.1, p.2.1, leNat b)
    (periodOk q.1 q.2.1 q.2.2 = true → periodMarksOk s q.1 q.2.1 = true →
      exec (.tickPeriodWrite a j v) s = .next (answerWrite (0, { s with time := { s.time with pend := some q } }))) ∧
    (periodOk q.1 q.2.1 q.2.2 = false ∨ periodMarksOk s q.1 q.2.1 = false →
      exec (.tickPeriodWrite a j v) s = .next (answerWrite (abRange, s)))) ∧
  (∀ s a v, gate s a oTickRegridNo (natLe 8 v) = 0 → 0 < v → v < 2 ^ 64 →
    (s.time.pend = none → s.time.tickNo + 1 < v → exec (.tickRegridNo a v) s = .next (answerWrite (0, setO s oTickRegridNo v))) ∧
    (v ≤ s.time.tickNo + 1 → exec (.tickRegridNo a v) s = .next (answerWrite (abRange, s)))) ∧
  (∀ s a, gate s a oTickRegridNo (natLe 8 0) = 0 → exec (.tickRegridNo a 0) s =
    .next (answerWrite (0, setO { s with time := { s.time with pend := none } } oTickRegridNo 0))) ∧
  (∀ s a p o, p < 4 → o < 4 → o ≠ p → gate s a (oSyncPinFunction + p) [1] = 0 →
    nextO s (oSyncPinFunction + o) = 1 → exec (.syncPinFunction a p 1) s = .next (answerWrite (abInUse, s))) ∧
  (∀ s a p v, p < 4 → gate s a (oSyncPinFunction + p) (natLe 1 v) = 0 → syncPinRule s p (leNat (natLe 1 v)) = 0 →
    exec (.syncPinFunction a p v) s = .next (answerWrite (makePending a (oSyncPinFunction + p) (natLe 1 v) s))) ∧
  (∀ s a k v, (pendingRoom (withoutOwn a k s) v = false → makePending a k v s = (abBusy, s)) ∧
    (pendingRoom (withoutOwn a k s) v = true → ∃ t, makePending a k v s = (0, t) ∧ t.dict.pending.getLast? =
      some ⟨k, v, a.who, a.ctx, dueTick s, s.dict.nextSeq⟩ ∧ (∀ q ∈ t.dict.pending.dropLast, q ∈ s.dict.pending ∧ sameObject a k q = false) ∧
      t.dict.vals = s.dict.vals)) ∧
  (∀ s, s.time.tickNo < 2 ^ 63 → dueTick s = if s.time.phase = .sealed then s.time.tickNo + 2 else s.time.tickNo + 1) ∧
  (∀ s v, pendingRoom s v = true ↔ (s.dict.pending.filter (fun p => p.due == dueTick s)).length < 1024 ∧
    sumN ((s.dict.pending.filter (fun p => p.due == dueTick s)).map (fun p => p.value.length)) + v.length ≤ 262144) ∧
  (∀ s a n v, n < 1024 → gate s a (tkey oTenantMemPages n) (natLe 4 v) = 0 → memPagesRule s n (leNat (natLe 4 v)) = 0 →
    exec (.tenantMemPages a n v) s = .next (answerWrite (makePending a (tkey oTenantMemPages n) (natLe 4 v) s))) ∧
  (∀ s a n t, n < 1024 → gate s a (tkey oTenantReset n) [1] = 0 → makePending a (tkey oTenantReset n) [1] s = (0, t) →
    exec (.tenantReset a n 1) s = .next (answerWrite (0, tenantMod n (fun k => { k with resetting := true }) t))) ∧
  (∀ s a n v, n < 1024 → gate s a (tkey oRingResume n) (natLe 1 v) = 0 →
    (v < 16 → exec (.ringResume a n v) s = .next (answerWrite (makePending a (tkey oRingResume n) (natLe 1 v) s))) ∧
    (16 ≤ v → exec (.ringResume a n v) s = .next (answerWrite (abRange, s))))

end
end

