-- ==== Sys2Proof/Laws/KeptCore.lean ====
section
/-! SUPPORT. What every operation keeps (the queue, DRAM's canonical form, the bounds of the logs, the owner key, the tick in progress): the relation, its rules, and the lemmas of the shared operations. -/

namespace Sys2Proof.Machine

open Sys2Proof

set_option linter.unusedTactic false
set_option linter.unreachableTactic false

/-- The logs that the spec bounds stay within their bounds (R49, R413, R454, R489). -/
def logsOk (s : State) : Prop :=
  s.faults.log.length ≤ 256 ∧ s.record.ring.length ≤ 64 ∧ s.power.droopLog.length ≤ 256 ∧ s.boot.wakeNonces.length ≤ 64

/-- The part runs, and the tick in progress is the same tick, in the same phase; device time has not gone back. -/
structure SameTick (s t : State) : Prop where
  tickNo : t.time.tickNo = s.time.tickNo
  tickStart : t.time.tickStart = s.time.tickStart
  tickLen : t.time.tickLen = s.time.tickLen
  phase : t.time.phase = s.time.phase
  porstN : t.boot.porstN = s.boot.porstN
  now : s.time.now ≤ t.time.now

/-- What every operation keeps: the queue, DRAM's canonical form, the bounds of the logs, the owner key once it is
installed; and with `q` the tick in progress. -/
structure Kept (q : Bool) (s t : State) : Prop where
  queue : t.pending = s.pending
  mem : Memory.wf s.dram.mem → Memory.wf t.dram.mem
  logs : logsOk s → logsOk t
  owner : ∀ k, s.sec.ownerKey = some k → t.sec.ownerKey = some k
  tick : q = true → SameTick s t

theorem Kept.refl (q : Bool) (s : State) : Kept q s s :=
  ⟨rfl, id, id, fun _ h => h, fun _ => ⟨rfl, rfl, rfl, rfl, rfl, le_rfl⟩⟩

theorem Kept.weaken {q : Bool} {s t : State} (h : Kept q s t) : Kept false s t :=
  ⟨h.queue, h.mem, h.logs, h.owner, fun e => Bool.noConfusion e⟩

/-- A record update of a state that leaves the guarded fields as they are. -/
theorem Kept.mk' {q : Bool} {s u : State} (h : Kept q s u)
    {time dict boot pins power pilot record sec faults dram ingot vars kv sched engine links mirror out draws}
    (hm : dram.mem = u.dram.mem := by rfl) (hf : faults.log = u.faults.log := by rfl) (hr : record.ring = u.record.ring := by rfl)
    (hd : power.droopLog = u.power.droopLog := by rfl) (hn : boot.wakeNonces = u.boot.wakeNonces := by rfl)
    (ho : sec.ownerKey = u.sec.ownerKey := by rfl) (h1 : time.tickNo = u.time.tickNo := by rfl) (h2 : time.tickStart = u.time.tickStart := by rfl)
    (h3 : time.tickLen = u.time.tickLen := by rfl) (h4 : time.phase = u.time.phase := by rfl) (h5 : boot.porstN = u.boot.porstN := by rfl)
    (h6 : time.now = u.time.now := by rfl) :
    Kept q s ⟨u.pending, time, dict, boot, pins, power, pilot, record, sec, faults, dram, ingot, vars, kv, sched, engine,
      links, mirror, out, draws⟩ := by
  refine ⟨h.queue, fun x => ?_, fun x => ?_, fun k x => ?_, fun x => ?_⟩
  · simp only [hm]; exact h.mem x
  · have := h.logs x
    simp only [logsOk] at this ⊢
    rw [hf, hr, hd, hn]
    exact this
  · simp only [ho]; exact h.owner k x
  · have := h.tick x
    exact ⟨h1.trans this.1, h2.trans this.2, h3.trans this.3, h4.trans this.4, h5.trans this.5, h6 ▸ this.6⟩

/-- A record update that changes a guarded memory or log, and says how. -/
theorem Kept.mk2 {q : Bool} {s u : State} (h : Kept q s u)
    {time dict boot pins power pilot record sec faults dram ingot vars kv sched engine links mirror out draws}
    (hm : Memory.wf u.dram.mem → Memory.wf dram.mem)
    (hl : logsOk u → faults.log.length ≤ 256 ∧ record.ring.length ≤ 64 ∧ power.droopLog.length ≤ 256
      ∧ boot.wakeNonces.length ≤ 64)
    (ho : sec.ownerKey = u.sec.ownerKey)
    (ht : q = true → time.tickNo = u.time.tickNo ∧ time.tickStart = u.time.tickStart ∧ time.tickLen = u.time.tickLen
      ∧ time.phase = u.time.phase ∧ boot.porstN = u.boot.porstN ∧ time.now = u.time.now) :
    Kept q s ⟨u.pending, time, dict, boot, pins, power, pilot, record, sec, faults, dram, ingot, vars, kv, sched, engine,
      links, mirror, out, draws⟩ := by
  refine ⟨h.queue, fun x => hm (h.mem x), fun x => hl (h.logs x), fun k x => ?_, fun x => ?_⟩
  · simp only [ho]; exact h.owner k x
  · have := h.tick x
    obtain ⟨h1, h2, h3, h4, h5, h6⟩ := ht x
    exact ⟨h1.trans this.1, h2.trans this.2, h3.trans this.3, h4.trans this.4, h5.trans this.5, h6 ▸ this.6⟩

theorem Kept.ite {q : Bool} {s a b : State} {c : Prop} [Decidable c] (h1 : Kept q s a) (h2 : Kept q s b) :
    Kept q s (if c then a else b) := by
  split <;> assumption

theorem Kept.ite2 {α : Type} {q : Bool} {s : State} {a b : α × State} {c : Prop} [Decidable c] (h1 : Kept q s a.2)
    (h2 : Kept q s b.2) : Kept q s (if c then a else b).2 := by
  split <;> assumption

theorem Kept.iteR {q : Bool} {s a b : State} {c : Prop} [Decidable c] (h : Kept q s b)
    (h1 : Kept q s b → Kept q s a) : Kept q s (if c then a else b) := by
  split
  · exact h1 h
  · exact h

theorem Kept.iteR2 {α : Type} {q : Bool} {s : State} {a b : α × State} {c : Prop} [Decidable c] (h : Kept q s b.2)
    (h1 : Kept q s b.2 → Kept q s a.2) : Kept q s (if c then a else b).2 := by
  split
  · exact h1 h
  · exact h

theorem Kept.fold {α : Type} {q : Bool} {s u : State} {f : State → α → State} {l : List α}
    (hf : ∀ a v, Kept q s v → Kept q s (f v a)) (h : Kept q s u) : Kept q s (l.foldl f u) := by
  induction l generalizing u with
  | nil => exact h
  | cons a l ih => exact ih (hf a u h)

theorem Kept.fold2 {α β : Type} {q : Bool} {s : State} {x : β × State} {f : β × State → α → β × State} {l : List α}
    (hf : ∀ a v, Kept q s v.2 → Kept q s (f v a).2) (h : Kept q s x.2) : Kept q s (l.foldl f x).2 := by
  induction l generalizing x with
  | nil => exact h
  | cons a l ih => exact ih (hf a x h)

theorem Kept.fold1 {α β : Type} {q : Bool} {s : State} {x : State × β} {f : State × β → α → State × β} {l : List α}
    (hf : ∀ a v, Kept q s v.1 → Kept q s (f v a).1) (h : Kept q s x.1) : Kept q s (l.foldl f x).1 := by
  induction l generalizing x with
  | nil => exact h
  | cons a l ih => exact ih (hf a x h)

/-! ### Memory keeps its canonical form -/

theorem memCells_keys (a : Nat) (bs : Bytes) : ∀ c ∈ memCells a bs, a ≤ c.1 ∧ c.1 < a + bs.length := by
  induction bs generalizing a with
  | nil => simp [memCells]
  | cons b bs ih =>
    intro c hc
    simp only [memCells] at hc
    split at hc
    · have := ih (a + 1) c hc; simp only [List.length_cons]; omega
    · rcases List.mem_cons.1 hc with rfl | hc
      · simp
      · have := ih (a + 1) c hc; simp only [List.length_cons]; omega

theorem memCells_wf (a : Nat) (bs : Bytes) : Memory.wf (memCells a bs) := by
  induction bs generalizing a with
  | nil => simp [memCells, Memory.wf, swf, skeysWf]
  | cons b bs ih =>
    have hk := memCells_keys (a + 1) bs
    have := ih (a + 1)
    simp only [memCells]
    split
    · exact this
    · rename_i hb
      refine ⟨?_, ?_⟩
      · simp only [skeysWf, List.map_cons, List.pairwise_cons]
        refine ⟨fun x hx => ?_, this.1⟩
        obtain ⟨c, hc, rfl⟩ := List.mem_map.1 hx
        have := hk c hc; omega
      · intro e he
        rcases List.mem_cons.1 he with rfl | he
        · exact hb
        · exact this.2 e he

theorem wf_filter {m : List Host.Cell} (h : Memory.wf m) (p : Host.Cell → Bool) : Memory.wf (m.filter p) := by
  refine ⟨?_, fun e he => h.2 e (List.mem_filter.1 he).1⟩
  have := h.1
  simp only [skeysWf, List.pairwise_map] at this ⊢
  exact this.filter p

/-- A store keeps the canonical form. -/
theorem memPut_wf {m : List Host.Cell} (h : Memory.wf m) (a : Nat) (bs : Bytes) : Memory.wf (memPut m a bs) := by
  have hk := memCells_keys a bs
  have h1 := wf_filter h (fun c => decide (c.1 < a))
  have h2 := memCells_wf a bs
  have h3 := wf_filter h (fun c => decide (a + bs.length ≤ c.1))
  refine ⟨?_, ?_⟩
  · have e1 := h1.1; have e2 := h2.1; have e3 := h3.1
    simp only [skeysWf, List.pairwise_map] at e1 e2 e3
    simp only [skeysWf, memPut, List.pairwise_map, List.pairwise_append]
    refine ⟨⟨e1, e2, ?_⟩, e3, ?_⟩
    · intro x hx y hy
      have := (List.mem_filter.1 hx).2; have := hk y hy
      simp at *; omega
    · intro x hx y hy
      have hy' := (List.mem_filter.1 hy).2
      rcases List.mem_append.1 hx with hx | hx
      · have := (List.mem_filter.1 hx).2; simp at *; omega
      · have := hk x hx; simp at *; omega
  · intro e he
    simp only [memPut, List.mem_append] at he
    rcases he with (he | he) | he
    · exact h1.2 e he
    · exact h2.2 e he
    · exact h3.2 e he

theorem sfind_append {α : Type} (l m : SMap α) (x : Nat) : sfind (l ++ m) x = (sfind l x).or (sfind m x) := by
  induction l with
  | nil => simp [sfind]
  | cons e l ih =>
    simp only [List.cons_append, sfind]
    split <;> simp_all

theorem sfind_none {α : Type} (l : SMap α) (x : Nat) (h : ∀ e ∈ l, e.1 ≠ x) : sfind l x = none := by
  induction l with
  | nil => rfl
  | cons e l ih =>
    have := h e (by simp)
    simp only [sfind, this, if_false]
    exact ih (fun e he => h e (by simp [he]))

theorem sfind_filter {α : Type} (l : SMap α) (x : Nat) (p : Nat → Bool) (hp : p x = true) :
    sfind (l.filter (fun e => p e.1)) x = sfind l x := by
  induction l with
  | nil => rfl
  | cons e l ih =>
    by_cases he : e.1 = x
    · simp [sfind, he, hp]
    · by_cases hq : p e.1
      · simp [sfind, he, hq, ih]
      · simp [sfind, he, hq, ih]

/-- A store leaves every byte outside it as it was. -/
theorem memByte_memPut_outside (m : List Host.Cell) (a : Nat) (bs : Bytes) (x : Nat) (hx : x < a ∨ a + bs.length ≤ x) :
    memByte (memPut m a bs) x = memByte m x := by
  have hk := memCells_keys a bs
  have hc : sfind (memCells a bs) x = none := sfind_none _ _ (fun e he => by have := hk e he; omega)
  simp only [memByte, sget, memPut, sfind_append, hc]
  rcases hx with hx | hx
  · have h1 := sfind_filter m x (fun k => decide (k < a)) (by simpa using hx)
    have h3 : sfind (m.filter (fun c => decide (a + bs.length ≤ c.1))) x = none :=
      sfind_none _ _ (fun e he => by have := (List.mem_filter.1 he).2; simp at this; omega)
    simp only [h1, h3]
    cases sfind m x <;> rfl
  · have h1 := sfind_filter m x (fun k => decide (a + bs.length ≤ k)) (by simpa using hx)
    have h3 : sfind (m.filter (fun c => decide (c.1 < a))) x = none :=
      sfind_none _ _ (fun e he => by have := (List.mem_filter.1 he).2; simp at this; omega)
    simp only [h1, h3]
    cases sfind m x <;> rfl

theorem SameTick.trans {s t u : State} (h : SameTick s t) (k : SameTick t u) : SameTick s u :=
  ⟨k.1.trans h.1, k.2.trans h.2, k.3.trans h.3, k.4.trans h.4, k.5.trans h.5, le_trans h.6 k.6⟩

theorem Kept.trans {q : Bool} {s t u : State} (h : Kept q s t) (k : Kept q t u) : Kept q s u :=
  ⟨k.queue.trans h.queue, fun x => k.mem (h.mem x), fun x => k.logs (h.logs x), fun a x => k.owner a (h.owner a x),
    fun x => (h.tick x).trans (k.tick x)⟩

/-- Device memory stored to, all else as it was. -/
theorem Kept.put {q : Bool} {s u : State} (h : Kept q s u) (a : Nat) (bs : Bytes) (d : DramState)
    (hd : d.mem = memPut u.dram.mem a bs) : Kept q s { u with dram := d } := by
  refine ⟨h.queue, fun x => ?_, h.logs, h.owner, fun x => ⟨(h.tick x).1, (h.tick x).2, (h.tick x).3, (h.tick x).4, (h.tick x).5, (h.tick x).6⟩⟩
  simp only [hd]
  exact memPut_wf (h.mem x) a bs

/-- A log that keeps its last entries keeps its bound. -/
theorem drop_bound {α : Type} (l : List α) (n : Nat) : (l.drop (l.length - n)).length ≤ n := by
  simp only [List.length_drop]; omega

/-! ### Machine/Ops.lean -/

theorem kept_setO {qt : Bool} {s0 : State} (s : State) (key v : Nat) (hk : Kept qt s0 s) :
    Kept qt s0 (setO s key v) := by
  unfold setO
  repeat'
    first
    | (with_reducible first | assumption | apply Kept.iteR)
    | (intro _) | extract_lets | split
    | (with_reducible apply Kept.mk') <;> (try exact rfl)

theorem kept_addO {qt : Bool} {s0 : State} (s : State) (key n : Nat) (hk : Kept qt s0 s) :
    Kept qt s0 (addO s key n) := by
  unfold addO
  repeat'
    first
    | (with_reducible first | assumption | apply kept_setO | apply Kept.iteR)
    | (intro _) | extract_lets | split
    | (with_reducible apply Kept.mk') <;> (try exact rfl)

theorem kept_bump {qt : Bool} {s0 : State} (s : State) (key : Nat) (hk : Kept qt s0 s) :
    Kept qt s0 (bump s key) := by
  unfold bump
  repeat'
    first
    | (with_reducible first | assumption | apply kept_addO | apply Kept.iteR)
    | (intro _) | extract_lets | split
    | (with_reducible apply Kept.mk') <;> (try exact rfl)

theorem kept_setS {qt : Bool} {s0 : State} (s : State) (key : Nat) (v : Bytes) (hk : Kept qt s0 s) :
    Kept qt s0 (setS s key v) := by
  unfold setS
  repeat'
    first
    | (with_reducible first | assumption | apply Kept.iteR)
    | (intro _) | extract_lets | split
    | (with_reducible apply Kept.mk') <;> (try exact rfl)

theorem kept_draw {qt : Bool} {s0 : State} (s : State) (hk : Kept qt s0 s) :
    Kept qt s0 (draw s).2 := by
  unfold draw
  repeat'
    first
    | (with_reducible first | assumption | apply Kept.iteR | apply Kept.iteR2)
    | (intro _) | extract_lets | split
    | (with_reducible apply Kept.mk') <;> (try exact rfl)

theorem kept_drawBytes {qt : Bool} {s0 : State} (n : Nat) (s : State) (hk : Kept qt s0 s) :
    Kept qt s0 (drawBytes n s).2 := by
  unfold drawBytes
  repeat'
    first
    | (with_reducible first | assumption | apply Kept.iteR | apply Kept.iteR2)
    | (intro _) | extract_lets | split
    | (with_reducible apply Kept.mk') <;> (try exact rfl)

theorem kept_drawMany {qt : Bool} {s0 : State} (n : Nat) (s : State) (hk : Kept qt s0 s) :
    Kept qt s0 (drawMany n s).2 := by
  unfold drawMany
  repeat'
    first
    | (with_reducible first | assumption | apply Kept.iteR | apply Kept.iteR2)
    | (intro _) | extract_lets | split
    | (with_reducible apply Kept.mk') <;> (try exact rfl)

theorem kept_emit {qt : Bool} {s0 : State} (e : OutEvent) (s : State) (hk : Kept qt s0 s) :
    Kept qt s0 (emit e s) := by
  unfold emit
  repeat'
    first
    | (with_reducible first | assumption | apply Kept.iteR)
    | (intro _) | extract_lets | split
    | (with_reducible apply Kept.mk') <;> (try exact rfl)

theorem kept_atT {q : Bool} {s0 : State} (t : Nat) (s : State) (h : Kept q s0 s) : Kept q s0 (atT t s) :=
  h.trans ⟨rfl, id, id, fun _ x => x, fun _ => ⟨rfl, rfl, rfl, rfl, rfl, le_max_left _ _⟩⟩

theorem kept_addEntry {qt : Bool} {s0 : State} (e : Bytes) (s : State) (hk : Kept qt s0 s) :
    Kept qt s0 (addEntry e s) := by
  unfold addEntry
  repeat'
    first
    | (with_reducible first | assumption | apply Kept.iteR)
    | (intro _) | extract_lets | split
    | (with_reducible apply Kept.mk') <;> (try exact rfl)

theorem kept_modelEnergy {qt : Bool} {s0 : State} (unit cls n : Nat) (s : State) (hk : Kept qt s0 s) :
    Kept qt s0 (modelEnergy unit cls n s) := by
  unfold modelEnergy
  repeat'
    first
    | (with_reducible first | assumption | apply Kept.iteR)
    | (intro _) | extract_lets | split
    | (with_reducible apply Kept.mk') <;> (try exact rfl)

theorem kept_chargeUnit {qt : Bool} {s0 : State} (kind : UnitKind) (idx : Nat) (s : State) (hk : Kept qt s0 s) :
    Kept qt s0 (chargeUnit kind idx s) := by
  unfold chargeUnit
  repeat'
    first
    | (with_reducible first | assumption | apply Kept.iteR | apply Kept.iteR2)
    | (intro _) | extract_lets | split
    | (with_reducible apply Kept.mk') <;> (try exact rfl)

theorem kept_logFault {q : Bool} {s0 : State} (e : Bytes) (s : State) (hk : Kept q s0 s) : Kept q s0 (logFault e s) := by
  unfold logFault
  extract_lets log
  have hb := drop_bound log 256
  generalize List.drop (log.length - 256) log = l at hb
  exact Kept.mk2 hk id (fun x => ⟨hb, x.2⟩) rfl (fun _ => ⟨rfl, rfl, rfl, rfl, rfl, rfl⟩)

theorem kept_faultActs {qt : Bool} {s0 : State} (cls code : Nat) (s : State) (hk : Kept qt s0 s) :
    Kept qt s0 (faultActs cls code s) := by
  unfold faultActs
  repeat'
    first
    | (with_reducible first | assumption | apply Kept.iteR)
    | (intro _) | extract_lets | split
    | (with_reducible apply Kept.mk') <;> (try exact rfl)

theorem kept_raiseFault {qt : Bool} {s0 : State} (code : Nat) (kind : UnitKind) (idx : Nat) (req : Option Nat) (detail : Nat) (s : State) (hk : Kept qt s0 s) :
    Kept qt s0 (raiseFault code kind idx req detail s) := by
  unfold raiseFault
  repeat'
    first
    | (with_reducible first | assumption | apply kept_logFault | apply kept_faultActs | apply kept_chargeUnit)
    | (with_reducible first | apply Kept.iteR)
    | (intro _) | extract_lets | split
    | (with_reducible apply Kept.mk') <;> (try exact rfl)

theorem kept_recast {qt : Bool} {s0 : State} (kind cause old new detail : Nat) (s : State) (hk : Kept qt s0 s) :
    Kept qt s0 (recast kind cause old new detail s) := by
  unfold recast
  repeat'
    first
    | (with_reducible first | assumption | apply Kept.iteR)
    | (intro _) | extract_lets | split
    | (with_reducible apply Kept.mk') <;> (try exact rfl)

theorem kept_ctxMod {qt : Bool} {s0 : State} (c : AccessCtx) (f : CtxObjs → CtxObjs) (s : State) (hk : Kept qt s0 s) :
    Kept qt s0 (ctxMod c f s) := by
  unfold ctxMod
  repeat'
    first
    | (with_reducible first | assumption | apply Kept.iteR)
    | (intro _) | extract_lets | split
    | (with_reducible apply Kept.mk') <;> (try exact rfl)

theorem kept_ctxDrop {qt : Bool} {s0 : State} (c : AccessCtx) (s : State) (hk : Kept qt s0 s) :
    Kept qt s0 (ctxDrop c s) := by
  unfold ctxDrop
  repeat'
    first
    | (with_reducible first | assumption | apply Kept.iteR)
    | (intro _) | extract_lets | split
    | (with_reducible apply Kept.mk') <;> (try exact rfl)

/-! ### Machine/Flags.lean -/

theorem kept_recFlag {qt : Bool} {s0 : State} (bit : Nat) (s : State) (hk : Kept qt s0 s) :
    Kept qt s0 (recFlag bit s) := by
  unfold recFlag
  repeat'
    first
    | (with_reducible first | assumption | apply Kept.iteR)
    | (intro _) | extract_lets | split
    | (with_reducible apply Kept.mk') <;> (try exact rfl)

theorem kept_setAlert {qt : Bool} {s0 : State} (bit : Nat) (on : Bool) (s : State) (hk : Kept qt s0 s) :
    Kept qt s0 (setAlert bit on s) := by
  unfold setAlert
  repeat'
    first
    | (with_reducible first | assumption | apply Kept.iteR)
    | (intro _) | extract_lets | split
    | (with_reducible apply Kept.mk') <;> (try exact rfl)

/-! ### Machine/Access.lean -/

theorem kept_answer {qt : Bool} {s0 : State} (code : Nat) (s : State) (hk : Kept qt s0 s) :
    Kept qt s0 (answer code s) := by
  unfold answer
  repeat'
    first
    | (with_reducible first | assumption | apply kept_bump | apply Kept.iteR)
    | (intro _) | extract_lets | split
    | (with_reducible apply Kept.mk') <;> (try exact rfl)

theorem kept_answerWrite {q : Bool} {s0 : State} (r : Nat × State) (h : Kept q s0 r.2) : Kept q s0 (answerWrite r) :=
  kept_answer _ _ (kept_bump _ _ h)

theorem kept_nvAnswer {q : Bool} {s0 : State} (a : Access) (s : State) (r : Nat × State) (hs : Kept q s0 s) (h : Kept q s0 r.2) :
    Kept q s0 (nvAnswer a s r).2 :=
  Kept.ite2 hs h

theorem kept_addPending {qt : Bool} {s0 : State} (a : Access) (key : Nat) (v : Bytes) (s : State) (hk : Kept qt s0 s) :
    Kept qt s0 (addPending a key v s) := by
  unfold addPending
  repeat'
    first
    | (with_reducible first | assumption | apply Kept.iteR)
    | (intro _) | extract_lets | split
    | (with_reducible apply Kept.mk') <;> (try exact rfl)

theorem kept_noteConfig {qt : Bool} {s0 : State} (key : Nat) (v : Bytes) (s : State) (hk : Kept qt s0 s) :
    Kept qt s0 (noteConfig key v s) := by
  unfold noteConfig
  repeat'
    first
    | (with_reducible first | assumption | apply Kept.iteR)
    | (intro _) | extract_lets | split
    | (with_reducible apply Kept.mk') <;> (try exact rfl)

theorem kept_withoutOwn {qt : Bool} {s0 : State} (a : Access) (key : Nat) (s : State) (hk : Kept qt s0 s) :
    Kept qt s0 (withoutOwn a key s) := by
  unfold withoutOwn
  repeat'
    first
    | (with_reducible first | assumption | apply Kept.iteR)
    | (intro _) | extract_lets | split
    | (with_reducible apply Kept.mk') <;> (try exact rfl)

theorem kept_makePending {qt : Bool} {s0 : State} (a : Access) (key : Nat) (v : Bytes) (s : State) (hk : Kept qt s0 s) :
    Kept qt s0 (makePending a key v s).2 := by
  unfold makePending
  repeat'
    first
    | (with_reducible first | assumption | apply kept_withoutOwn | apply kept_noteConfig | apply kept_addPending)
    | (with_reducible first | apply Kept.iteR | apply Kept.iteR2)
    | (intro _) | extract_lets | split
    | (with_reducible apply Kept.mk') <;> (try exact rfl)

theorem kept_putValue {qt : Bool} {s0 : State} (key : Nat) (v : Bytes) (s : State) (hk : Kept qt s0 s) :
    Kept qt s0 (putValue key v s) := by
  unfold putValue
  repeat'
    first
    | (with_reducible first | assumption | apply kept_setO | apply kept_setS | apply Kept.iteR)
    | (intro _) | extract_lets | split
    | (with_reducible apply Kept.mk') <;> (try exact rfl)

theorem kept_nvStore {qt : Bool} {s0 : State} (key : Nat) (v : Bytes) (s : State) (hk : Kept qt s0 s) :
    Kept qt s0 (nvStore key v s) := by
  unfold nvStore
  repeat'
    first
    | (with_reducible first | assumption | apply kept_bump | apply Kept.iteR)
    | (intro _) | extract_lets | split
    | (with_reducible apply Kept.mk') <;> (try exact rfl)

theorem kept_applyNow {qt : Bool} {s0 : State} (key : Nat) (v : Bytes) (s : State) (hk : Kept qt s0 s) :
    Kept qt s0 (applyNow key v s) := by
  unfold applyNow
  repeat'
    first
    | (with_reducible first | assumption | apply kept_putValue | apply kept_nvStore | apply Kept.iteR)
    | (intro _) | extract_lets | split
    | (with_reducible apply Kept.mk') <;> (try exact rfl)

/-! ### Machine/Memory.lean -/

theorem kept_touchLine {qt : Bool} {s0 : State} (hint : Hint) (write : Bool) (line : Nat) (s : State) (hk : Kept qt s0 s) :
    Kept qt s0 (touchLine hint write line s) := by
  unfold touchLine
  repeat'
    first
    | (with_reducible first | assumption | apply kept_modelEnergy | apply kept_bump | apply Kept.iteR)
    | (intro _) | extract_lets | split
    | (with_reducible apply Kept.mk') <;> (try exact rfl)

theorem kept_killLine {qt : Bool} {s0 : State} (line : Nat) (s : State) (hk : Kept qt s0 s) :
    Kept qt s0 (killLine line s) := by
  unfold killLine
  repeat'
    first
    | (with_reducible first | assumption | apply Kept.iteR)
    | (intro _) | extract_lets | split
    | (with_reducible apply Kept.mk') <;> (try exact rfl)

theorem kept_ownPut {q : Bool} {s0 : State} (s : State) (a : Nat) (d : Bytes) (h : Kept q s0 s) : Kept q s0 (ownPut s a d) := by
  have hp : Kept q s0 { s with dram := { s.dram with mem := memPut s.dram.mem a d } } := Kept.put h a d _ rfl
  unfold ownPut
  split
  · exact Kept.ite (Kept.mk' h) hp
  · exact Kept.ite h hp

theorem kept_devPut {q : Bool} {s0 : State} (a : Nat) (bs : Bytes) (s : State) (h : Kept q s0 s) : Kept q s0 (devPut a bs s) := by
  unfold devPut
  exact Kept.ite (Kept.fold (fun b v hv => kept_ownPut _ _ _ hv) h) (Kept.put h a bs _ rfl)

theorem kept_memRead {qt : Bool} {s0 : State} (hint : Hint) (a n : Nat) (s : State) (hk : Kept qt s0 s) :
    Kept qt s0 (memRead hint a n s).2 := by
  unfold memRead
  repeat'
    first
    | (with_reducible first | assumption | apply kept_touchLine | apply kept_killLine | apply Kept.iteR)
    | (with_reducible first | apply Kept.fold | apply Kept.fold2 | apply Kept.fold1 | apply Kept.iteR2)
    | (intro _) | extract_lets | split
    | (with_reducible apply Kept.mk') <;> (try exact rfl)

theorem kept_unmark {q : Bool} {s0 : State} (b : Nat) (s : State) (h : Kept q s0 s) : Kept q s0 (unmark b s) := by
  unfold unmark
  split
  · exact Kept.ite (Kept.mk' h) (kept_devPut _ _ _ (Kept.mk' (kept_drawBytes 64 s h)))
  · exact h

theorem kept_memWrite {q : Bool} {s0 : State} (hint : Hint) (a : Nat) (bs : Bytes) (s : State) (h : Kept q s0 s) :
    Kept q s0 (memWrite hint a bs s) := by
  unfold memWrite
  refine Kept.ite h ?_
  refine Kept.fold (fun l v hv => kept_touchLine _ _ l v hv) (kept_devPut _ _ _ ?_)
  exact Kept.fold (fun b v hv => kept_unmark b v hv) h

theorem kept_tenantRead {q : Bool} {s0 : State} (hint : Hint) (n a len : Nat) (s : State) (h : Kept q s0 s) :
    Kept q s0 (tenantRead hint n a len s).2 := by
  unfold tenantRead
  refine Kept.ite2 h (Kept.fold2 (fun p v hv => ?_) h)
  split
  · exact hv
  · have hm := kept_memRead hint p.1 p.2 v.2 hv
    split <;> rename_i e <;> rw [e] at hm <;> exact hm

theorem kept_tenantWrite {q : Bool} {s0 : State} (hint : Hint) (n a : Nat) (bs : Bytes) (s : State) (h : Kept q s0 s) :
    Kept q s0 (tenantWrite hint n a bs s) := by
  unfold tenantWrite
  exact Kept.ite h (Kept.fold1 (fun p v hv => kept_memWrite _ _ _ _ hv) h)

theorem kept_atomicOp {qt : Bool} {s0 : State} (code : Nat) (keep : Bool) (a v cmp : Nat) (burst : Bytes) (s : State) (hk : Kept qt s0 s) :
    Kept qt s0 (atomicOp code keep a v cmp burst s).2 := by
  unfold atomicOp
  repeat'
    first
    | (with_reducible first | assumption | apply kept_memWrite | apply kept_bump | apply Kept.iteR | apply Kept.iteR2)
    | (intro _) | extract_lets | split
    | (with_reducible apply Kept.mk') <;> (try exact rfl)

/-! ### Machine/IngotOps.lean -/

theorem kept_dieMod {qt : Bool} {s0 : State} (d : Nat) (f : NvDie → NvDie) (s : State) (hk : Kept qt s0 s) :
    Kept qt s0 (dieMod d f s) := by
  unfold dieMod
  repeat'
    first
    | (with_reducible first | assumption | apply Kept.iteR)
    | (intro _) | extract_lets | split
    | (with_reducible apply Kept.mk') <;> (try exact rfl)

theorem kept_physWrite {qt : Bool} {s0 : State} (die p : Nat) (c : Bytes) (s : State) (hk : Kept qt s0 s) :
    Kept qt s0 (physWrite die p c s) := by
  unfold physWrite
  repeat'
    first
    | (with_reducible first | assumption | apply kept_dieMod | apply Kept.iteR)
    | (intro _) | extract_lets | split
    | (with_reducible apply Kept.mk') <;> (try exact rfl)

theorem kept_physErase {qt : Bool} {s0 : State} (die p : Nat) (s : State) (hk : Kept qt s0 s) :
    Kept qt s0 (physErase die p s) := by
  unfold physErase
  repeat'
    first
    | (with_reducible first | assumption | apply Kept.iteR)
    | (intro _) | extract_lets | split
    | (with_reducible apply Kept.mk') <;> (try exact rfl)

theorem kept_sparesLow {qt : Bool} {s0 : State} (die : Nat) (s : State) (hk : Kept qt s0 s) :
    Kept qt s0 (sparesLow die s) := by
  unfold sparesLow
  repeat'
    first
    | (with_reducible first | assumption | apply kept_raiseFault | apply Kept.iteR)
    | (intro _) | extract_lets | split
    | (with_reducible apply Kept.mk') <;> (try exact rfl)

theorem kept_remapTo {qt : Bool} {s0 : State} (l p : Nat) (s : State) (hk : Kept qt s0 s) :
    Kept qt s0 (remapTo l p s) := by
  unfold remapTo
  repeat'
    first
    | (with_reducible first | assumption | apply kept_bump | apply kept_dieMod | apply Kept.iteR)
    | (intro _) | extract_lets | split
    | (with_reducible apply Kept.mk') <;> (try exact rfl)

theorem kept_writeFrom {q : Bool} {s0 : State} (die : Nat) (c : Bytes) (fuel fails p : Nat) (s : State) (h : Kept q s0 s) :
    Kept q s0 (writeFrom die c fuel fails p s).2 := by
  induction fuel generalizing fails p s with
  | zero => exact h
  | succ n ih =>
    unfold writeFrom
    have h1 : Kept q s0 (physWrite die p c s) := kept_physWrite _ _ _ _ h
    have h2 : Kept q s0 (dieMod die (retire p) (physWrite die p c s)) := kept_dieMod _ _ _ h1
    refine Kept.ite2 h1 ?_
    dsimp only
    split
    · exact h2
    · exact ih _ _ _ (kept_sparesLow _ _ (kept_dieMod _ _ _ h2))

theorem kept_sectorWrite {q : Bool} {s0 : State} (l : Nat) (c : Bytes) (fails : Nat) (s : State) (h : Kept q s0 s) :
    Kept q s0 (sectorWrite l c fails s).2 := by
  unfold sectorWrite
  extract_lets p x
  have hx : Kept q s0 x.2 := kept_writeFrom _ _ _ _ _ _ h
  split
  · exact hx
  · exact Kept.ite hx (kept_remapTo _ _ _ hx)

theorem kept_spareWrite {q : Bool} {s0 : State} (die : Nat) (c : Bytes) (fails : Nat) (s : State) (h : Kept q s0 s) :
    Kept q s0 (spareWrite die c fails s).2 := by
  unfold spareWrite
  split
  · exact h
  · exact kept_writeFrom _ _ _ _ _ _ (kept_sparesLow _ _ (kept_dieMod _ _ _ h))

theorem kept_castMod {qt : Bool} {s0 : State} (c : Nat) (f : CastSlot → CastSlot) (s : State) (hk : Kept qt s0 s) :
    Kept qt s0 (castMod c f s) := by
  unfold castMod
  repeat'
    first
    | (with_reducible first | assumption | apply Kept.iteR)
    | (intro _) | extract_lets | split
    | (with_reducible apply Kept.mk') <;> (try exact rfl)

theorem kept_damage {qt : Bool} {s0 : State} (l : Nat) (s : State) (hk : Kept qt s0 s) :
    Kept qt s0 (damage l s) := by
  unfold damage
  repeat'
    first
    | (with_reducible first | assumption | apply kept_castMod | apply Kept.iteR)
    | (intro _) | extract_lets | split
    | (with_reducible apply Kept.mk') <;> (try exact rfl)

theorem kept_eraseCast {qt : Bool} {s0 : State} (k : CastSlot) (s : State) (hk : Kept qt s0 s) :
    Kept qt s0 (eraseCast k s) := by
  unfold eraseCast
  repeat'
    first
    | (with_reducible first | assumption | apply kept_physErase | apply Kept.iteR | apply Kept.fold | apply Kept.fold2)
    | (with_reducible first | apply Kept.fold1)
    | (intro _) | extract_lets | split
    | (with_reducible apply Kept.mk') <;> (try exact rfl)

theorem kept_queueRefresh {qt : Bool} {s0 : State} (l : Nat) (s : State) (hk : Kept qt s0 s) :
    Kept qt s0 (queueRefresh l s) := by
  unfold queueRefresh
  repeat'
    first
    | (with_reducible first | assumption | apply Kept.iteR)
    | (intro _) | extract_lets | split
    | (with_reducible apply Kept.mk') <;> (try exact rfl)

/-! ### Machine/Kv.lean -/

theorem kept_pageMod {qt : Bool} {s0 : State} (n : Nat) (f : KvPage → KvPage) (s : State) (hk : Kept qt s0 s) :
    Kept qt s0 (pageMod n f s) := by
  unfold pageMod
  repeat'
    first
    | (with_reducible first | assumption | apply Kept.iteR)
    | (intro _) | extract_lets | split
    | (with_reducible apply Kept.mk') <;> (try exact rfl)

theorem kept_kvCtxMod {qt : Bool} {s0 : State} (c : Nat) (f : KvCtx → KvCtx) (s : State) (hk : Kept qt s0 s) :
    Kept qt s0 (kvCtxMod c f s) := by
  unfold kvCtxMod
  repeat'
    first
    | (with_reducible first | assumption | apply Kept.iteR)
    | (intro _) | extract_lets | split
    | (with_reducible apply Kept.mk') <;> (try exact rfl)

theorem kept_freshMarks {qt : Bool} {s0 : State} (n : Nat) (s : State) (hk : Kept qt s0 s) :
    Kept qt s0 (freshMarks n s) := by
  unfold freshMarks
  repeat'
    first
    | (with_reducible first | assumption | apply Kept.iteR)
    | (intro _) | extract_lets | split
    | (with_reducible apply Kept.mk') <;> (try exact rfl)

theorem kept_openSlot {q : Bool} {s0 : State} (id layer pos : Nat) (res : List Nat) (s : State) (h : Kept q s0 s) :
    Kept q s0 (openSlot id layer pos res s).2.2 := by
  unfold openSlot
  split
  · exact h
  · split
    · exact h
    · extract_lets full
      split
      rename_i page res' s' e
      have hs : Kept q s0 s' := by
        split at e
        · split at e
          · cases e
            exact kept_kvCtxMod _ _ _ (Kept.mk' h rfl rfl rfl rfl rfl rfl rfl rfl rfl rfl rfl rfl)
          · cases e; exact h
        · cases e; exact h
      split
      · exact hs
      · exact kept_bump _ _ (kept_pageMod _ _ _ hs)

theorem kept_slotMod {qt : Bool} {s0 : State} (page ix : Nat) (f : KvSlot → KvSlot) (s : State) (hk : Kept qt s0 s) :
    Kept qt s0 (slotMod page ix f s) := by
  unfold slotMod
  repeat'
    first
    | (with_reducible first | assumption | apply kept_pageMod | apply Kept.iteR)
    | (intro _) | extract_lets | split
    | (with_reducible apply Kept.mk') <;> (try exact rfl)

theorem kept_appendK {qt : Bool} {s0 : State} (page ix : Nat) (q : Nat) (draw : Nat → Nat) (vals : List OutVal) (s : State) (hk : Kept qt s0 s) :
    Kept qt s0 (appendK page ix q draw vals s).2 := by
  unfold appendK
  repeat'
    first
    | (with_reducible first | assumption | apply kept_draw | apply kept_slotMod | apply Kept.iteR | apply Kept.iteR2)
    | (intro _) | extract_lets | split | (rename_i e; have e := congrArg Prod.snd e; dsimp only at e; subst e)
    | (with_reducible apply Kept.mk') <;> (try exact rfl)

theorem kept_appendV {q : Bool} {s0 : State} (k : Nat) (draw : Nat → Nat → Nat) (rows : List (Nat × Nat × List OutVal))
    (s : State) (h : Kept q s0 s) : Kept q s0 (appendV k draw rows s).2 := by
  unfold appendV
  extract_lets pages s1
  refine Kept.fold2 (fun a v hv => ?_) ?_
  · extract_lets r
    split
    · exact hv
    · exact kept_slotMod _ _ _ _ hv
  · refine Kept.fold (fun a v hv => ?_) h
    split
    · exact hv
    · exact kept_pageMod _ _ _ hv

theorem kept_slotsMap {qt : Bool} {s0 : State} (id : Nat) (f : KvSlot → KvSlot) (s : State) (hk : Kept qt s0 s) :
    Kept qt s0 (slotsMap id f s) := by
  unfold slotsMap
  repeat'
    first
    | (with_reducible first | assumption | apply kept_pageMod | apply Kept.iteR | apply Kept.fold | apply Kept.fold2)
    | (with_reducible first | apply Kept.fold1)
    | (intro _) | extract_lets | split
    | (with_reducible apply Kept.mk') <;> (try exact rfl)

theorem kept_clearTentative {qt : Bool} {s0 : State} (id : Nat) (s : State) (hk : Kept qt s0 s) :
    Kept qt s0 (clearTentative id s) := by
  unfold clearTentative
  repeat'
    first
    | (with_reducible first | assumption | apply kept_slotsMap | apply Kept.iteR)
    | (intro _) | extract_lets | split
    | (with_reducible apply Kept.mk') <;> (try exact rfl)

theorem kept_rollbackCtx {q : Bool} {s0 : State} (id : Nat) (s : State) (h : Kept q s0 s) :
    Kept q s0 (rollbackCtx id s).2 := by
  unfold rollbackCtx
  split
  · exact h
  · refine Kept.fold2 (fun n v hv => ?_) h
    split
    · exact hv
    · extract_lets left
      refine Kept.ite2 hv (Kept.ite2 ?_ (kept_pageMod _ _ _ hv))
      exact kept_kvCtxMod _ _ _ (Kept.mk' hv rfl rfl rfl rfl rfl rfl rfl rfl rfl rfl rfl rfl)

theorem kept_freeEmpty {qt : Bool} {s0 : State} (id : Nat) (s : State) (hk : Kept qt s0 s) :
    Kept qt s0 (freeEmpty id s) := by
  unfold freeEmpty
  repeat'
    first
    | (with_reducible first | assumption | apply kept_kvCtxMod | apply kept_bump | apply Kept.iteR | apply Kept.fold)
    | (with_reducible first | apply Kept.fold2 | apply Kept.fold1)
    | (intro _) | extract_lets | split
    | (with_reducible apply Kept.mk') <;> (try exact rfl)

theorem kept_scoreLayer {qt : Bool} {s0 : State} (id layer : Nat) (ds : List Delta) (pacc : Option Nat) (s : State) (hk : Kept qt s0 s) :
    Kept qt s0 (scoreLayer id layer ds pacc s) := by
  unfold scoreLayer
  repeat'
    first
    | (with_reducible first | assumption | apply kept_pageMod | apply Kept.iteR | apply Kept.fold | apply Kept.fold2)
    | (with_reducible first | apply Kept.fold1)
    | (intro _) | extract_lets | split
    | (with_reducible apply Kept.mk') <;> (try exact rfl)

theorem kept_compareEvict {qt : Bool} {s0 : State} (id layer : Nat) (mine : Option Bytes) (s : State) (hk : Kept qt s0 s) :
    Kept qt s0 (compareEvict id layer mine s) := by
  unfold compareEvict
  repeat'
    first
    | (with_reducible first | assumption | apply Kept.iteR)
    | (intro _) | extract_lets | split
    | (with_reducible apply Kept.mk') <;> (try exact rfl)

theorem kept_evictLayer {qt : Bool} {s0 : State} (id layer nextPos : Nat) (s : State) (hk : Kept qt s0 s) :
    Kept qt s0 (evictLayer id layer nextPos s) := by
  unfold evictLayer
  repeat'
    first
    | (with_reducible first | assumption | apply kept_compareEvict | apply kept_bump | apply kept_slotMod)
    | (with_reducible first | apply kept_addEntry | apply Kept.iteR | apply Kept.fold | apply Kept.fold2)
    | (with_reducible first | apply Kept.fold1 | apply Kept.iteR2)
    | (intro _) | extract_lets | split
    | (with_reducible apply Kept.mk') <;> (try exact rfl)

theorem kept_setWidth {qt : Bool} {s0 : State} (id new cause off : Nat) (s : State) (hk : Kept qt s0 s) :
    Kept qt s0 (setWidth id new cause off s) := by
  unfold setWidth
  repeat'
    first
    | (with_reducible first | assumption | apply kept_addEntry | apply kept_kvCtxMod | apply Kept.iteR)
    | (intro _) | extract_lets | split
    | (with_reducible apply Kept.mk') <;> (try exact rfl)

theorem kept_widthAfter {qt : Bool} {s0 : State} (id a w : Nat) (s : State) (hk : Kept qt s0 s) :
    Kept qt s0 (widthAfter id a w s) := by
  unfold widthAfter
  repeat'
    first
    | (with_reducible first | assumption | apply kept_bump | apply kept_kvCtxMod | apply kept_setWidth)
    | (with_reducible first | apply Kept.iteR)
    | (intro _) | extract_lets | split
    | (with_reducible apply Kept.mk') <;> (try exact rfl)

theorem kept_doSpecResume {qt : Bool} {s0 : State} (id : Nat) (s : State) (hk : Kept qt s0 s) :
    Kept qt s0 (doSpecResume id s) := by
  unfold doSpecResume
  repeat'
    first
    | (with_reducible first | assumption | apply kept_setWidth | apply Kept.iteR)
    | (intro _) | extract_lets | split
    | (with_reducible apply Kept.mk') <;> (try exact rfl)

theorem kept_createCtx {qt : Bool} {s0 : State} (id tenant : Nat) (d : Bytes) (s : State) (hk : Kept qt s0 s) :
    Kept qt s0 (createCtx id tenant d s) := by
  unfold createCtx
  repeat'
    first
    | (with_reducible first | assumption | apply Kept.iteR)
    | (intro _) | extract_lets | split
    | (with_reducible apply Kept.mk') <;> (try exact rfl)

theorem kept_deleteCtx {qt : Bool} {s0 : State} (id : Nat) (s : State) (hk : Kept qt s0 s) :
    Kept qt s0 (deleteCtx id s) := by
  unfold deleteCtx
  repeat'
    first
    | (with_reducible first | assumption | apply Kept.iteR)
    | (intro _) | extract_lets | split
    | (with_reducible apply Kept.mk') <;> (try exact rfl)

theorem kept_freezeCtx {qt : Bool} {s0 : State} (id : Nat) (s : State) (hk : Kept qt s0 s) :
    Kept qt s0 (freezeCtx id s) := by
  unfold freezeCtx
  repeat'
    first
    | (with_reducible first | assumption | apply kept_pageMod | apply kept_kvCtxMod | apply Kept.iteR)
    | (with_reducible first | apply Kept.fold | apply Kept.fold2 | apply Kept.fold1)
    | (intro _) | extract_lets | split
    | (with_reducible apply Kept.mk') <;> (try exact rfl)

theorem kept_compactLayer {qt : Bool} {s0 : State} (id layer : Nat) (res : List Nat) (s : State) (hk : Kept qt s0 s) :
    Kept qt s0 (compactLayer id layer res s).2 := by
  unfold compactLayer
  repeat'
    first
    | (with_reducible first | assumption | apply kept_freshMarks | apply kept_kvCtxMod | apply kept_addO)
    | (with_reducible first | apply Kept.iteR | apply Kept.fold | apply Kept.fold2 | apply Kept.fold1)
    | (with_reducible first | apply Kept.iteR2)
    | (intro _) | extract_lets | split
    | (with_reducible apply Kept.mk') <;> (try exact rfl)

/-! ### Machine/Serve.lean -/

theorem kept_reqMod {qt : Bool} {s0 : State} (i : Nat) (f : Request → Request) (s : State) (hk : Kept qt s0 s) :
    Kept qt s0 (reqMod i f s) := by
  unfold reqMod
  repeat'
    first
    | (with_reducible first | assumption | apply Kept.iteR)
    | (intro _) | extract_lets | split
    | (with_reducible apply Kept.mk') <;> (try exact rfl)

theorem kept_stepMod {qt : Bool} {s0 : State} (i k : Nat) (f : StepSt → StepSt) (s : State) (hk : Kept qt s0 s) :
    Kept qt s0 (stepMod i k f s) := by
  unfold stepMod
  repeat'
    first
    | (with_reducible first | assumption | apply kept_reqMod | apply Kept.iteR)
    | (intro _) | extract_lets | split
    | (with_reducible apply Kept.mk') <;> (try exact rfl)

theorem kept_ringMod {qt : Bool} {s0 : State} (tenant ring : Nat) (f : Ring → Ring) (s : State) (hk : Kept qt s0 s) :
    Kept qt s0 (ringMod tenant ring f s) := by
  unfold ringMod
  repeat'
    first
    | (with_reducible first | assumption | apply Kept.iteR)
    | (intro _) | extract_lets | split
    | (with_reducible apply Kept.mk') <;> (try exact rfl)

theorem kept_tenantMod {qt : Bool} {s0 : State} (n : Nat) (f : TenantSt → TenantSt) (s : State) (hk : Kept qt s0 s) :
    Kept qt s0 (tenantMod n f s) := by
  unfold tenantMod
  repeat'
    first
    | (with_reducible first | assumption | apply Kept.iteR)
    | (intro _) | extract_lets | split
    | (with_reducible apply Kept.mk') <;> (try exact rfl)

theorem kept_placeRead {q : Bool} {s0 : State} (h' : Hint) (p : Place) (off n : Nat) (s : State) (h : Kept q s0 s) :
    Kept q s0 (placeRead h' p off n s).2 := by
  unfold placeRead
  split
  · exact kept_tenantRead _ _ _ _ _ h
  · exact kept_memRead _ _ _ _ h
  · exact h

theorem kept_placeWrite {q : Bool} {s0 : State} (h' : Hint) (p : Place) (off : Nat) (d : Bytes) (s : State)
    (h : Kept q s0 s) : Kept q s0 (placeWrite h' p off d s) := by
  unfold placeWrite
  split
  · exact kept_tenantWrite _ _ _ _ _ h
  · exact kept_memWrite _ _ _ _ h
  · exact h

theorem kept_releaseUnits {qt : Bool} {s0 : State} (i : Nat) (s : State) (hk : Kept qt s0 s) :
    Kept qt s0 (releaseUnits i s) := by
  unfold releaseUnits
  repeat'
    first
    | (with_reducible first | assumption | apply Kept.iteR | apply Kept.iteR2)
    | (intro _) | extract_lets | split
    | (with_reducible apply Kept.mk') <;> (try exact rfl)

theorem kept_ringFault {qt : Bool} {s0 : State} (tenant ring : Nat) (s : State) (hk : Kept qt s0 s) :
    Kept qt s0 (ringFault tenant ring s) := by
  unfold ringFault
  repeat'
    first
    | (with_reducible first | assumption | apply kept_ringMod | apply kept_bump | apply Kept.iteR)
    | (intro _) | extract_lets | split
    | (with_reducible apply Kept.mk') <;> (try exact rfl)

theorem kept_failRequest {qt : Bool} {s0 : State} (i status : Nat) (s : State) (hk : Kept qt s0 s) :
    Kept qt s0 (failRequest i status s) := by
  unfold failRequest
  repeat'
    first
    | (with_reducible first | assumption | apply kept_releaseUnits | apply kept_bump | apply kept_ringFault)
    | (with_reducible first | apply kept_reqMod | apply Kept.iteR)
    | (intro _) | extract_lets | split
    | (with_reducible apply Kept.mk') <;> (try exact rfl)

theorem kept_leaveSets {qt : Bool} {s0 : State} (i : Nat) (s : State) (hk : Kept qt s0 s) :
    Kept qt s0 (leaveSets i s) := by
  unfold leaveSets
  repeat'
    first
    | (with_reducible first | assumption | apply Kept.iteR | apply Kept.iteR2)
    | (intro _) | extract_lets | split
    | (with_reducible apply Kept.mk') <;> (try exact rfl)

theorem kept_replayRequest {q : Bool} {s0 : State} (i : Nat) (s : State) (h : Kept q s0 s) :
    Kept q s0 (replayRequest i s) := by
  unfold replayRequest
  split
  · exact h
  · refine Kept.ite h ?_
    refine kept_bump _ _ (kept_reqMod _ _ _ ?_)
    exact Kept.fold2 (fun c v hv => kept_rollbackCtx c v.2 hv) (kept_leaveSets _ _ (kept_releaseUnits _ _ h))

theorem kept_stepFaultReplay {qt : Bool} {s0 : State} (code : Nat) (kind : UnitKind) (idx i step : Nat) (detail : Nat) (s : State) (hk : Kept qt s0 s) :
    Kept qt s0 (stepFaultReplay code kind idx i step detail s) := by
  unfold stepFaultReplay
  repeat'
    first
    | (with_reducible first | assumption | apply kept_raiseFault | apply kept_bump | apply kept_replayRequest)
    | (with_reducible first | apply Kept.iteR)
    | (intro _) | extract_lets | split
    | (with_reducible apply Kept.mk') <;> (try exact rfl)

theorem kept_waitFor {qt : Bool} {s0 : State} (x i : Nat) (s : State) (hk : Kept qt s0 s) :
    Kept qt s0 (waitFor x i s) := by
  unfold waitFor
  repeat'
    first
    | (with_reducible first | assumption | apply kept_reqMod | apply Kept.iteR)
    | (intro _) | extract_lets | split
    | (with_reducible apply Kept.mk') <;> (try exact rfl)

theorem kept_noteIngot {qt : Bool} {s0 : State} (code ibn : Nat) (s : State) (hk : Kept qt s0 s) :
    Kept qt s0 (noteIngot code ibn s) := by
  unfold noteIngot
  repeat'
    first
    | (with_reducible first | assumption | apply kept_damage | apply kept_bump | apply Kept.iteR)
    | (intro _) | extract_lets | split
    | (with_reducible apply Kept.mk') <;> (try exact rfl)

theorem kept_ingotFault {qt : Bool} {s0 : State} (code ibn : Nat) (reader : Option (Nat × Nat)) (s : State) (hk : Kept qt s0 s) :
    Kept qt s0 (ingotFault code ibn reader s) := by
  unfold ingotFault
  repeat'
    first
    | (with_reducible first | assumption | apply kept_noteIngot | apply kept_waitFor | apply kept_stepFaultReplay)
    | (with_reducible first | apply Kept.iteR)
    | (intro _) | extract_lets | split
    | (with_reducible apply Kept.mk') <;> (try exact rfl)

theorem kept_useFault {qt : Bool} {s0 : State} (f : UseFault) (g i step : Nat) (s : State) (hk : Kept qt s0 s) :
    Kept qt s0 (useFault f g i step s) := by
  unfold useFault
  repeat'
    first
    | (with_reducible first | assumption | apply kept_failRequest | apply kept_ingotFault | apply kept_stepFaultReplay)
    | (with_reducible first | apply kept_waitFor | apply Kept.iteR)
    | (intro _) | extract_lets | split
    | (with_reducible apply Kept.mk') <;> (try exact rfl)

theorem kept_cplSync {qt : Bool} {s0 : State} (n : Nat) (s : State) (hk : Kept qt s0 s) :
    Kept qt s0 (cplSync n s) := by
  unfold cplSync
  repeat'
    first
    | (with_reducible first | assumption | apply kept_tenantMod | apply Kept.iteR)
    | (intro _) | extract_lets | split
    | (with_reducible apply Kept.mk') <;> (try exact rfl)

theorem kept_cplPut {qt : Bool} {s0 : State} (n : Nat) (rec : Bytes) (s : State) (hk : Kept qt s0 s) :
    Kept qt s0 (cplPut n rec s) := by
  unfold cplPut
  repeat'
    first
    | (with_reducible first | assumption | apply kept_cplSync | apply kept_tenantWrite | apply kept_tenantMod)
    | (with_reducible first | apply Kept.iteR)
    | (intro _) | extract_lets | split
    | (with_reducible apply Kept.mk') <;> (try exact rfl)

theorem kept_cplPublish {qt : Bool} {s0 : State} (n : Nat) (s : State) (hk : Kept qt s0 s) :
    Kept qt s0 (cplPublish n s) := by
  unfold cplPublish
  repeat'
    first
    | (with_reducible first | assumption | apply kept_tenantWrite | apply Kept.iteR)
    | (intro _) | extract_lets | split
    | (with_reducible apply Kept.mk') <;> (try exact rfl)

/-! ### Machine/Variants.lean -/

theorem kept_varMod {qt : Bool} {s0 : State} (v : Nat) (f : VarSlot → VarSlot) (s : State) (hk : Kept qt s0 s) :
    Kept qt s0 (varMod v f s) := by
  unfold varMod
  repeat'
    first
    | (with_reducible first | assumption | apply Kept.iteR)
    | (intro _) | extract_lets | split
    | (with_reducible apply Kept.mk') <;> (try exact rfl)

theorem kept_dropTables {qt : Bool} {s0 : State} (v : Nat) (s : State) (hk : Kept qt s0 s) :
    Kept qt s0 (dropTables v s) := by
  unfold dropTables
  repeat'
    first
    | (with_reducible first | assumption | apply Kept.iteR | apply Kept.iteR2)
    | (intro _) | extract_lets | split
    | (with_reducible apply Kept.mk') <;> (try exact rfl)

theorem kept_freeVar {qt : Bool} {s0 : State} (v : Nat) (s : State) (hk : Kept qt s0 s) :
    Kept qt s0 (freeVar v s) := by
  unfold freeVar
  repeat'
    first
    | (with_reducible first | assumption | apply kept_dropTables | apply Kept.iteR)
    | (intro _) | extract_lets | split
    | (with_reducible apply Kept.mk') <;> (try exact rfl)

theorem kept_endVarSession {qt : Bool} {s0 : State} (code : Nat) (s : State) (hk : Kept qt s0 s) :
    Kept qt s0 (endVarSession code s) := by
  unfold endVarSession
  repeat'
    first
    | (with_reducible first | assumption | apply kept_setO | apply kept_freeVar | apply Kept.iteR)
    | (intro _) | extract_lets | split
    | (with_reducible apply Kept.mk') <;> (try exact rfl)

theorem kept_doVariantLoad {qt : Bool} {s0 : State} (a : Access) (v : Bytes) (s : State) (hk : Kept qt s0 s) :
    Kept qt s0 (doVariantLoad a v s).2 := by
  unfold doVariantLoad
  repeat'
    first
    | (with_reducible first | assumption | apply kept_varMod | apply kept_setO | apply Kept.iteR | apply Kept.iteR2)
    | (intro _) | extract_lets | split
    | (with_reducible apply Kept.mk') <;> (try exact rfl)

theorem kept_doMouldPass {qt : Bool} {s0 : State} (s : State) (hk : Kept qt s0 s) :
    Kept qt s0 (doMouldPass s) := by
  unfold doMouldPass
  repeat'
    first
    | (with_reducible first | assumption | apply kept_endVarSession | apply kept_varMod | apply kept_setO)
    | (with_reducible first | apply Kept.iteR)
    | (intro _) | extract_lets | split
    | (with_reducible apply Kept.mk') <;> (try exact rfl)

theorem kept_doSecondPass {qt : Bool} {s0 : State} (ok : Bool) (s : State) (hk : Kept qt s0 s) :
    Kept qt s0 (doSecondPass ok s) := by
  unfold doSecondPass
  repeat'
    first
    | (with_reducible first | assumption | apply kept_endVarSession | apply kept_bump | apply kept_varMod)
    | (with_reducible first | apply Kept.iteR)
    | (intro _) | extract_lets | split
    | (with_reducible apply Kept.mk') <;> (try exact rfl)

theorem kept_doVariantAbort {qt : Bool} {s0 : State} (a : Access) (v : Nat) (s : State) (hk : Kept qt s0 s) :
    Kept qt s0 (doVariantAbort a v s).2 := by
  unfold doVariantAbort
  repeat'
    first
    | (with_reducible first | assumption | apply kept_endVarSession | apply Kept.iteR | apply Kept.iteR2)
    | (intro _) | extract_lets | split | (rename_i e; have e := congrArg Prod.snd e; dsimp only at e; subst e)
    | (with_reducible apply Kept.mk') <;> (try exact rfl)

theorem kept_doVariantDelete {qt : Bool} {s0 : State} (a : Access) (v : Nat) (s : State) (hk : Kept qt s0 s) :
    Kept qt s0 (doVariantDelete a v s).2 := by
  unfold doVariantDelete
  repeat'
    first
    | (with_reducible first | assumption | apply kept_varMod | apply Kept.iteR | apply Kept.iteR2)
    | (intro _) | extract_lets | split
    | (with_reducible apply Kept.mk') <;> (try exact rfl)

theorem kept_doVariantPointer {qt : Bool} {s0 : State} (a : Access) (p v : Nat) (s : State) (hk : Kept qt s0 s) :
    Kept qt s0 (doVariantPointer a p v s).2 := by
  unfold doVariantPointer
  repeat'
    first
    | (with_reducible first | assumption | apply kept_makePending | apply Kept.iteR | apply Kept.iteR2)
    | (intro _) | extract_lets | split | (rename_i e; have e := congrArg Prod.snd e; dsimp only at e; subst e)
    | (with_reducible apply Kept.mk') <;> (try exact rfl)

theorem kept_switchVarPtr {qt : Bool} {s0 : State} (p v : Nat) (s : State) (hk : Kept qt s0 s) :
    Kept qt s0 (switchVarPtr p v s) := by
  unfold switchVarPtr
  repeat'
    first
    | (with_reducible first | assumption | apply kept_addEntry | apply kept_setO | apply kept_varMod | apply Kept.iteR)
    | (intro _) | extract_lets | split
    | (with_reducible apply Kept.mk') <;> (try exact rfl)

theorem kept_freeVars {qt : Bool} {s0 : State} (s : State) (hk : Kept qt s0 s) :
    Kept qt s0 (freeVars s) := by
  unfold freeVars
  repeat'
    first
    | (with_reducible first | assumption | apply kept_freeVar | apply Kept.iteR | apply Kept.fold | apply Kept.fold2)
    | (with_reducible first | apply Kept.fold1 | apply Kept.iteR2)
    | (intro _) | extract_lets | split
    | (with_reducible apply Kept.mk') <;> (try exact rfl)

theorem kept_doVariantRebuild {qt : Bool} {s0 : State} (v : Nat) (s : State) (hk : Kept qt s0 s) :
    Kept qt s0 (doVariantRebuild v s) := by
  unfold doVariantRebuild
  repeat'
    first
    | (with_reducible first | assumption | apply kept_varMod | apply Kept.iteR)
    | (intro _) | extract_lets | split
    | (with_reducible apply Kept.mk') <;> (try exact rfl)

theorem kept_sieveMod {qt : Bool} {s0 : State} (n : Nat) (f : SieveSt → SieveSt) (s : State) (hk : Kept qt s0 s) :
    Kept qt s0 (sieveMod n f s) := by
  unfold sieveMod
  repeat'
    first
    | (with_reducible first | assumption | apply Kept.iteR)
    | (intro _) | extract_lets | split
    | (with_reducible apply Kept.mk') <;> (try exact rfl)

theorem kept_sieveFault {qt : Bool} {s0 : State} (code n : Nat) (s : State) (hk : Kept qt s0 s) :
    Kept qt s0 (sieveFault code n s) := by
  unfold sieveFault
  repeat'
    first
    | (with_reducible first | assumption | apply kept_stepFaultReplay | apply Kept.iteR)
    | (intro _) | extract_lets | split
    | (with_reducible apply Kept.mk') <;> (try exact rfl)

theorem kept_tableWait {qt : Bool} {s0 : State} (n : Nat) (s : State) (hk : Kept qt s0 s) :
    Kept qt s0 (tableWait n s) := by
  unfold tableWait
  repeat'
    first
    | (with_reducible first | assumption | apply kept_addO | apply Kept.iteR)
    | (intro _) | extract_lets | split
    | (with_reducible apply Kept.mk') <;> (try exact rfl)

theorem kept_tableWaits {qt : Bool} {s0 : State} (n : Nat) (s : State) (hk : Kept qt s0 s) :
    Kept qt s0 (tableWaits n s) := by
  unfold tableWaits
  repeat'
    first
    | (with_reducible first | assumption | apply kept_sieveMod | apply Kept.iteR)
    | (intro _) | extract_lets | split
    | (with_reducible apply Kept.mk') <;> (try exact rfl)

theorem kept_doSieveTable {qt : Bool} {s0 : State} (n v j at' : Nat) (s : State) (hk : Kept qt s0 s) :
    Kept qt s0 (doSieveTable n v j at' s) := by
  unfold doSieveTable
  repeat'
    first
    | (with_reducible first | assumption | apply kept_sieveFault | apply kept_tableWait | apply kept_atT)
    | (with_reducible first | apply kept_sieveMod | apply kept_tableWaits | apply Kept.iteR)
    | (intro _) | extract_lets | split
    | (with_reducible apply Kept.mk') <;> (try exact rfl)

theorem kept_doSieveDecode {qt : Bool} {s0 : State} (n v b at' : Nat) (s : State) (hk : Kept qt s0 s) :
    Kept qt s0 (doSieveDecode n v b at' s) := by
  unfold doSieveDecode
  repeat'
    first
    | (with_reducible first | assumption | apply kept_sieveFault | apply kept_tableWaits | apply kept_tableWait)
    | (with_reducible first | apply kept_atT | apply kept_bump | apply kept_addO | apply kept_sieveMod)
    | (with_reducible first | apply Kept.iteR)
    | (intro _) | extract_lets | split
    | (with_reducible apply Kept.mk') <;> (try exact rfl)

theorem kept_flushSieve {qt : Bool} {s0 : State} (n : Nat) (s : State) (hk : Kept qt s0 s) :
    Kept qt s0 (flushSieve n s) := by
  unfold flushSieve
  repeat'
    first
    | (with_reducible first | assumption | apply kept_sieveMod | apply Kept.iteR)
    | (intro _) | extract_lets | split
    | (with_reducible apply Kept.mk') <;> (try exact rfl)

/-! ### Machine/LinkOps.lean -/

theorem kept_portMod {qt : Bool} {s0 : State} (p : Nat) (f : Port → Port) (s : State) (hk : Kept qt s0 s) :
    Kept qt s0 (portMod p f s) := by
  unfold portMod
  repeat'
    first
    | (with_reducible first | assumption | apply Kept.iteR)
    | (intro _) | extract_lets | split
    | (with_reducible apply Kept.mk') <;> (try exact rfl)

theorem kept_linkBump {qt : Bool} {s0 : State} (i : Nat) (s : State) (hk : Kept qt s0 s) :
    Kept qt s0 (linkBump i s) := by
  unfold linkBump
  repeat'
    first
    | (with_reducible first | assumption | apply kept_bump | apply Kept.iteR)
    | (intro _) | extract_lets | split
    | (with_reducible apply Kept.mk') <;> (try exact rfl)

theorem kept_wire {qt : Bool} {s0 : State} (n : Nat) (f : LinkFrame) (s : State) (hk : Kept qt s0 s) :
    Kept qt s0 (wire n f s) := by
  unfold wire
  repeat'
    first
    | (with_reducible first | assumption | apply kept_portMod | apply kept_emit | apply kept_modelEnergy)
    | (with_reducible first | apply Kept.iteR)
    | (intro _) | extract_lets | split
    | (with_reducible apply Kept.mk') <;> (try exact rfl)

theorem kept_drainPort {q : Bool} {s0 : State} (n k : Nat) (s : State) (h : Kept q s0 s) :
    Kept q s0 (drainPort n k s) := by
  induction k generalizing s with
  | zero => exact h
  | succ k ih =>
    unfold drainPort
    refine Kept.ite h ?_
    split
    · exact h
    · exact ih _ (kept_wire _ _ _ (kept_portMod _ _ _ h))

theorem kept_offer {q : Bool} {s0 : State} (n : Nat) (f : LinkFrame) (s : State) (h : Kept q s0 s) :
    Kept q s0 (offer n f s) :=
  kept_drainPort _ _ _ (kept_portMod _ _ _ h)

theorem kept_routeFrame {qt : Bool} {s0 : State} (f : LinkFrame) (s : State) (hk : Kept qt s0 s) :
    Kept qt s0 (routeFrame f s) := by
  unfold routeFrame
  repeat'
    first
    | (with_reducible first | assumption | apply kept_offer | apply kept_linkBump | apply Kept.iteR)
    | (intro _) | extract_lets | split
    | (with_reducible apply Kept.mk') <;> (try exact rfl)

theorem kept_txMod {qt : Bool} {s0 : State} (k : Nat) (f : FlowTx → FlowTx) (s : State) (hk : Kept qt s0 s) :
    Kept qt s0 (txMod k f s) := by
  unfold txMod
  repeat'
    first
    | (with_reducible first | assumption | apply Kept.iteR)
    | (intro _) | extract_lets | split
    | (with_reducible apply Kept.mk') <;> (try exact rfl)

theorem kept_rxMod {qt : Bool} {s0 : State} (k : Nat) (f : FlowRx → FlowRx) (s : State) (hk : Kept qt s0 s) :
    Kept qt s0 (rxMod k f s) := by
  unfold rxMod
  repeat'
    first
    | (with_reducible first | assumption | apply Kept.iteR)
    | (intro _) | extract_lets | split
    | (with_reducible apply Kept.mk') <;> (try exact rfl)

theorem kept_flowPush {qt : Bool} {s0 : State} (f : LinkFrame) (s : State) (hk : Kept qt s0 s) :
    Kept qt s0 (flowPush f s) := by
  unfold flowPush
  repeat'
    first
    | (with_reducible first | assumption | apply kept_routeFrame | apply kept_txMod | apply Kept.iteR)
    | (intro _) | extract_lets | split
    | (with_reducible apply Kept.mk') <;> (try exact rfl)

theorem kept_flowSend {qt : Bool} {s0 : State} (f : LinkFrame) (s : State) (hk : Kept qt s0 s) :
    Kept qt s0 (flowSend f s) := by
  unfold flowSend
  repeat'
    first
    | (with_reducible first | assumption | apply kept_flowPush | apply kept_txMod | apply Kept.iteR)
    | (intro _) | extract_lets | split
    | (with_reducible apply Kept.mk') <;> (try exact rfl)

theorem kept_flowDrain {q : Bool} {s0 : State} (k n : Nat) (s : State) (h : Kept q s0 s) :
    Kept q s0 (flowDrain k n s) := by
  induction n generalizing s with
  | zero => exact h
  | succ n ih =>
    unfold flowDrain
    split
    · exact h
    · exact Kept.ite (ih _ (kept_flowPush _ _ (kept_txMod _ _ _ h))) h

theorem kept_sendAll {qt : Bool} {s0 : State} (fs : List LinkFrame) (s : State) (hk : Kept qt s0 s) :
    Kept qt s0 (sendAll fs s) := by
  unfold sendAll
  repeat'
    first
    | (with_reducible first | assumption | apply kept_flowSend | apply Kept.iteR | apply Kept.fold | apply Kept.fold2)
    | (with_reducible first | apply Kept.fold1)
    | (intro _) | extract_lets | split
    | (with_reducible apply Kept.mk') <;> (try exact rfl)

theorem kept_sendLate {qt : Bool} {s0 : State} (cause delay : Nat) (s : State) (hk : Kept qt s0 s) :
    Kept qt s0 (sendLate cause delay s) := by
  unfold sendLate
  repeat'
    first
    | (with_reducible first | assumption | apply kept_linkBump | apply kept_routeFrame | apply Kept.iteR)
    | (with_reducible first | apply Kept.fold | apply Kept.fold2 | apply Kept.fold1)
    | (intro _) | extract_lets | split
    | (with_reducible apply Kept.mk') <;> (try exact rfl)

/-! ### Machine/Time.lean -/

theorem kept_setSource {qt : Bool} {s0 : State} (st act : Nat) (s : State) (hk : Kept qt s0 s) :
    Kept qt s0 (setSource st act s) := by
  unfold setSource
  repeat'
    first
    | (with_reducible first | assumption | apply kept_addEntry | apply kept_setO | apply Kept.iteR)
    | (intro _) | extract_lets | split
    | (with_reducible apply Kept.mk') <;> (try exact rfl)

theorem kept_setTrack {qt : Bool} {s0 : State} (src : Nat) (t : SourceTrack) (s : State) (hk : Kept qt s0 s) :
    Kept qt s0 (setTrack src t s) := by
  unfold setTrack
  repeat'
    first
    | (with_reducible first | assumption | apply Kept.iteR)
    | (intro _) | extract_lets | split
    | (with_reducible apply Kept.mk') <;> (try exact rfl)

theorem kept_acquire {qt : Bool} {s0 : State} (src : Nat) (s : State) (hk : Kept qt s0 s) :
    Kept qt s0 (acquire src s) := by
  unfold acquire
  repeat'
    first
    | (with_reducible first | assumption | apply kept_setSource | apply Kept.iteR)
    | (intro _) | extract_lets | split
    | (with_reducible apply Kept.mk') <;> (try exact rfl)

theorem kept_correct {q : Bool} {s0 : State} (src : Nat) (err : Int) (s : State) (hk : Kept q s0 s) :
    Kept q s0 (correct src err s) := by
  unfold correct
  extract_lets near s1 y _ _ s2 g s3
  have h1 : Kept q s0 s1 := kept_setO _ _ _ hk
  have hy : Kept q s0 y.2 := kept_draw _ h1
  clear_value s1 y
  have h2 : Kept q s0 s2 := Kept.ite (Kept.mk' hy) h1
  clear_value s2
  have h3 : Kept q s0 s3 := kept_raiseFault _ _ _ _ _ _ h2
  clear_value s3
  exact Kept.ite (Kept.ite (kept_bump _ _ (Kept.mk' h3)) (Kept.mk' h2)) (Kept.mk' h2)

theorem kept_measure {q : Bool} {s0 : State} (src : Nat) (err : Int) (s : State) (hk : Kept q s0 s) :
    Kept q s0 (measure src err s) := by
  unfold measure
  have h1 := kept_acquire src _ (kept_setTrack src { track s src with
    good := if err.natAbs ≤ getO s oTickLockThresholdNs then (track s src).good + 1 else 0
    lastNs := s.time.now
    missed := 0
    seen := true } s hk)
  exact Kept.ite (kept_correct _ _ _ h1) h1

theorem kept_doSyncTickEdge {qt : Bool} {s0 : State} (pin t : Nat) (s : State) (hk : Kept qt s0 s) :
    Kept qt s0 (doSyncTickEdge pin t s) := by
  unfold doSyncTickEdge
  repeat'
    first
    | (with_reducible first | assumption | apply kept_atT | apply kept_measure | apply kept_bump | apply Kept.iteR)
    | (intro _) | extract_lets | split
    | (with_reducible apply Kept.mk') <;> (try exact rfl)

theorem kept_doSyncMissed {qt : Bool} {s0 : State} (s : State) (hk : Kept qt s0 s) :
    Kept qt s0 (doSyncMissed s) := by
  unfold doSyncMissed
  repeat'
    first
    | (with_reducible first | assumption | apply kept_bump | apply kept_setTrack | apply Kept.iteR)
    | (intro _) | extract_lets | split
    | (with_reducible apply Kept.mk') <;> (try exact rfl)

theorem kept_ptpMod {qt : Bool} {s0 : State} (port : Nat) (f : PtpPort → PtpPort) (s : State) (hk : Kept qt s0 s) :
    Kept qt s0 (ptpMod port f s) := by
  unfold ptpMod
  repeat'
    first
    | (with_reducible first | assumption | apply Kept.iteR)
    | (intro _) | extract_lets | split
    | (with_reducible apply Kept.mk') <;> (try exact rfl)

theorem kept_ptpMeasure {qt : Bool} {s0 : State} (port master : Nat) (off : Int) (ptpTime rx : Nat) (s : State) (hk : Kept qt s0 s) :
    Kept qt s0 (ptpMeasure port master off ptpTime rx s) := by
  unfold ptpMeasure
  repeat'
    first
    | (with_reducible first | assumption | apply kept_ptpMod | apply kept_measure | apply Kept.iteR)
    | (intro _) | extract_lets | split
    | (with_reducible apply Kept.mk') <;> (try exact rfl)

theorem kept_doPtpSync {qt : Bool} {s0 : State} (port : Nat) (form : SyncForm) (master : Nat) (off : Int) (ptpTime t : Nat) (s : State) (hk : Kept qt s0 s) :
    Kept qt s0 (doPtpSync port form master off ptpTime t s) := by
  unfold doPtpSync
  repeat'
    first
    | (with_reducible first | assumption | apply kept_atT | apply kept_ptpMeasure | apply kept_ptpMod)
    | (with_reducible first | apply Kept.iteR)
    | (intro _) | extract_lets | split
    | (with_reducible apply Kept.mk') <;> (try exact rfl)

theorem kept_doSourceLocked {q : Bool} {s0 : State} (src t : Nat) (s : State) (hk : Kept q s0 s) :
    Kept q s0 (doSourceLocked src t s) := by
  unfold doSourceLocked
  extract_lets s1 k s2 _ s3 _ s4
  have h1 : Kept q s0 s1 := kept_atT _ _ hk
  have h2 : Kept q s0 s2 := kept_setTrack _ _ _ h1
  have h3 : Kept q s0 s3 := Kept.mk' h2
  have h4 : Kept q s0 s4 := Kept.ite (Kept.mk' h3) h3
  exact Kept.ite (Kept.ite (Kept.ite (Kept.mk' h4) h4) (kept_setSource _ _ _ h4)) h1

theorem kept_doSourceLoss {qt : Bool} {s0 : State} (t : Nat) (s : State) (hk : Kept qt s0 s) :
    Kept qt s0 (doSourceLoss t s) := by
  unfold doSourceLoss
  repeat'
    first
    | (with_reducible first | assumption | apply kept_atT | apply kept_setTrack | apply kept_setSource)
    | (with_reducible first | apply Kept.iteR)
    | (intro _) | extract_lets | split
    | (with_reducible apply Kept.mk') <;> (try exact rfl)

theorem kept_doHoldoverExpired {qt : Bool} {s0 : State} (t : Nat) (s : State) (hk : Kept qt s0 s) :
    Kept qt s0 (doHoldoverExpired t s) := by
  unfold doHoldoverExpired
  repeat'
    first
    | (with_reducible first | assumption | apply kept_atT | apply kept_setSource | apply Kept.iteR)
    | (intro _) | extract_lets | split
    | (with_reducible apply Kept.mk') <;> (try exact rfl)

theorem kept_doPeerDelay {qt : Bool} {s0 : State} (port : Nat) (request : Bool) (mean : Nat) (s : State) (hk : Kept qt s0 s) :
    Kept qt s0 (doPeerDelay port request mean s) := by
  unfold doPeerDelay
  repeat'
    first
    | (with_reducible first | assumption | apply kept_emit | apply Kept.iteR)
    | (intro _) | extract_lets | split
    | (with_reducible apply Kept.mk') <;> (try exact rfl)

theorem kept_placeGrid {s0 : State} (s : State) (hk : Kept false s0 s) : Kept false s0 (placeGrid s) :=
  hk.trans ⟨rfl, id, id, fun _ x => x, fun e => Bool.noConfusion e⟩

theorem kept_stepTime {s0 : State} (d : Int) (s : State) (hk : Kept false s0 s) : Kept false s0 (stepTime d s) :=
  hk.trans ⟨rfl, id, id, fun _ x => x, fun e => Bool.noConfusion e⟩

theorem kept_nextTick {s0 : State} (s : State) (hk : Kept false s0 s) : Kept false s0 (nextTick s) :=
  hk.trans ⟨rfl, id, id, fun _ x => x, fun e => Bool.noConfusion e⟩

theorem kept_storeGrid {qt : Bool} {s0 : State} (s : State) (hk : Kept qt s0 s) :
    Kept qt s0 (storeGrid s) := by
  unfold storeGrid
  repeat'
    first
    | (with_reducible first | assumption | apply Kept.iteR)
    | (intro _) | extract_lets | split
    | (with_reducible apply Kept.mk') <;> (try exact rfl)

theorem kept_regrid {qt : Bool} {s0 : State} (s : State) (hk : Kept qt s0 s) :
    Kept qt s0 (regrid s) := by
  unfold regrid
  repeat'
    first
    | (with_reducible first | assumption | apply kept_setO | apply kept_storeGrid | apply kept_recFlag)
    | (with_reducible first | apply kept_addEntry | apply Kept.iteR)
    | (intro _) | extract_lets | split
    | (with_reducible apply Kept.mk') <;> (try exact rfl)

theorem kept_placeIfDue {s0 : State} (s : State) (hk : Kept false s0 s) :
    Kept false s0 (placeIfDue s) := by
  unfold placeIfDue
  repeat'
    first
    | (with_reducible first | assumption | apply kept_stepTime | apply kept_placeGrid | apply kept_addEntry)
    | (with_reducible first | apply Kept.iteR)
    | (intro _) | extract_lets | split
    | (with_reducible apply Kept.mk') <;> (try exact rfl)

theorem kept_switchSource {qt : Bool} {s0 : State} (s : State) (hk : Kept qt s0 s) :
    Kept qt s0 (switchSource s) := by
  unfold switchSource
  repeat'
    first
    | (with_reducible first | assumption | apply kept_setSource | apply Kept.iteR)
    | (intro _) | extract_lets | split
    | (with_reducible apply Kept.mk') <;> (try exact rfl)

theorem kept_syncPulses {qt : Bool} {s0 : State} (s : State) (hk : Kept qt s0 s) :
    Kept qt s0 (syncPulses s) := by
  unfold syncPulses
  repeat'
    first
    | (with_reducible first | assumption | apply kept_emit | apply Kept.iteR | apply Kept.fold | apply Kept.fold2)
    | (with_reducible first | apply Kept.fold1)
    | (intro _) | extract_lets | split
    | (with_reducible apply Kept.mk') <;> (try exact rfl)

end Sys2Proof.Machine
end

