-- ==== Sys2Proof/Laws/KeptRun.lean ====
section
/-! SUPPORT. What the operations of the Scheduler and of the data path keep. -/

namespace Sys2Proof.Machine

open Sys2Proof

set_option linter.unusedTactic false
set_option linter.unreachableTactic false

/-! ### Machine/Admit.lean -/

theorem kept_suspendRing {qt : Bool} {s0 : State} (t r cause : Nat) (s : State) (hk : Kept qt s0 s) :
    Kept qt s0 (suspendRing t r cause s) := by
  unfold suspendRing
  repeat'
    first
    | (with_reducible first | assumption | apply kept_bump | apply kept_ringMod | apply Kept.iteR)
    | (intro _) | extract_lets | split
    | (with_reducible apply Kept.mk') <;> (try exact rfl)

theorem kept_readRing {qt : Bool} {s0 : State} (t r : Nat) (s : State) (hk : Kept qt s0 s) :
    Kept qt s0 (readRing t r s) := by
  unfold readRing
  repeat'
    first
    | (with_reducible first | assumption | apply kept_tenantRead | apply kept_ringFault | apply kept_suspendRing)
    | (with_reducible first | apply kept_ringMod | apply Kept.iteR)
    | (intro _) | extract_lets | split | (rename_i e; have e := congrArg Prod.snd e; dsimp only at e; subst e)
    | (with_reducible apply Kept.mk') <;> (try exact rfl)

theorem kept_publishConsumer {qt : Bool} {s0 : State} (t r : Nat) (s : State) (hk : Kept qt s0 s) :
    Kept qt s0 (publishConsumer t r s) := by
  unfold publishConsumer
  repeat'
    first
    | (with_reducible first | assumption | apply kept_tenantWrite | apply Kept.iteR)
    | (intro _) | extract_lets | split
    | (with_reducible apply Kept.mk') <;> (try exact rfl)

theorem kept_takeRefused {qt : Bool} {s0 : State} (t r ix : Nat) (d : Bytes) (status : Nat) (s : State) (hk : Kept qt s0 s) :
    Kept qt s0 (takeRefused t r ix d status s) := by
  unfold takeRefused
  repeat'
    first
    | (with_reducible first | assumption | apply kept_bump | apply kept_ringFault | apply kept_ringMod)
    | (with_reducible first | apply Kept.iteR)
    | (intro _) | extract_lets | split
    | (with_reducible apply Kept.mk') <;> (try exact rfl)

theorem kept_sendImage {qt : Bool} {s0 : State} (i : Nat) (r : Request) (s : State) (hk : Kept qt s0 s) :
    Kept qt s0 (sendImage i r s) := by
  unfold sendImage
  repeat'
    first
    | (with_reducible first | assumption | apply kept_sendAll | apply Kept.iteR | apply Kept.iteR2)
    | (intro _) | extract_lets | split
    | (with_reducible apply Kept.mk') <;> (try exact rfl)

theorem kept_contribute {qt : Bool} {s0 : State} (p : Contribution) (a : Nat) (burst : Bytes) (s : State) (hk : Kept qt s0 s) :
    Kept qt s0 (contribute p a burst s) := by
  unfold contribute
  repeat'
    first
    | (with_reducible first | assumption | apply kept_flowSend | apply Kept.iteR)
    | (intro _) | extract_lets | split
    | (with_reducible apply Kept.mk') <;> (try exact rfl)

theorem kept_flushParts {qt : Bool} {s0 : State} (s : State) (hk : Kept qt s0 s) :
    Kept qt s0 (flushParts s) := by
  unfold flushParts
  repeat'
    first
    | (with_reducible first | assumption | apply kept_sendAll | apply Kept.iteR | apply Kept.iteR2)
    | (intro _) | extract_lets | split
    | (with_reducible apply Kept.mk') <;> (try exact rfl)

theorem kept_takeAdmitted {q : Bool} {s0 : State} (r : Request) (pages scratch : Nat) (p : Plan) (chain : Nat) (big : Bool)
    (s : State) (hk : Kept q s0 s) : Kept q s0 (takeAdmitted r pages scratch p chain big s) := by
  unfold takeAdmitted
  extract_lets i place steps qq bal _ s1 s2 s3 s4 s5 s6 s7 _ s8
  have h1 : Kept q s0 s1 := Kept.mk' hk
  have h2 : Kept q s0 s2 := Kept.ite (kept_castMod _ _ _ h1) h1
  have h3 : Kept q s0 s3 := by
    simp only [s3]
    split
    · exact Kept.ite (kept_varMod _ _ _ h2) h2
    · exact h2
  have h4 : Kept q s0 s4 := Kept.ite h3 (kept_tenantMod _ _ _ h3)
  have h5 : Kept q s0 s5 := kept_ringMod _ _ _ _ h4
  have h6 : Kept q s0 s6 := kept_bump _ _ h5
  have h7 : Kept q s0 s7 := Kept.ite (kept_bump _ _ h6) h6
  have h8 : Kept q s0 s8 := Kept.mk' h7
  exact kept_sendImage _ _ _ (kept_addEntry _ _ h8)

theorem kept_setDeficit {qt : Bool} {s0 : State} (cls t v : Nat) (s : State) (hk : Kept qt s0 s) :
    Kept qt s0 (setDeficit cls t v s) := by
  unfold setDeficit
  repeat'
    first
    | (with_reducible first | assumption | apply kept_tenantMod | apply Kept.iteR)
    | (intro _) | extract_lets | split
    | (with_reducible apply Kept.mk') <;> (try exact rfl)

theorem kept_blockRing {qt : Bool} {s0 : State} (t r : Nat) (s : State) (hk : Kept qt s0 s) :
    Kept qt s0 (blockRing t r s) := by
  unfold blockRing
  repeat'
    first
    | (with_reducible first | assumption | apply kept_ringMod | apply Kept.iteR)
    | (intro _) | extract_lets | split
    | (with_reducible apply Kept.mk') <;> (try exact rfl)

theorem kept_takeHead {qt : Bool} {s0 : State} (deficit : Option Nat) (t r ix : Nat) (d : Bytes) (s : State) (hk : Kept qt s0 s) :
    Kept qt s0 (takeHead deficit t r ix d s).2.2 := by
  unfold takeHead
  repeat'
    first
    | (with_reducible first | assumption | apply kept_blockRing | apply kept_takeRefused | apply kept_takeAdmitted)
    | (with_reducible first | apply kept_bump | apply Kept.iteR | apply Kept.iteR2)
    | (intro _) | extract_lets | split
    | (with_reducible apply Kept.mk') <;> (try exact rfl)

theorem kept_visitLoop {q : Bool} {s0 : State} (cls t n : Nat) (x : Bool × State) (hk : Kept q s0 x.2) :
    Kept q s0 (visitLoop cls t n x).2 := by
  induction n generalizing x with
  | zero => exact hk
  | succ n ih =>
    obtain ⟨any, s⟩ := x
    unfold visitLoop
    refine Kept.ite2 hk ?_
    split
    · exact hk
    · rename_i r _
      have hm := kept_takeHead (some (deficitOf s cls t)) t r (ringGet s t r).consumer (headDesc s t r) s hk
      split <;> rename_i e <;> rw [e] at hm
      · exact hm
      · exact ih _ (kept_setDeficit _ _ _ _ hm)
      · exact ih _ hm

theorem kept_oneRound {q : Bool} {s0 : State} (cls fuel : Nat) (ts : List Nat) (x : Option Nat × State)
    (hk : Kept q s0 x.2) : Kept q s0 (oneRound cls fuel ts x).2 := by
  unfold oneRound
  exact Kept.fold2 (fun t v hv => Kept.ite2 hv (kept_visitLoop _ _ _ _ (kept_setDeficit _ _ _ _ hv))) hk

theorem kept_classRounds {q : Bool} {s0 : State} (cls fuel n : Nat) (x : Option Nat × State)
    (hk : Kept q s0 x.2) : Kept q s0 (classRounds cls fuel n x).2 := by
  induction n generalizing x with
  | zero => exact hk
  | succ n ih =>
    obtain ⟨l, s⟩ := x
    unfold classRounds
    extract_lets ts k s1
    exact Kept.ite2 hk (ih _ (kept_oneRound _ _ _ _ (Kept.fold (fun t v hv => kept_setDeficit _ _ _ _ hv) hk)))

theorem kept_admitClass {q : Bool} {s0 : State} (s : State) (cls : Nat) (hk : Kept q s0 s) :
    Kept q s0 (admitClass s cls) := by
  unfold admitClass
  extract_lets s1 n x
  have h1 : Kept q s0 s1 := Kept.fold (fun t v hv => Kept.ite (kept_setDeficit _ _ _ _ hv) hv) hk
  have h2 : Kept q s0 x.2 := kept_classRounds _ _ _ _ h1
  split
  · exact Kept.mk' h2
  · exact h2

theorem kept_countLeft {qt : Bool} {s0 : State} (s : State) (hk : Kept qt s0 s) :
    Kept qt s0 (countLeft s) := by
  unfold countLeft
  repeat'
    first
    | (with_reducible first | assumption | apply kept_addO | apply Kept.iteR | apply Kept.iteR2)
    | (intro _) | extract_lets | split
    | (with_reducible apply Kept.mk') <;> (try exact rfl)

theorem kept_clearBlocked {qt : Bool} {s0 : State} (s : State) (hk : Kept qt s0 s) :
    Kept qt s0 (clearBlocked s) := by
  unfold clearBlocked
  repeat'
    first
    | (with_reducible first | assumption | apply Kept.iteR | apply Kept.iteR2)
    | (intro _) | extract_lets | split
    | (with_reducible apply Kept.mk') <;> (try exact rfl)

theorem kept_readRings {qt : Bool} {s0 : State} (s : State) (hk : Kept qt s0 s) :
    Kept qt s0 (readRings s) := by
  unfold readRings
  repeat'
    first
    | (with_reducible first | assumption | apply kept_clearBlocked | apply kept_readRing | apply Kept.iteR)
    | (with_reducible first | apply Kept.fold | apply Kept.fold2 | apply Kept.fold1 | apply Kept.iteR2)
    | (intro _) | extract_lets | split
    | (with_reducible apply Kept.mk') <;> (try exact rfl)

theorem kept_admitTick {qt : Bool} {s0 : State} (s : State) (hk : Kept qt s0 s) :
    Kept qt s0 (admitTick s) := by
  unfold admitTick
  repeat'
    first
    | (with_reducible first | assumption | apply kept_readRings | apply kept_countLeft | apply kept_admitClass)
    | (with_reducible first | apply kept_publishConsumer | apply Kept.iteR | apply Kept.fold | apply Kept.fold2)
    | (with_reducible first | apply Kept.fold1 | apply Kept.iteR2)
    | (intro _) | extract_lets | split
    | (with_reducible apply Kept.mk') <;> (try exact rfl)

theorem kept_doAdmitMark {s0 : State} (s : State) (hk : Kept false s0 s) : Kept false s0 (doAdmitMark s) := by
  unfold doAdmitMark
  exact Kept.ite hk (Kept.trans (kept_admitTick _ (kept_atT _ _ hk))
    ⟨rfl, id, id, fun _ x => x, fun e => Bool.noConfusion e⟩)

theorem kept_doTake {qt : Bool} {s0 : State} (kind t r ix : Nat) (d : Bytes) (s : State) (hk : Kept qt s0 s) :
    Kept qt s0 (doTake kind t r ix d s) := by
  unfold doTake
  repeat'
    first
    | (with_reducible first | assumption | apply kept_readRings | apply kept_publishConsumer | apply kept_takeHead)
    | (with_reducible first | apply Kept.iteR | apply Kept.iteR2)
    | (intro _) | extract_lets | split
    | (with_reducible apply Kept.mk') <;> (try exact rfl)

theorem kept_doRingSuspend {qt : Bool} {s0 : State} (t r : Nat) (s : State) (hk : Kept qt s0 s) :
    Kept qt s0 (doRingSuspend t r s) := by
  unfold doRingSuspend
  repeat'
    first
    | (with_reducible first | assumption | apply kept_suspendRing | apply Kept.iteR)
    | (intro _) | extract_lets | split
    | (with_reducible apply Kept.mk') <;> (try exact rfl)

theorem kept_doBudgetWindow {qt : Bool} {s0 : State} (s : State) (hk : Kept qt s0 s) :
    Kept qt s0 (doBudgetWindow s) := by
  unfold doBudgetWindow
  repeat'
    first
    | (with_reducible first | assumption | apply Kept.iteR | apply Kept.iteR2)
    | (intro _) | extract_lets | split
    | (with_reducible apply Kept.mk') <;> (try exact rfl)

/-! ### Machine/DrainRow.lean -/

theorem kept_writeStats {qt : Bool} {s0 : State} (r : Request) (rc : RecipeD) (d : StepD) (o : RowOut) (s : State) (hk : Kept qt s0 s) :
    Kept qt s0 (writeStats r rc d o s) := by
  unfold writeStats
  repeat'
    first
    | (with_reducible first | assumption | apply kept_placeWrite | apply Kept.iteR | apply Kept.fold)
    | (with_reducible first | apply Kept.fold2 | apply Kept.fold1 | apply Kept.iteR2)
    | (intro _) | extract_lets | split
    | (with_reducible apply Kept.mk') <;> (try exact rfl)

/-! ### Machine/Engine.lean -/

theorem kept_unitMod {qt : Bool} {s0 : State} (i step unit : Nat) (f : UnitSt → UnitSt) (s : State) (hk : Kept qt s0 s) :
    Kept qt s0 (unitMod i step unit f s) := by
  unfold unitMod
  repeat'
    first
    | (with_reducible first | assumption | apply kept_reqMod | apply Kept.iteR)
    | (intro _) | extract_lets | split
    | (with_reducible apply Kept.mk') <;> (try exact rfl)

theorem kept_tilePut {qt : Bool} {s0 : State} (g : Nat) (t : Tile) (s : State) (hk : Kept qt s0 s) :
    Kept qt s0 (tilePut g t s) := by
  unfold tilePut
  repeat'
    first
    | (with_reducible first | assumption | apply Kept.iteR)
    | (intro _) | extract_lets | split
    | (with_reducible apply Kept.mk') <;> (try exact rfl)

theorem kept_tileDel {qt : Bool} {s0 : State} (g : Nat) (s : State) (hk : Kept qt s0 s) :
    Kept qt s0 (tileDel g s) := by
  unfold tileDel
  repeat'
    first
    | (with_reducible first | assumption | apply Kept.iteR)
    | (intro _) | extract_lets | split
    | (with_reducible apply Kept.mk') <;> (try exact rfl)

theorem kept_latchPut {qt : Bool} {s0 : State} (g : Nat) (t : Tile) (s : State) (hk : Kept qt s0 s) :
    Kept qt s0 (latchPut g t s) := by
  unfold latchPut
  repeat'
    first
    | (with_reducible first | assumption | apply Kept.iteR)
    | (intro _) | extract_lets | split
    | (with_reducible apply Kept.mk') <;> (try exact rfl)

theorem kept_latchDel {qt : Bool} {s0 : State} (g : Nat) (s : State) (hk : Kept qt s0 s) :
    Kept qt s0 (latchDel g s) := by
  unfold latchDel
  repeat'
    first
    | (with_reducible first | assumption | apply Kept.iteR)
    | (intro _) | extract_lets | split
    | (with_reducible apply Kept.mk') <;> (try exact rfl)

theorem kept_storeMod {qt : Bool} {s0 : State} (n : Nat) (f : TileStore → TileStore) (s : State) (hk : Kept qt s0 s) :
    Kept qt s0 (storeMod n f s) := by
  unfold storeMod
  repeat'
    first
    | (with_reducible first | assumption | apply Kept.iteR)
    | (intro _) | extract_lets | split
    | (with_reducible apply Kept.mk') <;> (try exact rfl)

theorem kept_countTile {qt : Bool} {s0 : State} (t : Tile) (s : State) (hk : Kept qt s0 s) :
    Kept qt s0 (countTile t s) := by
  unfold countTile
  repeat'
    first
    | (with_reducible first | assumption | apply kept_addO | apply Kept.iteR)
    | (intro _) | extract_lets | split
    | (with_reducible apply Kept.mk') <;> (try exact rfl)

theorem kept_saveTile {qt : Bool} {s0 : State} (g : Nat) (u : UnitSt) (t : Tile) (s : State) (hk : Kept qt s0 s) :
    Kept qt s0 (saveTile g u t s).2 := by
  unfold saveTile
  repeat'
    first
    | (with_reducible first | assumption | apply kept_unitMod | apply Kept.iteR | apply Kept.iteR2)
    | (intro _) | extract_lets | split
    | (with_reducible apply Kept.mk') <;> (try exact rfl)

theorem kept_noteFlags {qt : Bool} {s0 : State} (i k : Nat) (t : TileStatus) (s : State) (hk : Kept qt s0 s) :
    Kept qt s0 (noteFlags i k t s) := by
  unfold noteFlags
  repeat'
    first
    | (with_reducible first | assumption | apply kept_stepMod | apply Kept.iteR)
    | (intro _) | extract_lets | split
    | (with_reducible apply Kept.mk') <;> (try exact rfl)

theorem kept_countPaths {qt : Bool} {s0 : State} (d : StepD) (u : UnitSt) (l : List SegPrice) (lost : Nat → Bool) (s : State) (hk : Kept qt s0 s) :
    Kept qt s0 (countPaths d u l lost s) := by
  unfold countPaths
  repeat'
    first
    | (with_reducible first | assumption | apply kept_bump | apply Kept.iteR | apply Kept.fold | apply Kept.fold2)
    | (with_reducible first | apply Kept.fold1 | apply Kept.iteR2)
    | (intro _) | extract_lets | split
    | (with_reducible apply Kept.mk') <;> (try exact rfl)

theorem kept_matchLanes {qt : Bool} {s0 : State} (g i : Nat) (r : Request) (e : PassEnv) (u : UnitSt) (seg first n : Nat) (s : State) (hk : Kept qt s0 s) :
    Kept qt s0 (matchLanes g i r e u seg first n s).2 := by
  unfold matchLanes
  repeat'
    first
    | (with_reducible first | assumption | apply kept_bump | apply Kept.iteR | apply Kept.iteR2)
    | (intro _) | extract_lets | split
    | (with_reducible apply Kept.mk') <;> (try exact rfl)

theorem kept_matchPass {qt : Bool} {s0 : State} (g i : Nat) (r : Request) (e : PassEnv) (u : UnitSt) (l : List SegPrice) (s : State) (hk : Kept qt s0 s) :
    Kept qt s0 (matchPass g i r e u l s).2 := by
  unfold matchPass
  repeat'
    first
    | (with_reducible first | assumption | apply kept_matchLanes | apply Kept.iteR | apply Kept.fold)
    | (with_reducible first | apply Kept.fold2 | apply Kept.fold1 | apply Kept.iteR2)
    | (intro _) | extract_lets | split | (rename_i e; have e := congrArg Prod.snd e; dsimp only at e; subst e)
    | (with_reducible apply Kept.mk') <;> (try exact rfl)

theorem kept_dropBanks {qt : Bool} {s0 : State} (g : Nat) (s : State) (hk : Kept qt s0 s) :
    Kept qt s0 (dropBanks g s) := by
  unfold dropBanks
  repeat'
    first
    | (with_reducible first | assumption | apply Kept.iteR)
    | (intro _) | extract_lets | split
    | (with_reducible apply Kept.mk') <;> (try exact rfl)

theorem kept_startCompact {qt : Bool} {s0 : State} (i : Nat) (u : UnitSt) (s : State) (hk : Kept qt s0 s) :
    Kept qt s0 (startCompact i u s) := by
  unfold startCompact
  repeat'
    first
    | (with_reducible first | assumption | apply kept_tilePut | apply Kept.iteR)
    | (intro _) | extract_lets | split
    | (with_reducible apply Kept.mk') <;> (try exact rfl)

theorem kept_runTile {qt : Bool} {s0 : State} (i : Nat) (r : Request) (u : UnitSt) (e : PassEnv) (l : List SegPrice) (s : State) (hk : Kept qt s0 s) :
    Kept qt s0 (runTile i r u e l s) := by
  unfold runTile
  repeat'
    first
    | (with_reducible first | assumption | apply kept_stepFaultReplay | apply kept_matchPass | apply kept_useFault)
    | (with_reducible first | apply kept_countTile | apply kept_countPaths | apply kept_tilePut | apply Kept.iteR)
    | (with_reducible first | apply Kept.iteR2)
    | (intro _) | extract_lets | split | (rename_i e; have e := congrArg Prod.snd e; dsimp only at e; subst e)
    | (with_reducible apply Kept.mk') <;> (try exact rfl)

theorem kept_runPass {qt : Bool} {s0 : State} (i : Nat) (r : Request) (u : UnitSt) (s : State) (hk : Kept qt s0 s) :
    Kept qt s0 (runPass i r u s) := by
  unfold runPass
  repeat'
    first
    | (with_reducible first | assumption | apply kept_startCompact | apply kept_useFault | apply kept_runTile)
    | (with_reducible first | apply kept_stepMod | apply Kept.iteR | apply Kept.iteR2)
    | (intro _) | extract_lets | split
    | (with_reducible apply Kept.mk') <;> (try exact rfl)

theorem kept_dispatch {qt : Bool} {s0 : State} (i : Nat) (r : Request) (u : UnitSt) (s : State) (hk : Kept qt s0 s) :
    Kept qt s0 (dispatch i r u s) := by
  unfold dispatch
  repeat'
    first
    | (with_reducible first | assumption | apply kept_addEntry | apply kept_stepMod | apply kept_unitMod)
    | (with_reducible first | apply Kept.iteR)
    | (intro _) | extract_lets | split
    | (with_reducible apply Kept.mk') <;> (try exact rfl)

theorem kept_whiskMod {qt : Bool} {s0 : State} (n : Nat) (f : Whisk → Whisk) (s : State) (hk : Kept qt s0 s) :
    Kept qt s0 (whiskMod n f s) := by
  unfold whiskMod
  repeat'
    first
    | (with_reducible first | assumption | apply Kept.iteR)
    | (intro _) | extract_lets | split
    | (with_reducible apply Kept.mk') <;> (try exact rfl)

theorem kept_loadTables {qt : Bool} {s0 : State} (g i : Nat) (r : Request) (u : UnitSt) (s : State) (hk : Kept qt s0 s) :
    Kept qt s0 (loadTables g i r u s) := by
  unfold loadTables
  repeat'
    first
    | (with_reducible first | assumption | apply kept_whiskMod | apply Kept.iteR)
    | (intro _) | extract_lets | split
    | (with_reducible apply Kept.mk') <;> (try exact rfl)

theorem kept_dropSets {qt : Bool} {s0 : State} (f : TableSet → Bool) (s : State) (hk : Kept qt s0 s) :
    Kept qt s0 (dropSets f s) := by
  unfold dropSets
  repeat'
    first
    | (with_reducible first | assumption | apply Kept.iteR | apply Kept.iteR2)
    | (intro _) | extract_lets | split
    | (with_reducible apply Kept.mk') <;> (try exact rfl)

theorem kept_nextPass {qt : Bool} {s0 : State} (i step unit : Nat) (s : State) (hk : Kept qt s0 s) :
    Kept qt s0 (nextPass i step unit s) := by
  unfold nextPass
  repeat'
    first
    | (with_reducible first | assumption | apply kept_runPass | apply Kept.iteR)
    | (intro _) | extract_lets | split
    | (with_reducible apply Kept.mk') <;> (try exact rfl)

theorem kept_startUnit {qt : Bool} {s0 : State} (i : Nat) (r : Request) (u : UnitSt) (s : State) (hk : Kept qt s0 s) :
    Kept qt s0 (startUnit i r u s) := by
  unfold startUnit
  repeat'
    first
    | (with_reducible first | assumption | apply kept_useFault | apply kept_nextPass | apply kept_loadTables)
    | (with_reducible first | apply kept_dispatch | apply Kept.iteR)
    | (intro _) | extract_lets | split
    | (with_reducible apply Kept.mk') <;> (try exact rfl)

theorem kept_doUnitIssue_go {q : Bool} {s0 : State} (g : Nat) (s : State) (hk : Kept q s0 s) :
    Kept q s0 (doUnitIssue.go g s) := by
  unfold doUnitIssue.go
  split
  · exact kept_nextPass _ _ _ _ hk
  · split
    · exact kept_startUnit _ _ _ _ hk
    · exact hk

theorem kept_doUnitIssue {q : Bool} {s0 : State} (g : Nat) (s : State) (hk : Kept q s0 s) :
    Kept q s0 (doUnitIssue g s) := by
  unfold doUnitIssue
  refine Kept.ite hk ?_
  split
  · exact Kept.ite hk (kept_doUnitIssue_go _ _ hk)
  · exact kept_doUnitIssue_go _ _ hk

theorem kept_trackerMod {qt : Bool} {s0 : State} (ref : Nat) (f : Tracker → Tracker) (s : State) (hk : Kept qt s0 s) :
    Kept qt s0 (trackerMod ref f s) := by
  unfold trackerMod
  repeat'
    first
    | (with_reducible first | assumption | apply Kept.iteR)
    | (intro _) | extract_lets | split
    | (with_reducible apply Kept.mk') <;> (try exact rfl)

theorem kept_stepTracked {qt : Bool} {s0 : State} (i k : Nat) (s : State) (hk : Kept qt s0 s) :
    Kept qt s0 (stepTracked i k s) := by
  unfold stepTracked
  repeat'
    first
    | (with_reducible first | assumption | apply kept_stepMod | apply Kept.iteR)
    | (intro _) | extract_lets | split
    | (with_reducible apply Kept.mk') <;> (try exact rfl)

theorem kept_distress {qt : Bool} {s0 : State} (i : Nat) (s : State) (hk : Kept qt s0 s) :
    Kept qt s0 (distress i s) := by
  unfold distress
  repeat'
    first
    | (with_reducible first | assumption | apply kept_reqMod | apply Kept.iteR)
    | (intro _) | extract_lets | split
    | (with_reducible apply Kept.mk') <;> (try exact rfl)

theorem kept_distressAll {qt : Bool} {s0 : State} (ref : Nat) (s : State) (hk : Kept qt s0 s) :
    Kept qt s0 (distressAll ref s) := by
  unfold distressAll
  repeat'
    first
    | (with_reducible first | assumption | apply kept_distress | apply Kept.iteR | apply Kept.fold | apply Kept.fold2)
    | (with_reducible first | apply Kept.fold1 | apply Kept.iteR2)
    | (intro _) | extract_lets | split
    | (with_reducible apply Kept.mk') <;> (try exact rfl)

theorem kept_satDistress {qt : Bool} {s0 : State} (ref : Nat) (sat : Bool) (s : State) (hk : Kept qt s0 s) :
    Kept qt s0 (satDistress ref sat s) := by
  unfold satDistress
  repeat'
    first
    | (with_reducible first | assumption | apply kept_distressAll | apply Kept.iteR)
    | (intro _) | extract_lets | split
    | (with_reducible apply Kept.mk') <;> (try exact rfl)

theorem kept_withhold {qt : Bool} {s0 : State} (i : Nat) (s : State) (hk : Kept qt s0 s) :
    Kept qt s0 (withhold i s) := by
  unfold withhold
  repeat'
    first
    | (with_reducible first | assumption | apply kept_reqMod | apply Kept.iteR)
    | (intro _) | extract_lets | split
    | (with_reducible apply Kept.mk') <;> (try exact rfl)

theorem kept_modelCells {qt : Bool} {s0 : State} (g cycles : Nat) (f : Fmt) (s : State) (hk : Kept qt s0 s) :
    Kept qt s0 (modelCells g cycles f s) := by
  unfold modelCells
  repeat'
    first
    | (with_reducible first | assumption | apply kept_modelEnergy | apply Kept.iteR)
    | (intro _) | extract_lets | split
    | (with_reducible apply Kept.mk') <;> (try exact rfl)

theorem kept_modelLanes {qt : Bool} {s0 : State} (g instrs blocks : Nat) (s : State) (hk : Kept qt s0 s) :
    Kept qt s0 (modelLanes g instrs blocks s) := by
  unfold modelLanes
  repeat'
    first
    | (with_reducible first | assumption | apply kept_modelEnergy | apply Kept.iteR)
    | (intro _) | extract_lets | split
    | (with_reducible apply Kept.mk') <;> (try exact rfl)

theorem kept_finishUnit {qt : Bool} {s0 : State} (i step unit : Nat) (s : State) (hk : Kept qt s0 s) :
    Kept qt s0 (finishUnit i step unit s) := by
  unfold finishUnit
  repeat'
    first
    | (with_reducible first | assumption | apply kept_unitMod | apply Kept.iteR)
    | (intro _) | extract_lets | split
    | (with_reducible apply Kept.mk') <;> (try exact rfl)

theorem kept_settleStep {qt : Bool} {s0 : State} (i k : Nat) (s : State) (hk : Kept qt s0 s) :
    Kept qt s0 (settleStep i k s) := by
  unfold settleStep
  repeat'
    first
    | (with_reducible first | assumption | apply kept_stepMod | apply kept_dropSets | apply kept_reqMod)
    | (with_reducible first | apply Kept.iteR | apply Kept.iteR2)
    | (intro _) | extract_lets | split
    | (with_reducible apply Kept.mk') <;> (try exact rfl)

theorem kept_countCompares {qt : Bool} {s0 : State} (d : StepD) (planes : Bool) (l : List SubTile) (s : State) (hk : Kept qt s0 s) :
    Kept qt s0 (countCompares d planes l s) := by
  unfold countCompares
  repeat'
    first
    | (with_reducible first | assumption | apply kept_addO | apply Kept.iteR)
    | (intro _) | extract_lets | split
    | (with_reducible apply Kept.mk') <;> (try exact rfl)

theorem kept_noteDrain {qt : Bool} {s0 : State} (i k : Nat) (rc : RecipeD) (d : StepD) (f : Fmt) (last : Bool) (l : List SubTile) (s : State) (hk : Kept qt s0 s) :
    Kept qt s0 (noteDrain i k rc d f last l s) := by
  unfold noteDrain
  repeat'
    first
    | (with_reducible first | assumption | apply kept_noteFlags | apply kept_stepTracked | apply kept_trackerMod)
    | (with_reducible first | apply kept_satDistress | apply kept_withhold | apply Kept.iteR | apply Kept.fold)
    | (with_reducible first | apply Kept.fold2 | apply Kept.fold1)
    | (intro _) | extract_lets | split
    | (with_reducible apply Kept.mk') <;> (try exact rfl)

theorem kept_countProg {qt : Bool} {s0 : State} (os : List RowOut) (s : State) (hk : Kept qt s0 s) :
    Kept qt s0 (countProg os s) := by
  unfold countProg
  repeat'
    first
    | (with_reducible first | assumption | apply kept_addO | apply Kept.iteR)
    | (intro _) | extract_lets | split
    | (with_reducible apply Kept.mk') <;> (try exact rfl)

theorem kept_formGate {qt : Bool} {s0 : State} (gr : Nat) (r : Request) (rc : RecipeD) (d : StepD) (u : UnitSt) (t : Tile) (s : State) (hk : Kept qt s0 s) :
    Kept qt s0 (formGate gr r rc d u t s).2 := by
  unfold formGate
  repeat'
    first
    | (with_reducible first | assumption | apply kept_useFault | apply kept_stepFaultReplay | apply kept_countProg)
    | (with_reducible first | apply kept_stepMod | apply kept_writeStats | apply Kept.iteR | apply Kept.fold)
    | (with_reducible first | apply Kept.fold2 | apply Kept.fold1 | apply Kept.iteR2)
    | (intro _) | extract_lets | split
    | (with_reducible apply Kept.mk') <;> (try exact rfl)

theorem kept_spill {qt : Bool} {s0 : State} (g : Nat) (d : StepD) (u : UnitSt) (t : Tile) (s : State) (hk : Kept qt s0 s) :
    Kept qt s0 (spill g d u t s) := by
  unfold spill
  repeat'
    first
    | (with_reducible first | assumption | apply kept_unitMod | apply kept_tileDel | apply kept_bump)
    | (with_reducible first | apply kept_saveTile | apply kept_tilePut | apply Kept.iteR)
    | (intro _) | extract_lets | split | (rename_i e; have e := congrArg Prod.snd e; dsimp only at e; subst e)
    | (with_reducible apply Kept.mk') <;> (try exact rfl)

theorem kept_latchTile {qt : Bool} {s0 : State} (g : Nat) (rc : RecipeD) (d : StepD) (u : UnitSt) (t : Tile) (s : State) (hk : Kept qt s0 s) :
    Kept qt s0 (latchTile g rc d u t s) := by
  unfold latchTile
  repeat'
    first
    | (with_reducible first | assumption | apply kept_latchPut | apply kept_dropBanks | apply kept_tileDel)
    | (with_reducible first | apply kept_unitMod | apply Kept.iteR)
    | (intro _) | extract_lets | split
    | (with_reducible apply Kept.mk') <;> (try exact rfl)

theorem kept_drainCompact {qt : Bool} {s0 : State} (g : Nat) (t : Tile) (s : State) (hk : Kept qt s0 s) :
    Kept qt s0 (drainCompact g t s) := by
  unfold drainCompact
  repeat'
    first
    | (with_reducible first | assumption | apply kept_unitMod | apply kept_tileDel | apply kept_settleStep)
    | (with_reducible first | apply kept_finishUnit | apply Kept.iteR)
    | (intro _) | extract_lets | split
    | (with_reducible apply Kept.mk') <;> (try exact rfl)

theorem kept_drainGated {qt : Bool} {s0 : State} (g : Nat) (r : Request) (rc : RecipeD) (d : StepD) (u : UnitSt) (t : Tile) (s : State) (hk : Kept qt s0 s) :
    Kept qt s0 (drainGated g r rc d u t s).2 := by
  unfold drainGated
  repeat'
    first
    | (with_reducible first | assumption | apply kept_addO | apply kept_formGate | apply kept_stepMod)
    | (with_reducible first | apply Kept.iteR | apply Kept.iteR2)
    | (intro _) | extract_lets | split
    | (with_reducible apply Kept.mk') <;> (try exact rfl)

theorem kept_drainPass {qt : Bool} {s0 : State} (g : Nat) (t : Tile) (r : Request) (u : UnitSt) (s : State) (hk : Kept qt s0 s) :
    Kept qt s0 (drainPass g t r u s) := by
  unfold drainPass
  repeat'
    first
    | (with_reducible first | assumption | apply kept_countCompares | apply kept_countTile)
    | (with_reducible first | apply kept_stepFaultReplay | apply kept_noteDrain | apply kept_modelCells)
    | (with_reducible first | apply kept_unitMod | apply kept_drainGated | apply kept_latchTile | apply kept_spill)
    | (with_reducible first | apply Kept.iteR | apply Kept.iteR2)
    | (intro _) | extract_lets | split
    | (with_reducible apply Kept.mk') <;> (try exact rfl)

theorem kept_doPassDrain {qt : Bool} {s0 : State} (g at' : Nat) (s : State) (hk : Kept qt s0 s) :
    Kept qt s0 (doPassDrain g at' s) := by
  unfold doPassDrain
  repeat'
    first
    | (with_reducible first | assumption | apply kept_atT | apply kept_drainCompact | apply kept_drainPass)
    | (with_reducible first | apply Kept.iteR)
    | (intro _) | extract_lets | split
    | (with_reducible apply Kept.mk') <;> (try exact rfl)

theorem kept_gateCount {qt : Bool} {s0 : State} (ref : Nat) (p a missed wasted : Nat) (s : State) (hk : Kept qt s0 s) :
    Kept qt s0 (gateCount ref p a missed wasted s) := by
  unfold gateCount
  repeat'
    first
    | (with_reducible first | assumption | apply kept_addO | apply Kept.iteR)
    | (intro _) | extract_lets | split
    | (with_reducible apply Kept.mk') <;> (try exact rfl)

theorem kept_doGateKnown {qt : Bool} {s0 : State} (i k u : Nat) (act : List Nat) (s : State) (hk : Kept qt s0 s) :
    Kept qt s0 (doGateKnown i k u act s) := by
  unfold doGateKnown
  repeat'
    first
    | (with_reducible first | assumption | apply kept_gateCount | apply kept_stepMod | apply Kept.iteR)
    | (with_reducible first | apply Kept.iteR2)
    | (intro _) | extract_lets | split
    | (with_reducible apply Kept.mk') <;> (try exact rfl)

theorem kept_doMakeUp {qt : Bool} {s0 : State} (i k u b : Nat) (s : State) (hk : Kept qt s0 s) :
    Kept qt s0 (doMakeUp i k u b s) := by
  unfold doMakeUp
  repeat'
    first
    | (with_reducible first | assumption | apply kept_useFault | apply kept_countCompares | apply kept_countTile)
    | (with_reducible first | apply kept_stepFaultReplay | apply kept_noteDrain | apply kept_addO | apply kept_stepMod)
    | (with_reducible first | apply Kept.iteR)
    | (intro _) | extract_lets | split
    | (with_reducible apply Kept.mk') <;> (try exact rfl)

theorem kept_doMatchBuild {qt : Bool} {s0 : State} (g : Nat) (s : State) (hk : Kept qt s0 s) :
    Kept qt s0 (doMatchBuild g s) := by
  unfold doMatchBuild
  repeat'
    first
    | (with_reducible first | assumption | apply kept_useFault | apply kept_matchLanes | apply Kept.iteR)
    | (with_reducible first | apply Kept.iteR2)
    | (intro _) | extract_lets | split | (rename_i e; have e := congrArg Prod.snd e; dsimp only at e; subst e)
    | (with_reducible apply Kept.mk') <;> (try exact rfl)

/-! ### Machine/Drain.lean -/

theorem kept_writeRow {qt : Bool} {s0 : State} (r : Request) (rc : RecipeD) (d : StepD) (o : RowOut) (s : State) (hk : Kept qt s0 s) :
    Kept qt s0 (writeRow r rc d o s) := by
  unfold writeRow
  repeat'
    first
    | (with_reducible first | assumption | apply kept_placeWrite | apply Kept.iteR | apply Kept.fold)
    | (with_reducible first | apply Kept.fold2 | apply Kept.fold1 | apply Kept.iteR2)
    | (intro _) | extract_lets | split
    | (with_reducible apply Kept.mk') <;> (try exact rfl)

theorem kept_countDrain {qt : Bool} {s0 : State} (os : List RowOut) (s : State) (hk : Kept qt s0 s) :
    Kept qt s0 (countDrain os s) := by
  unfold countDrain
  repeat'
    first
    | (with_reducible first | assumption | apply kept_addO | apply Kept.iteR)
    | (intro _) | extract_lets | split
    | (with_reducible apply Kept.mk') <;> (try exact rfl)

theorem kept_openRows {q : Bool} {s0 : State} (layer : Nat) (rows : List (Row × Nat)) (res : List Nat) (s : State)
    (hk : Kept q s0 s) : Kept q s0 (openRows layer rows res s).2.2 := by
  unfold openRows
  have : ∀ (l : List (Row × Nat)) (x : List (Nat × Nat × Row × Nat) × List Nat × State), Kept q s0 x.2.2 →
      Kept q s0 (l.foldl (fun x r =>
        let o := openSlot r.1.ctx layer r.1.pos x.2.1 x.2.2
        match o.1 with
        | some p => (x.1 ++ [(p.1, p.2, r.1, r.2)], o.2.1, o.2.2)
        | none => (x.1, o.2.1, o.2.2)) x).2.2 := by
    intro l
    induction l with
    | nil => exact fun x h => h
    | cons a l ih =>
      intro x h
      refine ih _ ?_
      have := kept_openSlot a.1.ctx layer a.1.pos x.2.1 x.2.2 h
      dsimp only
      split <;> exact this
  exact this rows _ hk

theorem kept_appendRows {qt : Bool} {s0 : State} (i k : Nat) (r : Request) (d : StepD) (t : TensorD) (q : Nat) (m : SMap (List OutVal)) (width : Nat) (rows : List (Row × Nat)) (s : State) (hk : Kept qt s0 s) :
    Kept qt s0 (appendRows i k r d t q m width rows s) := by
  unfold appendRows
  repeat'
    first
    | (with_reducible first | assumption | apply kept_openRows | apply kept_reqMod | apply kept_appendK)
    | (with_reducible first | apply kept_addO | apply kept_noteFlags | apply kept_appendV | apply Kept.iteR)
    | (with_reducible first | apply Kept.fold | apply Kept.fold2 | apply Kept.fold1 | apply Kept.iteR2)
    | (intro _) | extract_lets | split | (rename_i e; have e := congrArg Prod.snd e; dsimp only at e; subst e)
    | (with_reducible apply Kept.mk') <;> (try exact rfl)

theorem kept_appendStep {q : Bool} {s0 : State} (i k : Nat) (r : Request) (rc : RecipeD) (d : StepD) (s : State)
    (hk : Kept q s0 s) : Kept q s0 (appendStep i k r rc d s) := by
  unfold appendStep
  split
  · exact hk
  · exact kept_stepMod _ _ _ _ (kept_appendRows _ _ _ _ _ _ _ _ _ _ hk)

theorem kept_writeSummary {qt : Bool} {s0 : State} (i k : Nat) (r : Request) (rc : RecipeD) (d : StepD) (s : State) (hk : Kept qt s0 s) :
    Kept qt s0 (writeSummary i k r rc d s) := by
  unfold writeSummary
  repeat'
    first
    | (with_reducible first | assumption | apply kept_placeRead | apply kept_placeWrite | apply Kept.iteR)
    | (with_reducible first | apply Kept.fold | apply Kept.fold2 | apply Kept.fold1 | apply Kept.iteR2)
    | (intro _) | extract_lets | split | (rename_i e; have e := congrArg Prod.snd e; dsimp only at e; subst e)
    | (with_reducible apply Kept.mk') <;> (try exact rfl)

theorem kept_endStep {qt : Bool} {s0 : State} (i k : Nat) (s : State) (hk : Kept qt s0 s) :
    Kept qt s0 (endStep i k s) := by
  unfold endStep
  repeat'
    first
    | (with_reducible first | assumption | apply kept_appendStep | apply kept_writeSummary | apply kept_bump)
    | (with_reducible first | apply kept_settleStep | apply Kept.iteR)
    | (intro _) | extract_lets | split
    | (with_reducible apply Kept.mk') <;> (try exact rfl)

theorem kept_loadWhisk {q : Bool} {s0 : State} (gr : Nat) (s : State) (hk : Kept q s0 s) : Kept q s0 (loadWhisk gr s) := by
  unfold loadWhisk
  split
  · split
    · dsimp only
      split
      · exact kept_whiskMod _ _ _ hk
      · exact hk
    · exact hk
  · exact hk

theorem kept_clearWhisk {q : Bool} {s0 : State} (gr : Nat) (s : State) (hk : Kept q s0 s) : Kept q s0 (clearWhisk gr s) := by
  unfold clearWhisk
  split
  · exact Kept.ite (kept_whiskMod _ _ _ hk) hk
  · exact hk

theorem kept_noteRows {qt : Bool} {s0 : State} (i k : Nat) (d : StepD) (ts : List TileStatus) (os : List RowOut) (s : State) (hk : Kept qt s0 s) :
    Kept qt s0 (noteRows i k d ts os s) := by
  unfold noteRows
  repeat'
    first
    | (with_reducible first | assumption | apply kept_stepMod | apply kept_noteFlags | apply Kept.iteR)
    | (with_reducible first | apply Kept.fold | apply Kept.fold2 | apply Kept.fold1)
    | (intro _) | extract_lets | split
    | (with_reducible apply Kept.mk') <;> (try exact rfl)

theorem kept_applyDrain {q : Bool} {s0 : State} (r : Request) (u : UnitSt) (t : Tile) (e : DrainEnv) (l : List (List RowOut))
    (s : State) (hk : Kept q s0 s) : Kept q s0 (applyDrain r u t e l s) := by
  unfold applyDrain
  extract_lets i os s1 ts s2 s3 s4 s5 s6 ds s7
  have h1 : Kept q s0 s1 := by
    simp only [s1]
    split
    · exact kept_modelLanes _ _ _ _ hk
    · exact hk
  clear_value s1
  have h2 : Kept q s0 s2 := kept_addO _ _ _ (kept_countDrain _ _ h1)
  clear_value s2
  have h3 : Kept q s0 s3 := kept_noteRows _ _ _ _ _ _ (Kept.ite (kept_countProg _ _ h2) h2)
  clear_value s3
  have h4 : Kept q s0 s4 := Kept.ite (kept_stepTracked _ _ _ (kept_trackerMod _ _ _ h3)) h3
  clear_value s4
  have h5 : Kept q s0 s5 := kept_satDistress _ _ _ h4
  clear_value s5
  have h6 : Kept q s0 s6 := Kept.ite (kept_withhold _ _ h5) h5
  clear_value s6
  exact Kept.fold (fun o v hv => kept_writeStats _ _ _ _ _ (kept_writeRow _ _ _ _ _ hv)) (kept_reqMod _ _ _ h6)

theorem kept_drained {q : Bool} {s0 : State} (rc : RecipeD) (d : StepD) (u : UnitSt) (t : Tile) (s : State) (hk : Kept q s0 s) :
    Kept q s0 (drained rc d u t s) := by
  unfold drained
  exact Kept.ite (kept_endStep _ _ _ (kept_finishUnit _ _ _ _ hk)) hk

theorem kept_doFinalDrain {q : Bool} {s0 : State} (gr : Nat) (s : State) (hk : Kept q s0 s) : Kept q s0 (doFinalDrain gr s) := by
  unfold doFinalDrain
  split
  · exact hk
  · refine Kept.ite hk ?_
    split
    · exact hk
    · dsimp only
      split
      · exact kept_useFault _ _ _ _ _ hk
      · exact Kept.ite (kept_stepFaultReplay _ _ _ _ _ _ _ hk)
          (kept_drained _ _ _ _ _ (kept_latchDel _ _ (kept_applyDrain _ _ _ _ _ _ (kept_clearWhisk _ _ hk))))

theorem kept_doTokenSelect {qt : Bool} {s0 : State} (i k : Nat) (s : State) (hk : Kept qt s0 s) :
    Kept qt s0 (doTokenSelect i k s) := by
  unfold doTokenSelect
  repeat'
    first
    | (with_reducible first | assumption | apply kept_useFault | apply kept_placeWrite | apply kept_settleStep)
    | (with_reducible first | apply Kept.iteR | apply Kept.fold | apply Kept.fold2 | apply Kept.fold1)
    | (with_reducible first | apply Kept.iteR2)
    | (intro _) | extract_lets | split
    | (with_reducible apply Kept.mk') <;> (try exact rfl)

/-! ### Machine/Commit.lean -/

theorem kept_resolveRound {qt : Bool} {s0 : State} (k : Round) (s : State) (hk : Kept qt s0 s) :
    Kept qt s0 (resolveRound k s) := by
  unfold resolveRound
  repeat'
    first
    | (with_reducible first | assumption | apply kept_widthAfter | apply kept_addO | apply kept_bump | apply Kept.iteR)
    | (intro _) | extract_lets | split
    | (with_reducible apply Kept.mk') <;> (try exact rfl)

theorem kept_commitSlots {qt : Bool} {s0 : State} (id : Nat) (pacc : Option Nat) (s : State) (hk : Kept qt s0 s) :
    Kept qt s0 (commitSlots id pacc s) := by
  unfold commitSlots
  repeat'
    first
    | (with_reducible first | assumption | apply kept_slotsMap | apply Kept.iteR)
    | (intro _) | extract_lets | split
    | (with_reducible apply Kept.mk') <;> (try exact rfl)

theorem kept_settleVExp {qt : Bool} {s0 : State} (id : Nat) (s : State) (hk : Kept qt s0 s) :
    Kept qt s0 (settleVExp id s) := by
  unfold settleVExp
  repeat'
    first
    | (with_reducible first | assumption | apply kept_pageMod | apply Kept.iteR | apply Kept.fold | apply Kept.fold2)
    | (with_reducible first | apply Kept.fold1)
    | (intro _) | extract_lets | split
    | (with_reducible apply Kept.mk') <;> (try exact rfl)

theorem kept_commitCtx {qt : Bool} {s0 : State} (a : CtxAct) (s : State) (hk : Kept qt s0 s) :
    Kept qt s0 (commitCtx a s) := by
  unfold commitCtx
  repeat'
    first
    | (with_reducible first | assumption | apply kept_resolveRound | apply kept_commitSlots)
    | (with_reducible first | apply kept_clearTentative | apply kept_scoreLayer | apply kept_evictLayer)
    | (with_reducible first | apply kept_freeEmpty | apply kept_kvCtxMod | apply kept_settleVExp | apply Kept.iteR)
    | (with_reducible first | apply Kept.fold | apply Kept.fold2 | apply Kept.fold1)
    | (intro _) | extract_lets | split
    | (with_reducible apply Kept.mk') <;> (try exact rfl)

theorem kept_noteHistories {qt : Bool} {s0 : State} (l : List (Nat × Nat × List Nat)) (s : State) (hk : Kept qt s0 s) :
    Kept qt s0 (noteHistories l s) := by
  unfold noteHistories
  repeat'
    first
    | (with_reducible first | assumption | apply kept_kvCtxMod | apply Kept.iteR | apply Kept.fold | apply Kept.fold2)
    | (with_reducible first | apply Kept.fold1 | apply Kept.iteR2)
    | (intro _) | extract_lets | split
    | (with_reducible apply Kept.mk') <;> (try exact rfl)

theorem kept_commitKind {qt : Bool} {s0 : State} (x : Release) (s : State) (hk : Kept qt s0 s) :
    Kept qt s0 (commitKind x s) := by
  unfold commitKind
  repeat'
    first
    | (with_reducible first | assumption | apply kept_createCtx | apply kept_deleteCtx | apply kept_compactLayer)
    | (with_reducible first | apply kept_freezeCtx | apply Kept.iteR | apply Kept.fold | apply Kept.fold2)
    | (with_reducible first | apply Kept.fold1 | apply Kept.iteR2)
    | (intro _) | extract_lets | split | (rename_i e; have e := congrArg Prod.snd e; dsimp only at e; subst e)
    | (with_reducible apply Kept.mk') <;> (try exact rfl)

theorem kept_commitKv {qt : Bool} {s0 : State} (xs : List Release) (s : State) (hk : Kept qt s0 s) :
    Kept qt s0 (commitKv xs s) := by
  unfold commitKv
  repeat'
    first
    | (with_reducible first | assumption | apply kept_commitCtx | apply kept_noteHistories | apply kept_commitKind)
    | (with_reducible first | apply Kept.iteR | apply Kept.fold | apply Kept.fold2 | apply Kept.fold1)
    | (intro _) | extract_lets | split
    | (with_reducible apply Kept.mk') <;> (try exact rfl)

theorem kept_writeTokens {qt : Bool} {s0 : State} (x : Release) (s : State) (hk : Kept qt s0 s) :
    Kept qt s0 (writeTokens x s).2 := by
  unfold writeTokens
  repeat'
    first
    | (with_reducible first | assumption | apply kept_kvCtxMod | apply kept_tenantWrite | apply Kept.iteR)
    | (with_reducible first | apply Kept.fold | apply Kept.fold2 | apply Kept.fold1 | apply Kept.iteR2)
    | (intro _) | extract_lets | split
    | (with_reducible apply Kept.mk') <;> (try exact rfl)

theorem kept_noticeTo {qt : Bool} {s0 : State} (n : Nat) (record toks : Bytes) (s : State) (hk : Kept qt s0 s) :
    Kept qt s0 (noticeTo n record toks s) := by
  unfold noticeTo
  repeat'
    first
    | (with_reducible first | assumption | apply kept_linkBump | apply kept_flowSend | apply kept_emit)
    | (with_reducible first | apply Kept.iteR)
    | (intro _) | extract_lets | split
    | (with_reducible apply Kept.mk') <;> (try exact rfl)

theorem kept_sendNotice {qt : Bool} {s0 : State} (x : Release) (record toks : Bytes) (s : State) (hk : Kept qt s0 s) :
    Kept qt s0 (sendNotice x record toks s) := by
  unfold sendNotice
  repeat'
    first
    | (with_reducible first | assumption | apply kept_noticeTo | apply Kept.iteR)
    | (intro _) | extract_lets | split
    | (with_reducible apply Kept.mk') <;> (try exact rfl)

theorem kept_writeRecords {qt : Bool} {s0 : State} (tick : Nat) (flags : Nat) (x : Release) (s : State) (hk : Kept qt s0 s) :
    Kept qt s0 (writeRecords tick flags x s) := by
  unfold writeRecords
  repeat'
    first
    | (with_reducible first | assumption | apply kept_writeTokens | apply kept_sendNotice | apply kept_cplPut)
    | (with_reducible first | apply Kept.iteR | apply Kept.iteR2)
    | (intro _) | extract_lets | split
    | (with_reducible apply Kept.mk') <;> (try exact rfl)

theorem kept_dropRequest {qt : Bool} {s0 : State} (i : Nat) (r : Request) (s : State) (hk : Kept qt s0 s) :
    Kept qt s0 (dropRequest i r s) := by
  unfold dropRequest
  repeat'
    first
    | (with_reducible first | assumption | apply kept_releaseUnits | apply kept_castMod | apply kept_varMod)
    | (with_reducible first | apply kept_flushParts | apply Kept.iteR)
    | (intro _) | extract_lets | split
    | (with_reducible apply Kept.mk') <;> (try exact rfl)

theorem kept_markHeld {qt : Bool} {s0 : State} (set : List Nat) (s : State) (hk : Kept qt s0 s) :
    Kept qt s0 (markHeld set s) := by
  unfold markHeld
  repeat'
    first
    | (with_reducible first | assumption | apply kept_bump | apply kept_reqMod | apply Kept.iteR | apply Kept.fold)
    | (with_reducible first | apply Kept.fold2 | apply Kept.fold1)
    | (intro _) | extract_lets | split
    | (with_reducible apply Kept.mk') <;> (try exact rfl)

theorem kept_releaseSet {qt : Bool} {s0 : State} (tick : Nat) (set : List Nat) (s : State) (hk : Kept qt s0 s) :
    Kept qt s0 (releaseSet tick set s) := by
  unfold releaseSet
  repeat'
    first
    | (with_reducible first | assumption | apply kept_commitKv | apply kept_writeRecords | apply kept_dropRequest)
    | (with_reducible first | apply kept_cplPublish | apply kept_markHeld | apply Kept.iteR | apply Kept.fold)
    | (with_reducible first | apply Kept.fold2 | apply Kept.fold1 | apply Kept.iteR2)
    | (intro _) | extract_lets | split
    | (with_reducible apply Kept.mk') <;> (try exact rfl)

theorem kept_commitEntries {qt : Bool} {s0 : State} (set : List Nat) (s : State) (hk : Kept qt s0 s) :
    Kept qt s0 (commitEntries set s) := by
  unfold commitEntries
  repeat'
    first
    | (with_reducible first | assumption | apply kept_addEntry | apply Kept.iteR | apply Kept.fold | apply Kept.fold2)
    | (with_reducible first | apply Kept.fold1 | apply Kept.iteR2)
    | (intro _) | extract_lets | split
    | (with_reducible apply Kept.mk') <;> (try exact rfl)

theorem kept_missDeadlines {qt : Bool} {s0 : State} (tick : Nat) (released : List Nat) (s : State) (hk : Kept qt s0 s) :
    Kept qt s0 (missDeadlines tick released s) := by
  unfold missDeadlines
  repeat'
    first
    | (with_reducible first | assumption | apply kept_bump | apply kept_reqMod | apply Kept.iteR | apply Kept.fold)
    | (with_reducible first | apply Kept.fold2 | apply Kept.fold1 | apply Kept.iteR2)
    | (intro _) | extract_lets | split
    | (with_reducible apply Kept.mk') <;> (try exact rfl)

theorem kept_drainTail {qt : Bool} {s0 : State} (tick t : Nat) (s : State) (hk : Kept qt s0 s) :
    Kept qt s0 (drainTail tick t s) := by
  unfold drainTail
  repeat'
    first
    | (with_reducible first | assumption | apply kept_cplPut | apply kept_tenantMod | apply kept_cplPublish)
    | (with_reducible first | apply Kept.iteR | apply Kept.fold | apply Kept.fold2 | apply Kept.fold1)
    | (with_reducible first | apply Kept.iteR2)
    | (intro _) | extract_lets | split
    | (with_reducible apply Kept.mk') <;> (try exact rfl)

theorem kept_resetTenant {qt : Bool} {s0 : State} (tick t : Nat) (s : State) (hk : Kept qt s0 s) :
    Kept qt s0 (resetTenant tick t s) := by
  unfold resetTenant
  repeat'
    first
    | (with_reducible first | assumption | apply kept_releaseUnits | apply kept_commitCtx | apply kept_writeRecords)
    | (with_reducible first | apply kept_dropRequest | apply kept_publishConsumer | apply kept_ringMod)
    | (with_reducible first | apply kept_addEntry | apply kept_bump | apply kept_tenantMod | apply kept_drainTail)
    | (with_reducible first | apply kept_cplPublish | apply Kept.iteR | apply Kept.fold | apply Kept.fold2)
    | (with_reducible first | apply Kept.fold1 | apply Kept.iteR2)
    | (intro _) | extract_lets | split
    | (with_reducible apply Kept.mk') <;> (try exact rfl)

/-! ### Machine/TileStore.lean -/

theorem kept_bindSteps {q : Bool} {s0 : State} (g p : Nat) (l : List (Nat × Nat)) (s : State) (hk : Kept q s0 s) :
    Kept q s0 (bindSteps g p l s) := by
  induction l generalizing s with
  | nil => exact hk
  | cons a l ih =>
    obtain ⟨i, k⟩ := a
    unfold bindSteps
    refine Kept.ite (ih _ hk) ?_
    split
    · exact ih _ hk
    · dsimp only
      split
      · exact ih _ (kept_storeMod _ _ _ hk)
      · exact kept_bump _ _ hk

theorem kept_doHopperBind {q : Bool} {s0 : State} (g : Nat) (s : State) (hk : Kept q s0 s) :
    Kept q s0 (doHopperBind g s) := by
  unfold doHopperBind
  split
  · exact hk
  · exact Kept.ite hk (kept_bindSteps _ _ _ _ hk)

theorem kept_unbindStep {qt : Bool} {s0 : State} (p i k : Nat) (s : State) (hk : Kept qt s0 s) :
    Kept qt s0 (unbindStep p i k s) := by
  unfold unbindStep
  repeat'
    first
    | (with_reducible first | assumption | apply kept_storeMod | apply Kept.iteR)
    | (intro _) | extract_lets | split
    | (with_reducible apply Kept.mk') <;> (try exact rfl)

theorem kept_doHopperUnbind {qt : Bool} {s0 : State} (g : Nat) (s : State) (hk : Kept qt s0 s) :
    Kept qt s0 (doHopperUnbind g s) := by
  unfold doHopperUnbind
  repeat'
    first
    | (with_reducible first | assumption | apply kept_unbindStep | apply Kept.iteR | apply Kept.fold)
    | (with_reducible first | apply Kept.fold2 | apply Kept.fold1 | apply Kept.iteR2)
    | (intro _) | extract_lets | split
    | (with_reducible apply Kept.mk') <;> (try exact rfl)

theorem kept_moveUnits {qt : Bool} {s0 : State} (g : Nat) (s : State) (hk : Kept qt s0 s) :
    Kept qt s0 (moveUnits g s) := by
  unfold moveUnits
  repeat'
    first
    | (with_reducible first | assumption | apply Kept.iteR | apply Kept.iteR2)
    | (intro _) | extract_lets | split
    | (with_reducible apply Kept.mk') <;> (try exact rfl)

theorem kept_abandon {q : Bool} {s0 : State} (g p : Nat) (s : State) (hk : Kept q s0 s) : Kept q s0 (abandon g p s) := by
  unfold abandon
  extract_lets s1 s2
  have h1 : Kept q s0 s1 := Kept.fold (fun i v hv => kept_replayRequest _ _ hv) hk
  clear_value s1
  have h2 : Kept q s0 s2 := kept_dropBanks g _ (kept_latchDel g _ (kept_tileDel g _ h1))
  clear_value s2
  exact Kept.mk' h2

theorem kept_swapGriddle {qt : Bool} {s0 : State} (g cause : Nat) (s : State) (hk : Kept qt s0 s) :
    Kept qt s0 (swapGriddle g cause s) := by
  unfold swapGriddle
  repeat'
    first
    | (with_reducible first | assumption | apply kept_abandon | apply kept_recast | apply kept_bump)
    | (with_reducible first | apply kept_doHopperBind | apply kept_raiseFault | apply kept_moveUnits | apply Kept.iteR)
    | (intro _) | extract_lets | split
    | (with_reducible apply Kept.mk') <;> (try exact rfl)

theorem kept_doHopperWrite {qt : Bool} {s0 : State} (g n : Nat) (d : Bytes) (at' : Nat) (s : State) (hk : Kept qt s0 s) :
    Kept qt s0 (doHopperWrite g n d at' s) := by
  unfold doHopperWrite
  repeat'
    first
    | (with_reducible first | assumption | apply kept_atT | apply kept_addO | apply kept_storeMod)
    | (with_reducible first | apply kept_modelEnergy | apply Kept.iteR)
    | (intro _) | extract_lets | split
    | (with_reducible apply Kept.mk') <;> (try exact rfl)

theorem kept_reportError {qt : Bool} {s0 : State} (p b : Nat) (s : State) (hk : Kept qt s0 s) :
    Kept qt s0 (reportError p b s) := by
  unfold reportError
  repeat'
    first
    | (with_reducible first | assumption | apply kept_raiseFault | apply kept_bump | apply kept_swapGriddle)
    | (with_reducible first | apply Kept.iteR | apply Kept.iteR2)
    | (intro _) | extract_lets | split
    | (with_reducible apply Kept.mk') <;> (try exact rfl)

theorem kept_noteBack {qt : Bool} {s0 : State} (p b : Nat) (s : State) (hk : Kept qt s0 s) :
    Kept qt s0 (noteBack p b s) := by
  unfold noteBack
  repeat'
    first
    | (with_reducible first | assumption | apply kept_storeMod | apply Kept.iteR | apply Kept.iteR2)
    | (intro _) | extract_lets | split
    | (with_reducible apply Kept.mk') <;> (try exact rfl)

theorem kept_correctBurst {qt : Bool} {s0 : State} (p b : Nat) (s : State) (hk : Kept qt s0 s) :
    Kept qt s0 (correctBurst p b s) := by
  unfold correctBurst
  repeat'
    first
    | (with_reducible first | assumption | apply kept_noteBack | apply kept_reportError | apply kept_bump)
    | (with_reducible first | apply Kept.iteR)
    | (intro _) | extract_lets | split
    | (with_reducible apply Kept.mk') <;> (try exact rfl)

theorem kept_delivered {qt : Bool} {s0 : State} (p n g : Nat) (pl : PlanD) (s : State) (hk : Kept qt s0 s) :
    Kept qt s0 (delivered p n g pl s) := by
  unfold delivered
  repeat'
    first
    | (with_reducible first | assumption | apply kept_useFault | apply kept_storeMod | apply Kept.iteR)
    | (with_reducible first | apply Kept.iteR2)
    | (intro _) | extract_lets | split
    | (with_reducible apply Kept.mk') <;> (try exact rfl)

theorem kept_doHopperRead {qt : Bool} {s0 : State} (g n : Nat) (found : Finding) (at' : Nat) (s : State) (hk : Kept qt s0 s) :
    Kept qt s0 (doHopperRead g n found at' s) := by
  unfold doHopperRead
  repeat'
    first
    | (with_reducible first | assumption | apply kept_atT | apply kept_addO | apply kept_storeMod)
    | (with_reducible first | apply kept_modelEnergy | apply kept_reportError | apply kept_stepFaultReplay)
    | (with_reducible first | apply kept_bump | apply kept_correctBurst | apply kept_delivered | apply Kept.iteR)
    | (intro _) | extract_lets | split
    | (with_reducible apply Kept.mk') <;> (try exact rfl)

theorem kept_scrubBad {qt : Bool} {s0 : State} (p b : Nat) (s : State) (hk : Kept qt s0 s) :
    Kept qt s0 (scrubBad p b s) := by
  unfold scrubBad
  repeat'
    first
    | (with_reducible first | assumption | apply kept_bump | apply kept_reportError | apply kept_storeMod)
    | (with_reducible first | apply kept_noteBack | apply Kept.iteR)
    | (intro _) | extract_lets | split
    | (with_reducible apply Kept.mk') <;> (try exact rfl)

theorem kept_doTileScrub {qt : Bool} {s0 : State} (p : Nat) (found : Finding) (at' : Nat) (s : State) (hk : Kept qt s0 s) :
    Kept qt s0 (doTileScrub p found at' s) := by
  unfold doTileScrub
  repeat'
    first
    | (with_reducible first | assumption | apply kept_atT | apply kept_bump | apply kept_storeMod)
    | (with_reducible first | apply kept_scrubBad | apply kept_correctBurst | apply Kept.iteR)
    | (intro _) | extract_lets | split
    | (with_reducible apply Kept.mk') <;> (try exact rfl)

/-! ### Machine/Marks.lean -/

theorem kept_pausedAt {q : Bool} {s0 : State} (point cause block g i : Nat) (u : UnitSt) (s : State) (hk : Kept q s0 s) :
    Kept q s0 (pausedAt point cause block g i u s) := by
  unfold pausedAt
  extract_lets s1 s2 s3 s4 save
  have h2 : Kept q s0 s2 := kept_dropSets _ _ (kept_dropBanks _ _ (kept_unitMod _ _ _ _ _ hk))
  clear_value s2
  have h3 : Kept q s0 s3 := by
    simp only [s3]
    split
    · exact kept_unbindStep _ _ _ _ h2
    · exact h2
  clear_value s3
  have h4 : Kept q s0 s4 := by
    simp only [s4]
    split
    · exact Kept.ite (kept_flushSieve _ _ h3) h3
    · exact h3
  exact kept_addEntry _ _ h4

theorem kept_pausePass {q : Bool} {s0 : State} (cause g i step unit : Nat) (s : State) (hk : Kept q s0 s) :
    Kept q s0 (pausePass cause g i step unit s) := by
  unfold pausePass
  split
  · exact hk
  · rename_i u _
    refine Kept.ite hk ?_
    extract_lets y
    have hy : Kept q s0 y.2 := by
      simp only [y]
      split
      · exact hk
      · rename_i t _
        have hm := kept_saveTile g u t s hk
        split <;> rename_i e <;> rw [e] at hm
        · exact kept_tileDel _ _ hm
        · exact kept_bump _ _ hm
    split
    · exact kept_pausedAt _ _ _ _ _ _ _ hy
    · exact hy

theorem kept_pauseAfterPass {qt : Bool} {s0 : State} (cause g i : Nat) (r : Request) (u : UnitSt) (t : Tile) (s : State) (hk : Kept qt s0 s) :
    Kept qt s0 (pauseAfterPass cause g i r u t s) := by
  unfold pauseAfterPass
  repeat'
    first
    | (with_reducible first | assumption | apply kept_drainPass | apply kept_pausePass | apply kept_doFinalDrain)
    | (with_reducible first | apply Kept.iteR)
    | (intro _) | extract_lets | split
    | (with_reducible apply Kept.mk') <;> (try exact rfl)

theorem kept_pauseBlock {q : Bool} {s0 : State} (cause g i : Nat) (r : Request) (u : UnitSt) (t : Tile) (s : State)
    (hk : Kept q s0 s) : Kept q s0 (pauseBlock cause g i r u t s) := by
  unfold pauseBlock
  extract_lets d left y k
  have hy : Kept q s0 y.2 := kept_draw _ hk
  split
  · exact kept_pauseAfterPass _ _ _ _ _ _ _ hy
  · rename_i t' _
    have hm := kept_saveTile g u { t' with waitsDrain := false } y.2 hy
    split <;> rename_i e <;> rw [e] at hm
    · exact Kept.ite (kept_bump _ _ hm) (kept_pauseAfterPass _ _ _ _ _ _ _ (kept_bump _ _ hm))
    · exact kept_pausedAt _ _ _ _ _ _ _ (kept_unitMod _ _ _ _ _ (kept_bump _ _ (kept_countTile _ _ (kept_tileDel _ _ hm))))

theorem kept_pauseUnit {qt : Bool} {s0 : State} (cause g i : Nat) (r : Request) (u : UnitSt) (s : State) (hk : Kept qt s0 s) :
    Kept qt s0 (pauseUnit cause g i r u s) := by
  unfold pauseUnit
  repeat'
    first
    | (with_reducible first | assumption | apply kept_pausePass | apply kept_draw | apply kept_pauseAfterPass)
    | (with_reducible first | apply kept_pauseBlock | apply Kept.iteR | apply Kept.iteR2)
    | (intro _) | extract_lets | split | (rename_i e; have e := congrArg Prod.snd e; dsimp only at e; subst e)
    | (with_reducible apply Kept.mk') <;> (try exact rfl)

theorem kept_pauseRunning {qt : Bool} {s0 : State} (cause g : Nat) (s : State) (hk : Kept qt s0 s) :
    Kept qt s0 (pauseRunning cause g s) := by
  unfold pauseRunning
  repeat'
    first
    | (with_reducible first | assumption | apply kept_doFinalDrain | apply kept_pauseUnit | apply Kept.iteR)
    | (intro _) | extract_lets | split
    | (with_reducible apply Kept.mk') <;> (try exact rfl)

theorem kept_doPause {qt : Bool} {s0 : State} (g at' : Nat) (s : State) (hk : Kept qt s0 s) :
    Kept qt s0 (doPause g at' s) := by
  unfold doPause
  repeat'
    first
    | (with_reducible first | assumption | apply kept_pauseRunning | apply kept_atT | apply Kept.iteR)
    | (intro _) | extract_lets | split
    | (with_reducible apply Kept.mk') <;> (try exact rfl)

theorem kept_doResume {q : Bool} {s0 : State} (g i step unit at' : Nat) (s : State) (hk : Kept q s0 s) :
    Kept q s0 (doResume g i step unit at' s) := by
  unfold doResume
  refine Kept.ite hk ?_
  split
  · exact Kept.ite (kept_startUnit _ _ _ _ (kept_atT _ _ hk)) hk
  · exact hk

theorem kept_doLiveReadyYield {qt : Bool} {s0 : State} (g at' : Nat) (s : State) (hk : Kept qt s0 s) :
    Kept qt s0 (doLiveReadyYield g at' s) := by
  unfold doLiveReadyYield
  repeat'
    first
    | (with_reducible first | assumption | apply kept_pauseRunning | apply kept_atT | apply Kept.iteR)
    | (with_reducible first | apply Kept.iteR2)
    | (intro _) | extract_lets | split
    | (with_reducible apply Kept.mk') <;> (try exact rfl)

theorem kept_holdUnit {qt : Bool} {s0 : State} (i : Nat) (u : UnitSt) (s : State) (hk : Kept qt s0 s) :
    Kept qt s0 (holdUnit i u s) := by
  unfold holdUnit
  repeat'
    first
    | (with_reducible first | assumption | apply kept_unitMod | apply kept_bump | apply Kept.iteR)
    | (intro _) | extract_lets | split
    | (with_reducible apply Kept.mk') <;> (try exact rfl)

theorem kept_lateWalk {qt : Bool} {s0 : State} (g : Nat) (s : State) (hk : Kept qt s0 s) :
    Kept qt s0 (lateWalk g s) := by
  unfold lateWalk
  repeat'
    first
    | (with_reducible first | assumption | apply kept_pauseRunning | apply kept_bump | apply kept_holdUnit)
    | (with_reducible first | apply Kept.iteR | apply Kept.fold | apply Kept.fold2 | apply Kept.fold1)
    | (with_reducible first | apply Kept.iteR2)
    | (intro _) | extract_lets | split
    | (with_reducible apply Kept.mk') <;> (try exact rfl)

theorem kept_doLateMark {s0 : State} (s : State) (hk : Kept false s0 s) : Kept false s0 (doLateMark s) := by
  unfold doLateMark
  extract_lets s1 _ s2
  have h1 : Kept false s0 s1 := kept_atT _ _ hk
  have h2 : Kept false s0 s2 := h1.trans ⟨rfl, id, id, fun _ x => x, fun e => Bool.noConfusion e⟩
  exact Kept.ite hk (Kept.ite h2 (Kept.fold (fun g v hv => kept_lateWalk _ _ hv) h2))

theorem kept_flagDistress {q : Bool} {s0 : State} (s : State) (hk : Kept q s0 s) : Kept q s0 (flagDistress s) := by
  unfold flagDistress
  exact Kept.fold (fun e v hv => Kept.ite (kept_distressAll _ _ hv) hv) hk

theorem kept_carryRequest {qt : Bool} {s0 : State} (i : Nat) (r : Request) (s : State) (hk : Kept qt s0 s) :
    Kept qt s0 (carryRequest i r s) := by
  unfold carryRequest
  repeat'
    first
    | (with_reducible first | assumption | apply kept_addEntry | apply kept_recFlag | apply kept_addO)
    | (with_reducible first | apply kept_reqMod | apply Kept.iteR | apply Kept.fold | apply Kept.fold2)
    | (with_reducible first | apply Kept.fold1 | apply Kept.iteR2)
    | (intro _) | extract_lets | split
    | (with_reducible apply Kept.mk') <;> (try exact rfl)

theorem kept_carryAll {qt : Bool} {s0 : State} (s : State) (hk : Kept qt s0 s) :
    Kept qt s0 (carryAll s) := by
  unfold carryAll
  repeat'
    first
    | (with_reducible first | assumption | apply kept_carryRequest | apply Kept.iteR | apply Kept.fold)
    | (with_reducible first | apply Kept.fold2 | apply Kept.fold1 | apply Kept.iteR2)
    | (intro _) | extract_lets | split
    | (with_reducible apply Kept.mk') <;> (try exact rfl)

theorem kept_sealRecord {q : Bool} {s0 : State} (s : State) (hk : Kept q s0 s) : Kept q s0 (sealRecord s) := by
  unfold sealRecord
  refine Kept.ite hk (Kept.ite (Kept.mk' hk) ?_)
  extract_lets b ring
  have hb := drop_bound ring 64
  generalize List.drop (ring.length - 64) ring = l at hb
  exact Kept.mk2 hk id (fun x => ⟨x.1, hb, x.2.2⟩) rfl (fun _ => ⟨rfl, rfl, rfl, rfl, rfl, rfl⟩)

theorem kept_sendMirror {qt : Bool} {s0 : State} (s : State) (hk : Kept qt s0 s) :
    Kept qt s0 (sendMirror s) := by
  unfold sendMirror
  repeat'
    first
    | (with_reducible first | assumption | apply kept_sendAll | apply Kept.iteR)
    | (intro _) | extract_lets | split
    | (with_reducible apply Kept.mk') <;> (try exact rfl)

theorem kept_mirrorAcked {qt : Bool} {s0 : State} (tick : Nat) (s : State) (hk : Kept qt s0 s) :
    Kept qt s0 (mirrorAcked tick s) := by
  unfold mirrorAcked
  repeat'
    first
    | (with_reducible first | assumption | apply kept_releaseSet | apply Kept.iteR | apply Kept.fold)
    | (with_reducible first | apply Kept.fold2 | apply Kept.fold1 | apply Kept.iteR2)
    | (intro _) | extract_lets | split
    | (with_reducible apply Kept.mk') <;> (try exact rfl)

theorem kept_doMirrorAck {qt : Bool} {s0 : State} (tick : Nat) (s : State) (hk : Kept qt s0 s) :
    Kept qt s0 (doMirrorAck tick s) := by
  unfold doMirrorAck
  repeat'
    first
    | (with_reducible first | assumption | apply kept_mirrorAcked | apply Kept.iteR)
    | (intro _) | extract_lets | split
    | (with_reducible apply Kept.mk') <;> (try exact rfl)

theorem kept_mirrorFlowAck {qt : Bool} {s0 : State} (chip vc seq : Nat) (s : State) (hk : Kept qt s0 s) :
    Kept qt s0 (mirrorFlowAck chip vc seq s) := by
  unfold mirrorFlowAck
  repeat'
    first
    | (with_reducible first | assumption | apply kept_flushParts | apply kept_mirrorAcked | apply Kept.iteR)
    | (with_reducible first | apply Kept.iteR2)
    | (intro _) | extract_lets | split
    | (with_reducible apply Kept.mk') <;> (try exact rfl)

theorem kept_doBuddyLost {qt : Bool} {s0 : State} (s : State) (hk : Kept qt s0 s) :
    Kept qt s0 (doBuddyLost s) := by
  unfold doBuddyLost
  repeat'
    first
    | (with_reducible first | assumption | apply kept_releaseSet | apply kept_raiseFault | apply kept_sendAll)
    | (with_reducible first | apply Kept.iteR | apply Kept.iteR2)
    | (intro _) | extract_lets | split
    | (with_reducible apply Kept.mk') <;> (try exact rfl)

theorem kept_doSnapshotAck {qt : Bool} {s0 : State} (chip : Nat) (s : State) (hk : Kept qt s0 s) :
    Kept qt s0 (doSnapshotAck chip s) := by
  unfold doSnapshotAck
  repeat'
    first
    | (with_reducible first | assumption | apply kept_releaseSet | apply Kept.iteR | apply Kept.fold)
    | (with_reducible first | apply Kept.fold2 | apply Kept.fold1 | apply Kept.iteR2)
    | (intro _) | extract_lets | split
    | (with_reducible apply Kept.mk') <;> (try exact rfl)

theorem kept_checkTokens {qt : Bool} {s0 : State} (i : Nat) (r : Request) (s : State) (hk : Kept qt s0 s) :
    Kept qt s0 (checkTokens i r s) := by
  unfold checkTokens
  repeat'
    first
    | (with_reducible first | assumption | apply kept_useFault | apply kept_reqMod | apply Kept.iteR)
    | (with_reducible first | apply Kept.iteR2)
    | (intro _) | extract_lets | split
    | (with_reducible apply Kept.mk') <;> (try exact rfl)

theorem kept_lastFlag {qt : Bool} {s0 : State} (s : State) (hk : Kept qt s0 s) :
    Kept qt s0 (lastFlag s) := by
  unfold lastFlag
  repeat'
    first
    | (with_reducible first | assumption | apply kept_recFlag | apply Kept.iteR)
    | (intro _) | extract_lets | split
    | (with_reducible apply Kept.mk') <;> (try exact rfl)

theorem kept_doCheckMark {s0 : State} (s : State) (hk : Kept false s0 s) : Kept false s0 (doCheckMark s) := by
  unfold doCheckMark
  extract_lets s1 _ s2 s3 s4 set _ s5 s6
  have h1 : Kept false s0 s1 := kept_atT _ _ hk
  have h2 : Kept false s0 s2 := h1.trans ⟨rfl, id, id, fun _ x => x, fun e => Bool.noConfusion e⟩
  have h3 : Kept false s0 s3 := kept_flagDistress _ h2
  clear_value s3
  have h4 : Kept false s0 s4 := Kept.ite (Kept.fold (fun e v hv => kept_checkTokens _ _ _ hv) h3) h3
  clear_value s4
  have h5 : Kept false s0 s5 := Kept.mk' h4
  have h6 : Kept false s0 s6 := kept_commitEntries _ _ h5
  exact Kept.ite hk (Kept.ite h2 (kept_sendMirror _ (kept_sealRecord _ (kept_lastFlag _ (kept_carryAll _ h6)))))

theorem kept_doStepFault {qt : Bool} {s0 : State} (ev : StepFaultEvent) (s : State) (hk : Kept qt s0 s) :
    Kept qt s0 (doStepFault ev s) := by
  unfold doStepFault
  repeat'
    first
    | (with_reducible first | assumption | apply kept_atT | apply kept_noteIngot | apply kept_stepFaultReplay)
    | (with_reducible first | apply kept_waitFor | apply Kept.iteR)
    | (intro _) | extract_lets | split
    | (with_reducible apply Kept.mk') <;> (try exact rfl)

/-! ### Machine/Whisk.lean -/

theorem kept_whiskFail {qt : Bool} {s0 : State} (n : Nat) (s : State) (hk : Kept qt s0 s) :
    Kept qt s0 (whiskFail n s) := by
  unfold whiskFail
  repeat'
    first
    | (with_reducible first | assumption | apply kept_stepFaultReplay | apply Kept.iteR)
    | (intro _) | extract_lets | split
    | (with_reducible apply Kept.mk') <;> (try exact rfl)

theorem kept_whiskDo {q : Bool} {s0 : State} (w : WhiskAt) (i : Instr) (s : State) (hk : Kept q s0 s) :
    Kept q s0 (whiskDo w i s) := by
  have h1 : Kept q s0 (whiskMod w.whisk (whiskOne w i) s) := kept_whiskMod _ _ _ hk
  unfold whiskDo
  exact Kept.ite (Kept.ite (kept_whiskFail _ _ h1) h1) hk

end Sys2Proof.Machine
end

