-- ==== Sys2Proof/Laws/KeptStore.lean ====
section
/-! SUPPORT. What the operations of the Ingot and of the DRAM channels keep. -/

namespace Sys2Proof.Machine

open Sys2Proof

set_option linter.unusedTactic false
set_option linter.unreachableTactic false

/-! ### Machine/Ingot.lean -/

theorem kept_doCastOpen {qt : Bool} {s0 : State} (a : Access) (m : Bytes) (s : State) (hk : Kept qt s0 s) :
    Kept qt s0 (doCastOpen a m s).2 := by
  unfold doCastOpen
  repeat'
    first
    | (with_reducible first | assumption | apply kept_castMod | apply kept_setO | apply Kept.iteR | apply Kept.iteR2)
    | (intro _) | extract_lets | split
    | (with_reducible apply Kept.mk') <;> (try exact rfl)

theorem kept_endCast {qt : Bool} {s0 : State} (code : Nat) (s : State) (hk : Kept qt s0 s) :
    Kept qt s0 (endCast code s) := by
  unfold endCast
  repeat'
    first
    | (with_reducible first | assumption | apply kept_setO | apply Kept.iteR)
    | (intro _) | extract_lets | split
    | (with_reducible apply Kept.mk') <;> (try exact rfl)

theorem kept_doStagingHead {qt : Bool} {s0 : State} (a : Access) (v : Nat) (s : State) (hk : Kept qt s0 s) :
    Kept qt s0 (doStagingHead a v s).2 := by
  unfold doStagingHead
  repeat'
    first
    | (with_reducible first | assumption | apply kept_setO | apply Kept.iteR | apply Kept.iteR2)
    | (intro _) | extract_lets | split
    | (with_reducible apply Kept.mk') <;> (try exact rfl)

theorem kept_doStagingEntry {qt : Bool} {s0 : State} (fails : Nat) (s : State) (hk : Kept qt s0 s) :
    Kept qt s0 (doStagingEntry fails s) := by
  unfold doStagingEntry
  repeat'
    first
    | (with_reducible first | assumption | apply kept_endCast | apply kept_sectorWrite | apply kept_castMod)
    | (with_reducible first | apply kept_setO | apply Kept.iteR | apply Kept.iteR2)
    | (intro _) | extract_lets | split | (rename_i e; have e := congrArg Prod.snd e; dsimp only at e; subst e)
    | (with_reducible apply Kept.mk') <;> (try exact rfl)

theorem kept_writeDigest {qt : Bool} {s0 : State} (c : Nat) (fails : List Nat) (s : State) (hk : Kept qt s0 s) :
    Kept qt s0 (writeDigest c fails s).2 := by
  unfold writeDigest
  repeat'
    first
    | (with_reducible first | assumption | apply kept_sectorWrite | apply Kept.iteR | apply Kept.fold)
    | (with_reducible first | apply Kept.fold2 | apply Kept.fold1 | apply Kept.iteR2)
    | (intro _) | extract_lets | split
    | (with_reducible apply Kept.mk') <;> (try exact rfl)

theorem kept_doCastDataComplete {qt : Bool} {s0 : State} (s : State) (hk : Kept qt s0 s) :
    Kept qt s0 (doCastDataComplete s) := by
  unfold doCastDataComplete
  repeat'
    first
    | (with_reducible first | assumption | apply kept_drawMany | apply kept_writeDigest | apply kept_endCast | apply kept_castMod)
    | (with_reducible first | apply Kept.iteR | apply Kept.iteR2)
    | (intro _) | extract_lets | split | (rename_i e; have e := congrArg Prod.snd e; dsimp only at e; subst e)
    | (with_reducible apply Kept.mk') <;> (try exact rfl)

theorem kept_doCastVerify {qt : Bool} {s0 : State} (ok : Bool) (s : State) (hk : Kept qt s0 s) :
    Kept qt s0 (doCastVerify ok s) := by
  unfold doCastVerify
  repeat'
    first
    | (with_reducible first | assumption | apply kept_endCast | apply kept_castMod | apply Kept.iteR)
    | (intro _) | extract_lets | split
    | (with_reducible apply Kept.mk') <;> (try exact rfl)

theorem kept_doCastAbort {qt : Bool} {s0 : State} (a : Access) (v : Nat) (s : State) (hk : Kept qt s0 s) :
    Kept qt s0 (doCastAbort a v s).2 := by
  unfold doCastAbort
  repeat'
    first
    | (with_reducible first | assumption | apply kept_endCast | apply Kept.iteR | apply Kept.iteR2)
    | (intro _) | extract_lets | split | (rename_i e; have e := congrArg Prod.snd e; dsimp only at e; subst e)
    | (with_reducible apply Kept.mk') <;> (try exact rfl)

theorem kept_doCastAdopt {qt : Bool} {s0 : State} (a : Access) (v : Bytes) (s : State) (hk : Kept qt s0 s) :
    Kept qt s0 (doCastAdopt a v s).2 := by
  unfold doCastAdopt
  repeat'
    first
    | (with_reducible first | assumption | apply kept_castMod | apply Kept.iteR | apply Kept.iteR2)
    | (intro _) | extract_lets | split
    | (with_reducible apply Kept.mk') <;> (try exact rfl)

theorem kept_doCastDelete {qt : Bool} {s0 : State} (a : Access) (v : Nat) (s : State) (hk : Kept qt s0 s) :
    Kept qt s0 (doCastDelete a v s).2 := by
  unfold doCastDelete
  repeat'
    first
    | (with_reducible first | assumption | apply kept_castMod | apply Kept.iteR | apply Kept.iteR2)
    | (intro _) | extract_lets | split | (rename_i e; have e := congrArg Prod.snd e; dsimp only at e; subst e)
    | (with_reducible apply Kept.mk') <;> (try exact rfl)

theorem kept_doCastPointer {qt : Bool} {s0 : State} (a : Access) (p v : Nat) (s : State) (hk : Kept qt s0 s) :
    Kept qt s0 (doCastPointer a p v s).2 := by
  unfold doCastPointer
  repeat'
    first
    | (with_reducible first | assumption | apply kept_makePending | apply Kept.iteR | apply Kept.iteR2)
    | (intro _) | extract_lets | split | (rename_i e; have e := congrArg Prod.snd e; dsimp only at e; subst e)
    | (with_reducible apply Kept.mk') <;> (try exact rfl)

theorem kept_freeCasts {qt : Bool} {s0 : State} (s : State) (hk : Kept qt s0 s) :
    Kept qt s0 (freeCasts s) := by
  unfold freeCasts
  repeat'
    first
    | (with_reducible first | assumption | apply kept_eraseCast | apply Kept.iteR | apply Kept.fold | apply Kept.fold2)
    | (with_reducible first | apply Kept.fold1 | apply Kept.iteR2)
    | (intro _) | extract_lets | split
    | (with_reducible apply Kept.mk') <;> (try exact rfl)

theorem kept_corrected {qt : Bool} {s0 : State} (l bits : Nat) (s : State) (hk : Kept qt s0 s) :
    Kept qt s0 (corrected l bits s) := by
  unfold corrected
  repeat'
    first
    | (with_reducible first | assumption | apply kept_bump | apply kept_queueRefresh | apply Kept.iteR)
    | (intro _) | extract_lets | split
    | (with_reducible apply Kept.mk') <;> (try exact rfl)

theorem kept_ingotFind {qt : Bool} {s0 : State} (ibn : Nat) (found : IngotFinding) (s : State) (hk : Kept qt s0 s) :
    Kept qt s0 (ingotFind ibn found s).2 := by
  unfold ingotFind
  repeat'
    first
    | (with_reducible first | assumption | apply kept_corrected | apply kept_queueRefresh | apply kept_bump)
    | (with_reducible first | apply Kept.iteR | apply Kept.iteR2)
    | (intro _) | extract_lets | split
    | (with_reducible apply Kept.mk') <;> (try exact rfl)

theorem kept_doIngotRead {qt : Bool} {s0 : State} (ibn : Nat) (found : IngotFinding) (reader : Option (Nat × Nat)) (at' : Nat) (s : State) (hk : Kept qt s0 s) :
    Kept qt s0 (doIngotRead ibn found reader at' s) := by
  unfold doIngotRead
  repeat'
    first
    | (with_reducible first | assumption | apply kept_ingotFind | apply kept_modelEnergy | apply kept_atT)
    | (with_reducible first | apply kept_ingotFault | apply Kept.iteR | apply Kept.iteR2)
    | (intro _) | extract_lets | split | (rename_i e; have e := congrArg Prod.snd e; dsimp only at e; subst e)
    | (with_reducible apply Kept.mk') <;> (try exact rfl)

theorem kept_powerPatrol {qt : Bool} {s0 : State} (s : State) (hk : Kept qt s0 s) :
    Kept qt s0 (powerPatrol s) := by
  unfold powerPatrol
  repeat'
    first
    | (with_reducible first | assumption | apply Kept.iteR | apply Kept.iteR2)
    | (intro _) | extract_lets | split
    | (with_reducible apply Kept.mk') <;> (try exact rfl)

theorem kept_sweepEnd {qt : Bool} {s0 : State} (c : Nat) (s : State) (hk : Kept qt s0 s) :
    Kept qt s0 (sweepEnd c s) := by
  unfold sweepEnd
  repeat'
    first
    | (with_reducible first | assumption | apply kept_castMod | apply kept_draw | apply kept_damage | apply Kept.iteR)
    | (with_reducible first | apply Kept.fold | apply Kept.fold2 | apply Kept.fold1 | apply Kept.iteR2)
    | (intro _) | extract_lets | split
    | (with_reducible apply Kept.mk') <;> (try exact rfl)

theorem kept_patrolBlocks {qt : Bool} {s0 : State} (l : Nat) (found : List (Nat × IngotFinding)) (s : State) (hk : Kept qt s0 s) :
    Kept qt s0 (patrolBlocks l found s) := by
  unfold patrolBlocks
  repeat'
    first
    | (with_reducible first | assumption | apply kept_corrected | apply kept_ingotFind | apply kept_ingotFault)
    | (with_reducible first | apply Kept.iteR | apply Kept.fold | apply Kept.fold2 | apply Kept.fold1)
    | (with_reducible first | apply Kept.iteR2)
    | (intro _) | extract_lets | split | (rename_i e; have e := congrArg Prod.snd e; dsimp only at e; subst e)
    | (with_reducible apply Kept.mk') <;> (try exact rfl)

theorem kept_patrolSector {qt : Bool} {s0 : State} (l : Nat) (found : List (Nat × IngotFinding)) (s : State) (hk : Kept qt s0 s) :
    Kept qt s0 (patrolSector l found s) := by
  unfold patrolSector
  repeat'
    first
    | (with_reducible first | assumption | apply kept_patrolBlocks | apply kept_damage | apply Kept.iteR)
    | (intro _) | extract_lets | split
    | (with_reducible apply Kept.mk') <;> (try exact rfl)

theorem kept_doPatrol {qt : Bool} {s0 : State} (found : List (Nat × IngotFinding)) (at' : Nat) (s : State) (hk : Kept qt s0 s) :
    Kept qt s0 (doPatrol found at' s) := by
  unfold doPatrol
  repeat'
    first
    | (with_reducible first | assumption | apply kept_patrolSector | apply kept_atT | apply kept_sweepEnd)
    | (with_reducible first | apply kept_powerPatrol | apply kept_bump | apply Kept.iteR)
    | (intro _) | extract_lets | split
    | (with_reducible apply Kept.mk') <;> (try exact rfl)

theorem kept_doRefresh {qt : Bool} {s0 : State} (l fails : Nat) (s : State) (hk : Kept qt s0 s) :
    Kept qt s0 (doRefresh l fails s) := by
  unfold doRefresh
  repeat'
    first
    | (with_reducible first | assumption | apply kept_damage | apply kept_spareWrite | apply kept_bump)
    | (with_reducible first | apply Kept.iteR | apply Kept.iteR2)
    | (intro _) | extract_lets | split | (rename_i e; have e := congrArg Prod.snd e; dsimp only at e; subst e)
    | (with_reducible apply Kept.mk') <;> (try exact rfl)

theorem kept_doRepairData {qt : Bool} {s0 : State} (l : Nat) (d : Bytes) (fails : Nat) (s : State) (hk : Kept qt s0 s) :
    Kept qt s0 (doRepairData l d fails s) := by
  unfold doRepairData
  repeat'
    first
    | (with_reducible first | assumption | apply kept_spareWrite | apply kept_bump | apply Kept.iteR)
    | (with_reducible first | apply Kept.iteR2)
    | (intro _) | extract_lets | split | (rename_i e; have e := congrArg Prod.snd e; dsimp only at e; subst e)
    | (with_reducible apply Kept.mk') <;> (try exact rfl)

theorem kept_giveBack {qt : Bool} {s0 : State} (die p : Nat) (s : State) (hk : Kept qt s0 s) :
    Kept qt s0 (giveBack die p s) := by
  unfold giveBack
  repeat'
    first
    | (with_reducible first | assumption | apply kept_physErase | apply kept_dieMod | apply Kept.iteR)
    | (intro _) | extract_lets | split
    | (with_reducible apply Kept.mk') <;> (try exact rfl)

theorem kept_askRepair {qt : Bool} {s0 : State} (l : Nat) (s : State) (hk : Kept qt s0 s) :
    Kept qt s0 (askRepair l s) := by
  unfold askRepair
  repeat'
    first
    | (with_reducible first | assumption | apply kept_flowSend | apply Kept.iteR | apply Kept.iteR2)
    | (intro _) | extract_lets | split
    | (with_reducible apply Kept.mk') <;> (try exact rfl)

theorem kept_askRepairs {qt : Bool} {s0 : State} (s : State) (hk : Kept qt s0 s) :
    Kept qt s0 (askRepairs s) := by
  unfold askRepairs
  repeat'
    first
    | (with_reducible first | assumption | apply kept_askRepair | apply Kept.iteR | apply Kept.fold | apply Kept.fold2)
    | (with_reducible first | apply Kept.fold1)
    | (intro _) | extract_lets | split
    | (with_reducible apply Kept.mk') <;> (try exact rfl)

theorem kept_repairDenied {qt : Bool} {s0 : State} (ibn : Nat) (s : State) (hk : Kept qt s0 s) :
    Kept qt s0 (repairDenied ibn s) := by
  unfold repairDenied
  repeat'
    first
    | (with_reducible first | assumption | apply Kept.iteR)
    | (intro _) | extract_lets | split
    | (with_reducible apply Kept.mk') <;> (try exact rfl)

theorem kept_repaired {qt : Bool} {s0 : State} (l : Nat) (s : State) (hk : Kept qt s0 s) :
    Kept qt s0 (repaired l s) := by
  unfold repaired
  repeat'
    first
    | (with_reducible first | assumption | apply kept_castMod | apply Kept.iteR | apply Kept.iteR2)
    | (intro _) | extract_lets | split
    | (with_reducible apply Kept.mk') <;> (try exact rfl)

theorem kept_switchRemaps {qt : Bool} {s0 : State} (s : State) (hk : Kept qt s0 s) :
    Kept qt s0 (switchRemaps s) := by
  unfold switchRemaps
  repeat'
    first
    | (with_reducible first | assumption | apply kept_giveBack | apply kept_remapTo | apply kept_repaired)
    | (with_reducible first | apply Kept.iteR | apply Kept.fold | apply Kept.fold2 | apply Kept.fold1)
    | (intro _) | extract_lets | split
    | (with_reducible apply Kept.mk') <;> (try exact rfl)

theorem kept_doIngotLost {qt : Bool} {s0 : State} (l at' : Nat) (s : State) (hk : Kept qt s0 s) :
    Kept qt s0 (doIngotLost l at' s) := by
  unfold doIngotLost
  repeat'
    first
    | (with_reducible first | assumption | apply kept_raiseFault | apply kept_atT | apply Kept.iteR | apply Kept.iteR2)
    | (intro _) | extract_lets | split
    | (with_reducible apply Kept.mk') <;> (try exact rfl)

/-! ### Machine/Dram.lean -/

theorem kept_chanMod {qt : Bool} {s0 : State} (c : Nat) (f : Chan → Chan) (s : State) (hk : Kept qt s0 s) :
    Kept qt s0 (chanMod c f s) := by
  unfold chanMod
  repeat'
    first
    | (with_reducible first | assumption | apply Kept.iteR)
    | (intro _) | extract_lets | split
    | (with_reducible apply Kept.mk') <;> (try exact rfl)

theorem kept_markLost {qt : Bool} {s0 : State} (b : Nat) (s : State) (hk : Kept qt s0 s) :
    Kept qt s0 (markLost b s) := by
  unfold markLost
  repeat'
    first
    | (with_reducible first | assumption | apply kept_bump | apply Kept.iteR)
    | (intro _) | extract_lets | split
    | (with_reducible apply Kept.mk') <;> (try exact rfl)

theorem kept_flagChannel {qt : Bool} {s0 : State} (c cause : Nat) (s : State) (hk : Kept qt s0 s) :
    Kept qt s0 (flagChannel c cause s) := by
  unfold flagChannel
  repeat'
    first
    | (with_reducible first | assumption | apply Kept.iteR)
    | (intro _) | extract_lets | split
    | (with_reducible apply Kept.mk') <;> (try exact rfl)

theorem kept_uncorrectable {qt : Bool} {s0 : State} (b : Nat) (reader : Option (Nat × Nat)) (s : State) (hk : Kept qt s0 s) :
    Kept qt s0 (uncorrectable b reader s) := by
  unfold uncorrectable
  repeat'
    first
    | (with_reducible first | assumption | apply kept_bump | apply kept_chanMod | apply kept_markLost)
    | (with_reducible first | apply kept_useFault | apply Kept.iteR)
    | (intro _) | extract_lets | split
    | (with_reducible apply Kept.mk') <;> (try exact rfl)

theorem kept_doDramRead {qt : Bool} {s0 : State} (a : Nat) (found : Finding) (reader : Option (Nat × Nat)) (at' : Nat) (s : State) (hk : Kept qt s0 s) :
    Kept qt s0 (doDramRead a found reader at' s) := by
  unfold doDramRead
  repeat'
    first
    | (with_reducible first | assumption | apply kept_atT | apply kept_modelEnergy | apply kept_corrected)
    | (with_reducible first | apply kept_bump | apply kept_uncorrectable | apply Kept.iteR)
    | (intro _) | extract_lets | split
    | (with_reducible apply Kept.mk') <;> (try exact rfl)

theorem kept_doParityRetry {qt : Bool} {s0 : State} (c fails : Nat) (read : Option (Nat × Option (Nat × Nat))) (at' : Nat) (s : State) (hk : Kept qt s0 s) :
    Kept qt s0 (doParityRetry c fails read at' s) := by
  unfold doParityRetry
  repeat'
    first
    | (with_reducible first | assumption | apply kept_atT | apply kept_addO | apply kept_chanMod | apply kept_draw)
    | (with_reducible first | apply kept_flagChannel | apply kept_uncorrectable | apply Kept.iteR | apply Kept.iteR2)
    | (intro _) | extract_lets | split | (rename_i e; have e := congrArg Prod.snd e; dsimp only at e; subst e)
    | (with_reducible apply Kept.mk') <;> (try exact rfl)

theorem kept_doDramScrub {qt : Bool} {s0 : State} (a : Nat) (found : Finding) (at' : Nat) (s : State) (hk : Kept qt s0 s) :
    Kept qt s0 (doDramScrub a found at' s) := by
  unfold doDramScrub
  repeat'
    first
    | (with_reducible first | assumption | apply kept_atT | apply kept_modelEnergy | apply kept_corrected)
    | (with_reducible first | apply kept_bump | apply kept_uncorrectable | apply kept_markLost | apply kept_chanMod)
    | (with_reducible first | apply Kept.iteR)
    | (intro _) | extract_lets | split
    | (with_reducible apply Kept.mk') <;> (try exact rfl)

theorem kept_doChannelFlag {qt : Bool} {s0 : State} (c at' : Nat) (s : State) (hk : Kept qt s0 s) :
    Kept qt s0 (doChannelFlag c at' s) := by
  unfold doChannelFlag
  repeat'
    first
    | (with_reducible first | assumption | apply kept_atT | apply kept_flagChannel | apply kept_draw | apply Kept.iteR)
    | (with_reducible first | apply Kept.iteR2)
    | (intro _) | extract_lets | split
    | (with_reducible apply Kept.mk') <;> (try exact rfl)

theorem kept_doMapOutWrite {qt : Bool} {s0 : State} (a : Access) (c : Nat) (s : State) (hk : Kept qt s0 s) :
    Kept qt s0 (doMapOutWrite a c s).2 := by
  unfold doMapOutWrite
  repeat'
    first
    | (with_reducible first | assumption | apply kept_flagChannel | apply Kept.iteR | apply Kept.iteR2)
    | (intro _) | extract_lets | split | (rename_i e; have e := congrArg Prod.snd e; dsimp only at e; subst e)
    | (with_reducible apply Kept.mk') <;> (try exact rfl)

theorem kept_doChannelMapOut {qt : Bool} {s0 : State} (c : Nat) (s : State) (hk : Kept qt s0 s) :
    Kept qt s0 (doChannelMapOut c s) := by
  unfold doChannelMapOut
  repeat'
    first
    | (with_reducible first | assumption | apply kept_chanMod | apply kept_raiseFault | apply kept_setO)
    | (with_reducible first | apply Kept.iteR)
    | (intro _) | extract_lets | split
    | (with_reducible apply Kept.mk') <;> (try exact rfl)

theorem kept_mapOutDone {qt : Bool} {s0 : State} (c : Nat) (s : State) (hk : Kept qt s0 s) :
    Kept qt s0 (mapOutDone c s) := by
  unfold mapOutDone
  repeat'
    first
    | (with_reducible first | assumption | apply kept_chanMod | apply kept_setO | apply kept_recast | apply kept_bump)
    | (with_reducible first | apply Kept.iteR | apply Kept.iteR2)
    | (intro _) | extract_lets | split
    | (with_reducible apply Kept.mk') <;> (try exact rfl)

theorem kept_moveLine {qt : Bool} {s0 : State} (sl line : Nat) (s : State) (hk : Kept qt s0 s) :
    Kept qt s0 (moveLine sl line s) := by
  unfold moveLine
  repeat'
    first
    | (with_reducible first | assumption | apply kept_markLost | apply Kept.iteR)
    | (intro _) | extract_lets | split
    | (with_reducible apply Kept.mk') <;> (try exact rfl)

theorem kept_doSliceMove {qt : Bool} {s0 : State} (c : Nat) (ahead : Option Nat) (unreadable : List Nat) (s : State) (hk : Kept qt s0 s) :
    Kept qt s0 (doSliceMove c ahead unreadable s) := by
  unfold doSliceMove
  repeat'
    first
    | (with_reducible first | assumption | apply kept_mapOutDone | apply kept_moveLine | apply Kept.iteR)
    | (with_reducible first | apply Kept.fold | apply Kept.fold2 | apply Kept.fold1)
    | (intro _) | extract_lets | split
    | (with_reducible apply Kept.mk') <;> (try exact rfl)

theorem kept_loseSave {qt : Bool} {s0 : State} (n : Nat) (s : State) (hk : Kept qt s0 s) :
    Kept qt s0 (loseSave n s) := by
  unfold loseSave
  repeat'
    first
    | (with_reducible first | assumption | apply kept_unitMod | apply Kept.iteR)
    | (intro _) | extract_lets | split
    | (with_reducible apply Kept.mk') <;> (try exact rfl)

theorem kept_loseHistory {qt : Bool} {s0 : State} (s : State) (a : Nat) (hk : Kept qt s0 s) :
    Kept qt s0 (loseHistory s a) := by
  unfold loseHistory
  repeat'
    first
    | (with_reducible first | assumption | apply kept_kvCtxMod | apply Kept.iteR)
    | (intro _) | extract_lets | split
    | (with_reducible apply Kept.mk') <;> (try exact rfl)

theorem kept_clearLost {qt : Bool} {s0 : State} (b : Nat) (s : State) (hk : Kept qt s0 s) :
    Kept qt s0 (clearLost b s) := by
  unfold clearLost
  repeat'
    first
    | (with_reducible first | assumption | apply Kept.iteR | apply Kept.iteR2)
    | (intro _) | extract_lets | split
    | (with_reducible apply Kept.mk') <;> (try exact rfl)

theorem kept_restoreBurst {q : Bool} {s0 : State} (b : Nat) (how : Refill) (s : State) (hk : Kept q s0 s) :
    Kept q s0 (restoreBurst b how s) := by
  unfold restoreBurst
  refine Kept.ite ?_ (kept_clearLost _ _ hk)
  split
  · exact kept_clearLost _ _ (Kept.put hk _ _ _ rfl)
  · exact kept_clearLost _ _ hk
  · exact kept_clearLost _ _ (Kept.put (kept_drawBytes _ _ hk) _ _ _ rfl)

theorem kept_restoreLine {qt : Bool} {s0 : State} (line : Nat) (how : Refill) (s : State) (hk : Kept qt s0 s) :
    Kept qt s0 (restoreLine line how s) := by
  unfold restoreLine
  repeat'
    first
    | (with_reducible first | assumption | apply kept_bump | apply kept_restoreBurst | apply Kept.iteR)
    | (intro _) | extract_lets | split
    | (with_reducible apply Kept.mk') <;> (try exact rfl)

theorem kept_failWaiting {qt : Bool} {s0 : State} (line : Nat) (s : State) (hk : Kept qt s0 s) :
    Kept qt s0 (failWaiting line s) := by
  unfold failWaiting
  repeat'
    first
    | (with_reducible first | assumption | apply kept_failRequest | apply Kept.iteR | apply Kept.fold)
    | (with_reducible first | apply Kept.fold2 | apply Kept.fold1 | apply Kept.iteR2)
    | (intro _) | extract_lets | split
    | (with_reducible apply Kept.mk') <;> (try exact rfl)

theorem kept_doLostRestore {q : Bool} {s0 : State} (a : Nat) (s : State) (hk : Kept q s0 s) :
    Kept q s0 (doLostRestore a s) := by
  unfold doLostRestore
  extract_lets line lost waits buddy
  refine Kept.ite hk ?_
  split
  · exact kept_restoreLine _ _ _ hk
  · exact hk
  · exact kept_failWaiting _ _ hk
  · exact Kept.ite (kept_restoreLine _ _ _ hk) (kept_failWaiting _ _ hk)
  · exact Kept.ite (kept_restoreLine _ _ _ hk) (kept_failWaiting _ _ hk)
  · refine Kept.ite (kept_restoreLine _ _ _ hk) (Kept.mk2 hk id (fun x => ⟨x.1, ?_, x.2.2⟩) rfl
      (fun _ => ⟨rfl, rfl, rfl, rfl, rfl, rfl⟩))
    exact le_trans (List.length_filter_le _ _) x.2.1
  · split
    · exact kept_restoreLine _ _ _ (kept_varMod _ _ _ hk)
    · exact kept_restoreLine _ _ _ hk
  · exact kept_restoreLine _ _ _ (kept_loseSave _ _ hk)
  · exact kept_restoreLine _ _ _ (kept_loseHistory _ _ hk)
  · exact kept_restoreLine _ _ _ (kept_endCast _ _ hk)
  · exact kept_restoreLine _ _ _ hk
  · exact kept_restoreLine _ _ _ hk

theorem kept_doDramDead {qt : Bool} {s0 : State} (a : Nat) (reader : Nat × Nat) (s : State) (hk : Kept qt s0 s) :
    Kept qt s0 (doDramDead a reader s) := by
  unfold doDramDead
  repeat'
    first
    | (with_reducible first | assumption | apply kept_failRequest | apply Kept.iteR)
    | (intro _) | extract_lets | split
    | (with_reducible apply Kept.mk') <;> (try exact rfl)

theorem kept_accessFault {qt : Bool} {s0 : State} (f : MemFault) (reader : Option (Nat × Nat)) (s : State) (hk : Kept qt s0 s) :
    Kept qt s0 (accessFault f reader s) := by
  unfold accessFault
  repeat'
    first
    | (with_reducible first | assumption | apply kept_useFault | apply kept_emit | apply Kept.iteR)
    | (intro _) | extract_lets | split
    | (with_reducible apply Kept.mk') <;> (try exact rfl)

theorem kept_doPantryAccess {qt : Bool} {s0 : State} (tag : MemTag) (h : Hint) (a : Nat) (op : MemOp) (reader : Option (Nat × Nat)) (s : State) (hk : Kept qt s0 s) :
    Kept qt s0 (doPantryAccess tag h a op reader s) := by
  unfold doPantryAccess
  repeat'
    first
    | (with_reducible first | assumption | apply kept_failRequest | apply kept_bump | apply kept_memRead)
    | (with_reducible first | apply kept_emit | apply kept_accessFault | apply kept_memWrite | apply Kept.iteR)
    | (intro _) | extract_lets | split | (rename_i e; have e := congrArg Prod.snd e; dsimp only at e; subst e)
    | (with_reducible apply Kept.mk') <;> (try exact rfl)

theorem kept_doLast {qt : Bool} {s0 : State} (a : Nat) (reader : Option (Nat × Nat)) (s : State) (hk : Kept qt s0 s) :
    Kept qt s0 (doLast a reader s) := by
  unfold doLast
  repeat'
    first
    | (with_reducible first | assumption | apply kept_memRead | apply kept_emit | apply kept_accessFault)
    | (with_reducible first | apply Kept.iteR)
    | (intro _) | extract_lets | split | (rename_i e; have e := congrArg Prod.snd e; dsimp only at e; subst e)
    | (with_reducible apply Kept.mk') <;> (try exact rfl)

theorem kept_wayFails {qt : Bool} {s0 : State} (slice set way : Nat) (s : State) (hk : Kept qt s0 s) :
    Kept qt s0 (wayFails slice set way s) := by
  unfold wayFails
  repeat'
    first
    | (with_reducible first | assumption | apply kept_raiseFault | apply kept_draw | apply kept_recast)
    | (with_reducible first | apply kept_bump | apply Kept.iteR | apply Kept.iteR2)
    | (intro _) | extract_lets | split
    | (with_reducible apply Kept.mk') <;> (try exact rfl)

theorem kept_doPantryError {qt : Bool} {s0 : State} (slice set way : Nat) (found : Finding) (at' : Nat) (s : State) (hk : Kept qt s0 s) :
    Kept qt s0 (doPantryError slice set way found at' s) := by
  unfold doPantryError
  repeat'
    first
    | (with_reducible first | assumption | apply kept_atT | apply kept_corrected | apply kept_bump)
    | (with_reducible first | apply kept_uncorrectable | apply kept_markLost | apply kept_wayFails | apply Kept.iteR)
    | (intro _) | extract_lets | split
    | (with_reducible apply Kept.mk') <;> (try exact rfl)

theorem kept_atomicFault {qt : Bool} {s0 : State} (code a : Nat) (s : State) (hk : Kept qt s0 s) :
    Kept qt s0 (atomicFault code a s) := by
  unfold atomicFault
  repeat'
    first
    | (with_reducible first | assumption | apply kept_emit | apply Kept.iteR)
    | (intro _) | extract_lets | split
    | (with_reducible apply Kept.mk') <;> (try exact rfl)

theorem kept_doAtomic {qt : Bool} {s0 : State} (code : Nat) (keep : Bool) (a v : Nat) (burst : Bytes) (s : State) (hk : Kept qt s0 s) :
    Kept qt s0 (doAtomic code keep a v burst s) := by
  unfold doAtomic
  repeat'
    first
    | (with_reducible first | assumption | apply kept_atomicOp | apply kept_atomicFault | apply Kept.iteR)
    | (intro _) | extract_lets | split | (rename_i e; have e := congrArg Prod.snd e; dsimp only at e; subst e)
    | (with_reducible apply Kept.mk') <;> (try exact rfl)

theorem kept_doPantryReduce {qt : Bool} {s0 : State} (keep : Bool) (a : Nat) (burst : Bytes) (part : Option Contribution) (s : State) (hk : Kept qt s0 s) :
    Kept qt s0 (doPantryReduce keep a burst part s) := by
  unfold doPantryReduce
  repeat'
    first
    | (with_reducible first | assumption | apply kept_doAtomic | apply kept_contribute | apply Kept.iteR)
    | (intro _) | extract_lets | split
    | (with_reducible apply Kept.mk') <;> (try exact rfl)

theorem kept_doAtomicReturn {qt : Bool} {s0 : State} (code : Nat) (keep : Bool) (a v cmp : Nat) (s : State) (hk : Kept qt s0 s) :
    Kept qt s0 (doAtomicReturn code keep a v cmp s) := by
  unfold doAtomicReturn
  repeat'
    first
    | (with_reducible first | assumption | apply kept_atomicOp | apply kept_emit | apply kept_atomicFault)
    | (with_reducible first | apply Kept.iteR)
    | (intro _) | extract_lets | split | (rename_i e; have e := congrArg Prod.snd e; dsimp only at e; subst e)
    | (with_reducible apply Kept.mk') <;> (try exact rfl)

end Sys2Proof.Machine
end

