-- ==== Sys2Proof/Laws/KeptChip.lean ====
section
/-! SUPPORT. What the operations of faults, power, start-up, the Pilot, security and takeover keep. -/

namespace Sys2Proof.Machine

open Sys2Proof

set_option linter.unusedTactic false
set_option linter.unreachableTactic false

/-! ### Machine/Faults.lean -/

theorem kept_idlePorts {qt : Bool} {s0 : State} (s : State) (hk : Kept qt s0 s) :
    Kept qt s0 (idlePorts s) := by
  unfold idlePorts
  repeat'
    first
    | (with_reducible first | assumption | apply kept_emit | apply Kept.iteR | apply Kept.fold | apply Kept.fold2)
    | (with_reducible first | apply Kept.fold1)
    | (intro _) | extract_lets | split
    | (with_reducible apply Kept.mk') <;> (try exact rfl)

theorem kept_goSilent {qt : Bool} {s0 : State} (s : State) (hk : Kept qt s0 s) :
    Kept qt s0 (goSilent s) := by
  unfold goSilent
  repeat'
    first
    | (with_reducible first | assumption | apply kept_idlePorts | apply kept_applyNow | apply kept_bump)
    | (with_reducible first | apply Kept.iteR)
    | (intro _) | extract_lets | split
    | (with_reducible apply Kept.mk') <;> (try exact rfl)

theorem kept_doFailSilent {qt : Bool} {s0 : State} (s : State) (hk : Kept qt s0 s) :
    Kept qt s0 (doFailSilent s) := by
  unfold doFailSilent
  repeat'
    first
    | (with_reducible first | assumption | apply kept_goSilent | apply Kept.iteR)
    | (intro _) | extract_lets | split
    | (with_reducible apply Kept.mk') <;> (try exact rfl)

theorem kept_doExpediterCheck {qt : Bool} {s0 : State} (at' : Nat) (s : State) (hk : Kept qt s0 s) :
    Kept qt s0 (doExpediterCheck at' s) := by
  unfold doExpediterCheck
  repeat'
    first
    | (with_reducible first | assumption | apply kept_raiseFault | apply kept_atT | apply Kept.iteR)
    | (intro _) | extract_lets | split
    | (with_reducible apply Kept.mk') <;> (try exact rfl)

theorem kept_doIslandCheck {qt : Bool} {s0 : State} (at' : Nat) (s : State) (hk : Kept qt s0 s) :
    Kept qt s0 (doIslandCheck at' s) := by
  unfold doIslandCheck
  repeat'
    first
    | (with_reducible first | assumption | apply kept_raiseFault | apply kept_atT | apply kept_draw)
    | (with_reducible first | apply kept_goSilent | apply kept_setAlert | apply Kept.iteR | apply Kept.iteR2)
    | (intro _) | extract_lets | split
    | (with_reducible apply Kept.mk') <;> (try exact rfl)

theorem kept_doReportMissed {qt : Bool} {s0 : State} (at' : Nat) (s : State) (hk : Kept qt s0 s) :
    Kept qt s0 (doReportMissed at' s) := by
  unfold doReportMissed
  repeat'
    first
    | (with_reducible first | assumption | apply kept_goSilent | apply kept_setAlert | apply kept_raiseFault)
    | (with_reducible first | apply kept_atT | apply Kept.iteR)
    | (intro _) | extract_lets | split
    | (with_reducible apply Kept.mk') <;> (try exact rfl)

theorem kept_doReplayExhausted {qt : Bool} {s0 : State} (i at' : Nat) (s : State) (hk : Kept qt s0 s) :
    Kept qt s0 (doReplayExhausted i at' s) := by
  unfold doReplayExhausted
  repeat'
    first
    | (with_reducible first | assumption | apply kept_raiseFault | apply kept_atT | apply Kept.iteR)
    | (intro _) | extract_lets | split
    | (with_reducible apply Kept.mk') <;> (try exact rfl)

theorem kept_doGriddleSwap {q : Bool} {s0 : State} (g cause at' : Nat) (s : State) (hk : Kept q s0 s) :
    Kept q s0 (doGriddleSwap g cause at' s) := by
  unfold doGriddleSwap
  exact Kept.ite (kept_swapGriddle _ _ _ (kept_atT _ _ hk)) hk

theorem kept_recastSieve {qt : Bool} {s0 : State} (n cause : Nat) (s : State) (hk : Kept qt s0 s) :
    Kept qt s0 (recastSieve n cause s) := by
  unfold recastSieve
  repeat'
    first
    | (with_reducible first | assumption | apply kept_raiseFault | apply Kept.iteR)
    | (intro _) | extract_lets | split
    | (with_reducible apply Kept.mk') <;> (try exact rfl)

theorem kept_doSieveSwap {qt : Bool} {s0 : State} (n cause at' : Nat) (s : State) (hk : Kept qt s0 s) :
    Kept qt s0 (doSieveSwap n cause at' s) := by
  unfold doSieveSwap
  repeat'
    first
    | (with_reducible first | assumption | apply kept_recastSieve | apply kept_atT | apply Kept.iteR)
    | (intro _) | extract_lets | split
    | (with_reducible apply Kept.mk') <;> (try exact rfl)

theorem kept_switchSieves {qt : Bool} {s0 : State} (s : State) (hk : Kept qt s0 s) :
    Kept qt s0 (switchSieves s) := by
  unfold switchSieves
  repeat'
    first
    | (with_reducible first | assumption | apply Kept.iteR | apply Kept.fold | apply Kept.fold2 | apply Kept.fold1)
    | (with_reducible first | apply Kept.iteR2)
    | (intro _) | extract_lets | split
    | (with_reducible apply Kept.mk') <;> (try exact rfl)

theorem kept_doUnitFaultLimit {q : Bool} {s0 : State} (kind : UnitKind) (idx at' : Nat) (s : State) (hk : Kept q s0 s) :
    Kept q s0 (doUnitFaultLimit kind idx at' s) := by
  unfold doUnitFaultLimit
  have h1 : Kept q s0 (atT at' s) := kept_atT _ _ hk
  generalize atT at' s = s1 at h1
  have h2 : Kept q s0 (match logicalOf s1 idx with
        | some g => swapGriddle g (lastCode s1 kind idx) s1
        | none => s1) := by
    split
    · exact kept_swapGriddle _ _ _ h1
    · exact h1
  dsimp only
  refine Kept.ite h1 ?_
  split
  · exact h2
  · exact h2
  · exact h2
  · exact kept_recastSieve _ _ _ h1
  · exact h1

theorem kept_testFails {q : Bool} {s0 : State} (u : TestUnit) (s : State) (hk : Kept q s0 s) :
    Kept q s0 (testFails u s) := by
  unfold testFails
  extract_lets k s1
  have h1 : Kept q s0 s1 := kept_raiseFault _ _ _ _ _ _ hk
  clear_value s1
  have h2 : ∀ p, Kept q s0 (if s1.faults.spares.contains p then
      { s1 with faults := { s1.faults with spares := s1.faults.spares.filter (· != p), retired := s1.faults.retired ++ [p] } }
    else match logicalOf s1 p with
      | some g => swapGriddle g 0x0122 s1
      | none => s1) := by
    intro p
    refine Kept.ite (Kept.mk' h1) ?_
    split
    · exact kept_swapGriddle _ _ _ h1
    · exact h1
  split
  · exact h2 _
  · exact h2 _
  · exact h2 _
  · exact kept_recastSieve _ _ _ h1
  · exact h1

theorem kept_doSelfTestSlice {qt : Bool} {s0 : State} (failure : Option TestUnit) (at' : Nat) (s : State) (hk : Kept qt s0 s) :
    Kept qt s0 (doSelfTestSlice failure at' s) := by
  unfold doSelfTestSlice
  repeat'
    first
    | (with_reducible first | assumption | apply kept_bump | apply kept_atT | apply kept_testFails | apply Kept.iteR)
    | (intro _) | extract_lets | split
    | (with_reducible apply Kept.mk') <;> (try exact rfl)

theorem kept_sendDict {qt : Bool} {s0 : State} (dest key : Nat) (write : Bool) (v : Bytes) (s : State) (hk : Kept qt s0 s) :
    Kept qt s0 (sendDict dest key write v s) := by
  unfold sendDict
  repeat'
    first
    | (with_reducible first | assumption | apply kept_flowSend | apply Kept.iteR)
    | (intro _) | extract_lets | split
    | (with_reducible apply Kept.mk') <;> (try exact rfl)

theorem kept_doHandOver {qt : Bool} {s0 : State} (cause at' : Nat) (s : State) (hk : Kept qt s0 s) :
    Kept qt s0 (doHandOver cause at' s) := by
  unfold doHandOver
  repeat'
    first
    | (with_reducible first | assumption | apply kept_atT | apply kept_sendDict | apply Kept.iteR)
    | (intro _) | extract_lets | split
    | (with_reducible apply Kept.mk') <;> (try exact rfl)

theorem kept_doHandoverLast {qt : Bool} {s0 : State} (s : State) (hk : Kept qt s0 s) :
    Kept qt s0 (doHandoverLast s) := by
  unfold doHandoverLast
  repeat'
    first
    | (with_reducible first | assumption | apply kept_goSilent | apply Kept.iteR)
    | (intro _) | extract_lets | split
    | (with_reducible apply Kept.mk') <;> (try exact rfl)

theorem kept_doHandOverWrite {qt : Bool} {s0 : State} (a : Access) (v : Nat) (s : State) (hk : Kept qt s0 s) :
    Kept qt s0 (doHandOverWrite a v s).2 := by
  unfold doHandOverWrite
  repeat'
    first
    | (with_reducible first | assumption | apply Kept.iteR | apply Kept.iteR2)
    | (intro _) | extract_lets | split
    | (with_reducible apply Kept.mk') <;> (try exact rfl)

theorem kept_doGateOffExpired {qt : Bool} {s0 : State} (ref : Nat) (s : State) (hk : Kept qt s0 s) :
    Kept qt s0 (doGateOffExpired ref s) := by
  unfold doGateOffExpired
  repeat'
    first
    | (with_reducible first | assumption | apply Kept.iteR)
    | (intro _) | extract_lets | split
    | (with_reducible apply Kept.mk') <;> (try exact rfl)

theorem kept_doThermalPersist {qt : Bool} {s0 : State} (stack : Nat) (s : State) (hk : Kept qt s0 s) :
    Kept qt s0 (doThermalPersist stack s) := by
  unfold doThermalPersist
  repeat'
    first
    | (with_reducible first | assumption | apply kept_raiseFault | apply Kept.iteR)
    | (intro _) | extract_lets | split
    | (with_reducible apply Kept.mk') <;> (try exact rfl)

/-! ### Machine/Power.lean -/

theorem kept_setReason {q : Bool} {s0 : State} (reason new : Nat) (crit : Bool) (source measured : Nat) (s : State)
    (hk : Kept q s0 s) : Kept q s0 (setReason reason new crit source measured s) := by
  unfold setReason
  extract_lets old s1 k s2 s3 began len rest
  refine Kept.ite hk ?_
  have h1 : Kept q s0 s1 := kept_setO _ _ _ hk
  have h2 : Kept q s0 s2 := kept_setO _ _ _ h1
  have h3 : Kept q s0 s3 := Kept.ite h2 (kept_recFlag _ _ h2)
  clear_value s3
  refine kept_addEntry _ _ (Kept.ite (kept_bump _ _ (Kept.mk' h3)) (Kept.ite (kept_addO _ _ _ (Kept.mk' h3)) h3))

theorem kept_criticalTrip {qt : Bool} {s0 : State} (reason source measured : Nat) (s : State) (hk : Kept qt s0 s) :
    Kept qt s0 (criticalTrip reason source measured s) := by
  unfold criticalTrip
  repeat'
    first
    | (with_reducible first | assumption | apply kept_setReason | apply kept_sendLate | apply Kept.iteR)
    | (intro _) | extract_lets | split
    | (with_reducible apply Kept.mk') <;> (try exact rfl)

theorem kept_boundaryLimits {qt : Bool} {s0 : State} (s : State) (hk : Kept qt s0 s) :
    Kept qt s0 (boundaryLimits s) := by
  unfold boundaryLimits
  repeat'
    first
    | (with_reducible first | assumption | apply kept_setO | apply kept_setReason | apply Kept.iteR | apply Kept.iteR2)
    | (intro _) | extract_lets | split
    | (with_reducible apply Kept.mk') <;> (try exact rfl)

theorem kept_applyRails {qt : Bool} {s0 : State} (s : State) (hk : Kept qt s0 s) :
    Kept qt s0 (applyRails s) := by
  unfold applyRails
  repeat'
    first
    | (with_reducible first | assumption | apply kept_emit | apply Kept.iteR | apply Kept.fold | apply Kept.fold2)
    | (with_reducible first | apply Kept.fold1)
    | (intro _) | extract_lets | split
    | (with_reducible apply Kept.mk') <;> (try exact rfl)

theorem kept_setBand {qt : Bool} {s0 : State} (d b : Nat) (s : State) (hk : Kept qt s0 s) :
    Kept qt s0 (setBand d b s) := by
  unfold setBand
  repeat'
    first
    | (with_reducible first | assumption | apply Kept.iteR)
    | (intro _) | extract_lets | split
    | (with_reducible apply Kept.mk') <;> (try exact rfl)

theorem kept_domainBand {qt : Bool} {s0 : State} (s : State) (d : Nat) (hk : Kept qt s0 s) :
    Kept qt s0 (domainBand s d) := by
  unfold domainBand
  repeat'
    first
    | (with_reducible first | assumption | apply kept_setBand | apply Kept.iteR)
    | (intro _) | extract_lets | split
    | (with_reducible apply Kept.mk') <;> (try exact rfl)

theorem kept_doBands {qt : Bool} {s0 : State} (s : State) (hk : Kept qt s0 s) :
    Kept qt s0 (doBands s) := by
  unfold doBands
  repeat'
    first
    | (with_reducible first | assumption | apply kept_applyRails | apply kept_domainBand | apply Kept.iteR)
    | (with_reducible first | apply Kept.fold | apply Kept.fold2 | apply Kept.fold1)
    | (intro _) | extract_lets | split
    | (with_reducible apply Kept.mk') <;> (try exact rfl)

theorem kept_doSetPointLower {qt : Bool} {s0 : State} (d : Nat) (s : State) (hk : Kept qt s0 s) :
    Kept qt s0 (doSetPointLower d s) := by
  unfold doSetPointLower
  repeat'
    first
    | (with_reducible first | assumption | apply kept_applyRails | apply kept_setBand | apply Kept.iteR)
    | (intro _) | extract_lets | split
    | (with_reducible apply Kept.mk') <;> (try exact rfl)

theorem kept_modelStatic {qt : Bool} {s0 : State} (s : State) (hk : Kept qt s0 s) :
    Kept qt s0 (modelStatic s) := by
  unfold modelStatic
  repeat'
    first
    | (with_reducible first | assumption | apply kept_modelEnergy | apply Kept.iteR | apply Kept.fold)
    | (with_reducible first | apply Kept.fold2 | apply Kept.fold1)
    | (intro _) | extract_lets | split
    | (with_reducible apply Kept.mk') <;> (try exact rfl)

theorem kept_doPowerSample {qt : Bool} {s0 : State} (mv qa : List Nat) (s : State) (hk : Kept qt s0 s) :
    Kept qt s0 (doPowerSample mv qa s) := by
  unfold doPowerSample
  repeat'
    first
    | (with_reducible first | assumption | apply kept_modelStatic | apply Kept.iteR)
    | (intro _) | extract_lets | split
    | (with_reducible apply Kept.mk') <;> (try exact rfl)

theorem kept_mergeSamples {qt : Bool} {s0 : State} (s : State) (hk : Kept qt s0 s) :
    Kept qt s0 (mergeSamples s) := by
  unfold mergeSamples
  repeat'
    first
    | (with_reducible first | assumption | apply Kept.iteR)
    | (intro _) | extract_lets | split
    | (with_reducible apply Kept.mk') <;> (try exact rfl)

theorem kept_supplyFault {qt : Bool} {s0 : State} (rail : Nat) (s : State) (hk : Kept qt s0 s) :
    Kept qt s0 (supplyFault rail s) := by
  unfold supplyFault
  repeat'
    first
    | (with_reducible first | assumption | apply kept_raiseFault | apply Kept.iteR)
    | (intro _) | extract_lets | split
    | (with_reducible apply Kept.mk') <;> (try exact rfl)

theorem kept_doDroop {q : Bool} {s0 : State} (rail depth dur : Nat) (s : State) (hk : Kept q s0 s) :
    Kept q s0 (doDroop rail depth dur s) := by
  unfold doDroop
  refine Kept.ite hk (Kept.ite (Kept.ite (kept_supplyFault _ _ hk) hk) (Kept.ite hk ?_))
  extract_lets e l
  have hb := drop_bound l 256
  generalize List.drop (l.length - 256) l = l' at hb
  exact kept_bump _ _ (Kept.mk2 hk id (fun x => ⟨x.1, x.2.1, hb, x.2.2.2⟩) rfl (fun _ => ⟨rfl, rfl, rfl, rfl, rfl, rfl⟩))

theorem kept_doSupplyFault {qt : Bool} {s0 : State} (rail at' : Nat) (s : State) (hk : Kept qt s0 s) :
    Kept qt s0 (doSupplyFault rail at' s) := by
  unfold doSupplyFault
  repeat'
    first
    | (with_reducible first | assumption | apply kept_supplyFault | apply kept_atT | apply Kept.iteR)
    | (intro _) | extract_lets | split
    | (with_reducible apply Kept.mk') <;> (try exact rfl)

theorem kept_bootFault {qt : Bool} {s0 : State} (code : Nat) (s : State) (hk : Kept qt s0 s) :
    Kept qt s0 (bootFault code s) := by
  unfold bootFault
  repeat'
    first
    | (with_reducible first | assumption | apply kept_setAlert | apply kept_setO | apply Kept.iteR | apply Kept.iteR2)
    | (intro _) | extract_lets | split
    | (with_reducible apply Kept.mk') <;> (try exact rfl)

theorem kept_doClockFault {qt : Bool} {s0 : State} (at' : Nat) (s : State) (hk : Kept qt s0 s) :
    Kept qt s0 (doClockFault at' s) := by
  unfold doClockFault
  repeat'
    first
    | (with_reducible first | assumption | apply kept_bootFault | apply kept_atT | apply kept_raiseFault)
    | (with_reducible first | apply Kept.iteR)
    | (intro _) | extract_lets | split
    | (with_reducible apply Kept.mk') <;> (try exact rfl)

theorem kept_doSmbalert {qt : Bool} {s0 : State} (rail : Nat) (w : BitVec 16) (bad : Bool) (at' : Nat) (s : State) (hk : Kept qt s0 s) :
    Kept qt s0 (doSmbalert rail w bad at' s) := by
  unfold doSmbalert
  repeat'
    first
    | (with_reducible first | assumption | apply kept_emit | apply kept_atT | apply kept_supplyFault | apply Kept.iteR)
    | (intro _) | extract_lets | split
    | (with_reducible apply Kept.mk') <;> (try exact rfl)

/-! ### Machine/Boot.lean -/

theorem kept_openRecord {qt : Bool} {s0 : State} (s : State) (hk : Kept qt s0 s) :
    Kept qt s0 (openRecord s) := by
  unfold openRecord
  repeat'
    first
    | (with_reducible first | assumption | apply Kept.iteR)
    | (intro _) | extract_lets | split
    | (with_reducible apply Kept.mk') <;> (try exact rfl)

theorem kept_startRail {qt : Bool} {s0 : State} (r : Nat) (s : State) (hk : Kept qt s0 s) :
    Kept qt s0 (startRail r s) := by
  unfold startRail
  repeat'
    first
    | (with_reducible first | assumption | apply kept_emit | apply Kept.iteR)
    | (intro _) | extract_lets | split
    | (with_reducible apply Kept.mk') <;> (try exact rfl)

theorem kept_railsOff {qt : Bool} {s0 : State} (keep : Nat → Bool) (s : State) (hk : Kept qt s0 s) :
    Kept qt s0 (railsOff keep s) := by
  unfold railsOff
  repeat'
    first
    | (with_reducible first | assumption | apply kept_emit | apply Kept.iteR | apply Kept.fold | apply Kept.fold2)
    | (with_reducible first | apply Kept.fold1)
    | (intro _) | extract_lets | split
    | (with_reducible apply Kept.mk') <;> (try exact rfl)

theorem kept_startRails {qt : Bool} {s0 : State} (s : State) (hk : Kept qt s0 s) :
    Kept qt s0 (startRails s) := by
  unfold startRails
  repeat'
    first
    | (with_reducible first | assumption | apply kept_startRail | apply Kept.iteR)
    | (intro _) | extract_lets | split
    | (with_reducible apply Kept.mk') <;> (try exact rfl)

theorem kept_powerDomains {qt : Bool} {s0 : State} (stage : Nat) (s : State) (hk : Kept qt s0 s) :
    Kept qt s0 (powerDomains stage s) := by
  unfold powerDomains
  repeat'
    first
    | (with_reducible first | assumption | apply kept_applyRails | apply Kept.iteR | apply Kept.iteR2)
    | (intro _) | extract_lets | split
    | (with_reducible apply Kept.mk') <;> (try exact rfl)

theorem kept_domainsOff {qt : Bool} {s0 : State} (s : State) (hk : Kept qt s0 s) :
    Kept qt s0 (domainsOff s) := by
  unfold domainsOff
  repeat'
    first
    | (with_reducible first | assumption | apply Kept.iteR)
    | (intro _) | extract_lets | split
    | (with_reducible apply Kept.mk') <;> (try exact rfl)

theorem kept_stageDone {qt : Bool} {s0 : State} (n : Nat) (s : State) (hk : Kept qt s0 s) :
    Kept qt s0 (stageDone n s) := by
  unfold stageDone
  repeat'
    first
    | (with_reducible first | assumption | apply kept_setO | apply Kept.iteR)
    | (intro _) | extract_lets | split
    | (with_reducible apply Kept.mk') <;> (try exact rfl)

theorem kept_powerLost {s0 : State} (s : State) (hk : Kept false s0 s) : Kept false s0 (powerLost s) :=
  hk.trans ⟨rfl, fun _ => ⟨List.Pairwise.nil, fun _ h => absurd h List.not_mem_nil⟩,
    fun _ => ⟨Nat.zero_le _, Nat.zero_le _, Nat.zero_le _, Nat.zero_le _⟩, fun _ x => x, fun e => Bool.noConfusion e⟩

theorem kept_flushNv {qt : Bool} {s0 : State} (s : State) (hk : Kept qt s0 s) :
    Kept qt s0 (flushNv s) := by
  unfold flushNv
  repeat'
    first
    | (with_reducible first | assumption | apply kept_nvStore | apply Kept.iteR | apply Kept.fold | apply Kept.fold2)
    | (with_reducible first | apply Kept.fold1 | apply Kept.iteR2)
    | (intro _) | extract_lets | split
    | (with_reducible apply Kept.mk') <;> (try exact rfl)

theorem kept_mainLost {q : Bool} {s0 : State} (s : State) (hk : Kept q s0 s) : Kept q s0 (mainLost s) := by
  have h1 := kept_flushNv s hk
  unfold mainLost
  generalize flushNv s = s1 at h1 ⊢
  exact h1.trans ⟨rfl, fun _ => ⟨List.Pairwise.nil, fun _ h => absurd h List.not_mem_nil⟩,
    fun x => ⟨Nat.zero_le _, Nat.zero_le _, Nat.zero_le _, x.2.2.2⟩, fun _ x => x,
    fun _ => ⟨rfl, rfl, rfl, rfl, rfl, le_rfl⟩⟩

theorem kept_loadImage {qt : Bool} {s0 : State} (k : Nat) (s : State) (hk : Kept qt s0 s) :
    Kept qt s0 (loadImage k s).2 := by
  unfold loadImage
  repeat'
    first
    | (with_reducible first | assumption | apply kept_draw | apply Kept.iteR | apply Kept.iteR2)
    | (intro _) | extract_lets | split | (rename_i e; have e := congrArg Prod.snd e; dsimp only at e; subst e)
    | (with_reducible apply Kept.mk') <;> (try exact rfl)

theorem kept_loadImages {qt : Bool} {s0 : State} (code : Nat) (ks : List Nat) (s : State) (hk : Kept qt s0 s) :
    Kept qt s0 (loadImages code ks s).2 := by
  unfold loadImages
  repeat'
    first
    | (with_reducible first | assumption | apply kept_loadImage | apply kept_bootFault | apply Kept.iteR)
    | (with_reducible first | apply Kept.fold | apply Kept.fold2 | apply Kept.fold1 | apply Kept.iteR2)
    | (intro _) | extract_lets | split
    | (with_reducible apply Kept.mk') <;> (try exact rfl)

theorem kept_takeBands {qt : Bool} {s0 : State} (s : State) (hk : Kept qt s0 s) :
    Kept qt s0 (takeBands s) := by
  unfold takeBands
  repeat'
    first
    | (with_reducible first | assumption | apply kept_setBand | apply Kept.iteR | apply Kept.fold | apply Kept.fold2)
    | (with_reducible first | apply Kept.fold1)
    | (intro _) | extract_lets | split
    | (with_reducible apply Kept.mk') <;> (try exact rfl)

theorem kept_loadDictionary {qt : Bool} {s0 : State} (c : NvCopy) (s : State) (hk : Kept qt s0 s) :
    Kept qt s0 (loadDictionary c s) := by
  unfold loadDictionary
  repeat'
    first
    | (with_reducible first | assumption | apply kept_putValue | apply kept_setO | apply Kept.iteR | apply Kept.fold)
    | (with_reducible first | apply Kept.fold2 | apply Kept.fold1 | apply Kept.iteR2)
    | (intro _) | extract_lets | split
    | (with_reducible apply Kept.mk') <;> (try exact rfl)

theorem kept_bootIsland {q : Bool} {s0 : State} (kinds : List Nat) (s : State) (hk : Kept q s0 s) :
    Kept q s0 (bootIsland kinds s) := by
  unfold bootIsland
  extract_lets n _ _ s1 r s2 s3
  have h0 : Kept q s0 n.2 := kept_drawBytes _ _ (kept_stageDone _ _ hk)
  have h1 : Kept q s0 s1 := Kept.mk' h0
  have h2 : Kept q s0 r.2 := kept_loadImages _ _ _ (kept_powerDomains _ _ h1)
  have h3 : Kept q s0 s2 := kept_stageDone _ _ h2
  have h4 : Kept q s0 s3 := kept_stageDone _ _ (kept_applyRails _ (kept_takeBands _ h3))
  clear_value s3
  refine Kept.ite h2 (Kept.ite (kept_bootFault _ _ h3) ?_)
  split
  · exact kept_bootFault _ _ h4
  · rename_i c _
    extract_lets s5 _ s6 r2
    have h5 : Kept q s0 s5 := kept_loadDictionary _ _ h4
    clear_value s5
    have h6 : Kept q s0 s6 := Kept.mk' h5
    have h7 : Kept q s0 r2.2 := kept_loadImages _ _ _ (kept_stageDone _ _ h6)
    exact Kept.ite (kept_stageDone _ _ h7) h7

theorem kept_railsReady {qt : Bool} {s0 : State} (s : State) (hk : Kept qt s0 s) :
    Kept qt s0 (railsReady s) := by
  unfold railsReady
  repeat'
    first
    | (with_reducible first | assumption | apply kept_chipReset | apply kept_bootIsland | apply kept_stageDone)
    | (with_reducible first | apply Kept.iteR)
    | (intro _) | extract_lets | split
    | (with_reducible apply Kept.mk') <;> (try exact rfl)

theorem kept_layOut {qt : Bool} {s0 : State} (s : State) (hk : Kept qt s0 s) :
    Kept qt s0 (layOut s) := by
  unfold layOut
  repeat'
    first
    | (with_reducible first | assumption | apply Kept.iteR | apply Kept.iteR2)
    | (intro _) | extract_lets | split
    | (with_reducible apply Kept.mk') <;> (try exact rfl)

theorem kept_dropVariantPointers {qt : Bool} {s0 : State} (s : State) (hk : Kept qt s0 s) :
    Kept qt s0 (dropVariantPointers s) := by
  unfold dropVariantPointers
  repeat'
    first
    | (with_reducible first | assumption | apply kept_nvStore | apply kept_switchVarPtr | apply Kept.iteR)
    | (with_reducible first | apply Kept.fold | apply Kept.fold2 | apply Kept.fold1 | apply Kept.iteR2)
    | (intro _) | extract_lets | split
    | (with_reducible apply Kept.mk') <;> (try exact rfl)

theorem kept_dramTrained {q : Bool} {s0 : State} (map : List Nat) (s : State) (hk : Kept q s0 s) :
    Kept q s0 (dramTrained map s) := by
  unfold dramTrained
  extract_lets s1
  have h1 : Kept q s0 s1 := Kept.ite (kept_setO _ _ _ hk) hk
  clear_value s1
  exact Kept.mk2 h1 (fun _ => ⟨List.Pairwise.nil, fun _ h => absurd h List.not_mem_nil⟩) id rfl
    (fun _ => ⟨rfl, rfl, rfl, rfl, rfl, rfl⟩)

theorem kept_dramCounts {qt : Bool} {s0 : State} (n : Nat) (s : State) (hk : Kept qt s0 s) :
    Kept qt s0 (dramCounts n s) := by
  unfold dramCounts
  repeat'
    first
    | (with_reducible first | assumption | apply kept_setO | apply Kept.iteR)
    | (intro _) | extract_lets | split
    | (with_reducible apply Kept.mk') <;> (try exact rfl)

theorem kept_dramLaid {qt : Bool} {s0 : State} (s : State) (hk : Kept qt s0 s) :
    Kept qt s0 (dramLaid s) := by
  unfold dramLaid
  repeat'
    first
    | (with_reducible first | assumption | apply kept_bootFault | apply kept_stageDone)
    | (with_reducible first | apply kept_dropVariantPointers | apply kept_layOut | apply Kept.iteR)
    | (intro _) | extract_lets | split
    | (with_reducible apply Kept.mk') <;> (try exact rfl)

theorem kept_bootDram {qt : Bool} {s0 : State} (failed : List Nat) (s : State) (hk : Kept qt s0 s) :
    Kept qt s0 (bootDram failed s) := by
  unfold bootDram
  repeat'
    first
    | (with_reducible first | assumption | apply kept_bootFault | apply kept_dramLaid | apply kept_dramCounts)
    | (with_reducible first | apply kept_dramTrained | apply kept_powerDomains | apply Kept.iteR)
    | (intro _) | extract_lets | split
    | (with_reducible apply Kept.mk') <;> (try exact rfl)

theorem kept_bootCast {qt : Bool} {s0 : State} (trust : Bool) (c : Nat) (s : State) (hk : Kept qt s0 s) :
    Kept qt s0 (bootCast trust c s) := by
  unfold bootCast
  repeat'
    first
    | (with_reducible first | assumption | apply kept_setO | apply kept_eraseCast | apply kept_castMod)
    | (with_reducible first | apply Kept.iteR)
    | (intro _) | extract_lets | split
    | (with_reducible apply Kept.mk') <;> (try exact rfl)

theorem kept_bootIngot {qt : Bool} {s0 : State} (badDies : List Nat) (trust : Bool) (s : State) (hk : Kept qt s0 s) :
    Kept qt s0 (bootIngot badDies trust s) := by
  unfold bootIngot
  repeat'
    first
    | (with_reducible first | assumption | apply kept_bootFault | apply kept_powerDomains | apply kept_stageDone)
    | (with_reducible first | apply kept_bootCast | apply Kept.iteR | apply Kept.fold | apply Kept.fold2)
    | (with_reducible first | apply Kept.fold1)
    | (intro _) | extract_lets | split
    | (with_reducible apply Kept.mk') <;> (try exact rfl)

theorem kept_bootTest {q : Bool} {s0 : State} (u : TestUnit) (s : State) (hk : Kept q s0 s) : Kept q s0 (bootTest u s) := by
  unfold bootTest
  have h1 : Kept q s0 (testFails u s) := kept_testFails _ _ hk
  generalize testFails u s = s1 at h1
  have h2 : ∀ p, Kept q s0 (match logicalOf s1 p with
      | some g => swapGriddle g 0x0122 s1
      | none => s1) := by
    intro p
    split
    · exact kept_swapGriddle _ _ _ h1
    · exact h1
  dsimp only
  split
  · exact h2 _
  · exact h2 _
  · exact h2 _
  · exact kept_switchSieves _ (kept_recastSieve _ _ _ h1)
  · exact h1
  · exact h1

theorem kept_bootTests {qt : Bool} {s0 : State} (fs : List TestUnit) (s : State) (hk : Kept qt s0 s) :
    Kept qt s0 (bootTests fs s) := by
  unfold bootTests
  repeat'
    first
    | (with_reducible first | assumption | apply kept_bootTest | apply kept_powerDomains | apply kept_bootFault)
    | (with_reducible first | apply kept_loadImages | apply kept_stageDone | apply Kept.iteR | apply Kept.fold)
    | (with_reducible first | apply Kept.fold2 | apply Kept.fold1 | apply Kept.iteR2)
    | (intro _) | extract_lets | split
    | (with_reducible apply Kept.mk') <;> (try exact rfl)

theorem kept_laneDrop {qt : Bool} {s0 : State} (p width lane : Nat) (s : State) (hk : Kept qt s0 s) :
    Kept qt s0 (laneDrop p width lane s) := by
  unfold laneDrop
  repeat'
    first
    | (with_reducible first | assumption | apply kept_draw | apply kept_linkBump | apply kept_recast | apply Kept.iteR)
    | (with_reducible first | apply Kept.iteR2)
    | (intro _) | extract_lets | split
    | (with_reducible apply Kept.mk') <;> (try exact rfl)

theorem kept_trainPort {qt : Bool} {s0 : State} (p : Nat) (bad : List Nat) (s : State) (hk : Kept qt s0 s) :
    Kept qt s0 (trainPort p bad s) := by
  unfold trainPort
  repeat'
    first
    | (with_reducible first | assumption | apply kept_portMod | apply kept_laneDrop | apply Kept.iteR)
    | (with_reducible first | apply Kept.fold | apply Kept.fold2 | apply Kept.fold1 | apply Kept.iteR2)
    | (intro _) | extract_lets | split
    | (with_reducible apply Kept.mk') <;> (try exact rfl)

theorem kept_bootReady {qt : Bool} {s0 : State} (s : State) (hk : Kept qt s0 s) :
    Kept qt s0 (bootReady s) := by
  unfold bootReady
  repeat'
    first
    | (with_reducible first | assumption | apply kept_stageDone | apply kept_setO | apply Kept.iteR)
    | (intro _) | extract_lets | split
    | (with_reducible apply Kept.mk') <;> (try exact rfl)

theorem kept_bootLinks {qt : Bool} {s0 : State} (badLanes : List Nat) (s : State) (hk : Kept qt s0 s) :
    Kept qt s0 (bootLinks badLanes s) := by
  unfold bootLinks
  repeat'
    first
    | (with_reducible first | assumption | apply kept_powerDomains | apply kept_bootReady | apply kept_stageDone)
    | (with_reducible first | apply kept_trainPort | apply Kept.iteR | apply Kept.fold | apply Kept.fold2)
    | (with_reducible first | apply Kept.fold1)
    | (intro _) | extract_lets | split
    | (with_reducible apply Kept.mk') <;> (try exact rfl)

theorem kept_doPorstNRise {s0 : State} (s : State) (hk : Kept false s0 s) : Kept false s0 (doPorstNRise s) := by
  unfold doPorstNRise
  refine Kept.ite hk ?_
  extract_lets s1 _ _ s2
  have h1 : Kept false s0 s1 := kept_powerLost _ hk
  have h2 : Kept false s0 s2 := h1.trans ⟨rfl, id, id, fun _ x => x, fun e => Bool.noConfusion e⟩
  exact kept_startRails _ (kept_powerDomains _ _ (kept_stageDone _ _ (kept_openRecord _ h2)))

theorem kept_doRailPowerGood {qt : Bool} {s0 : State} (r : Nat) (s : State) (hk : Kept qt s0 s) :
    Kept qt s0 (doRailPowerGood r s) := by
  unfold doRailPowerGood
  repeat'
    first
    | (with_reducible first | assumption | apply kept_startRails | apply kept_railsReady | apply Kept.iteR)
    | (intro _) | extract_lets | split
    | (with_reducible apply Kept.mk') <;> (try exact rfl)

theorem kept_doPowerGoodMissed {qt : Bool} {s0 : State} (r : Nat) (s : State) (hk : Kept qt s0 s) :
    Kept qt s0 (doPowerGoodMissed r s) := by
  unfold doPowerGoodMissed
  repeat'
    first
    | (with_reducible first | assumption | apply kept_bootFault | apply Kept.iteR)
    | (intro _) | extract_lets | split
    | (with_reducible apply Kept.mk') <;> (try exact rfl)

theorem kept_doDram {qt : Bool} {s0 : State} (failed : List Nat) (s : State) (hk : Kept qt s0 s) :
    Kept qt s0 (doDram failed s) := by
  unfold doDram
  repeat'
    first
    | (with_reducible first | assumption | apply kept_bootDram | apply Kept.iteR)
    | (intro _) | extract_lets | split
    | (with_reducible apply Kept.mk') <;> (try exact rfl)

theorem kept_doIngot {qt : Bool} {s0 : State} (badDies : List Nat) (s : State) (hk : Kept qt s0 s) :
    Kept qt s0 (doIngot badDies s) := by
  unfold doIngot
  repeat'
    first
    | (with_reducible first | assumption | apply kept_bootIngot | apply Kept.iteR)
    | (intro _) | extract_lets | split
    | (with_reducible apply Kept.mk') <;> (try exact rfl)

theorem kept_doSelfTest {qt : Bool} {s0 : State} (fs : List TestUnit) (s : State) (hk : Kept qt s0 s) :
    Kept qt s0 (doSelfTest fs s) := by
  unfold doSelfTest
  repeat'
    first
    | (with_reducible first | assumption | apply kept_bootTests | apply Kept.iteR)
    | (intro _) | extract_lets | split
    | (with_reducible apply Kept.mk') <;> (try exact rfl)

theorem kept_doLinks {q : Bool} {s0 : State} (bad : List Nat) (s : State) (hk : Kept q s0 s) :
    Kept q s0 (doLinks bad s) := by
  unfold doLinks
  have h1 := kept_bootLinks bad s hk
  generalize bootLinks bad s = s1 at h1 ⊢
  exact Kept.ite (Kept.mk' h1) hk

theorem kept_doPorstNFall {s0 : State} (s : State) (hk : Kept false s0 s) :
    Kept false s0 (doPorstNFall s) := by
  unfold doPorstNFall
  repeat'
    first
    | (with_reducible first | assumption | apply kept_powerLost | apply kept_railsOff | apply Kept.iteR)
    | (intro _) | extract_lets | split
    | (with_reducible apply Kept.mk') <;> (try exact rfl)

theorem kept_doAlwaysOnLoss {s0 : State} (r : Nat) (s : State) (hk : Kept false s0 s) :
    Kept false s0 (doAlwaysOnLoss r s) := by
  unfold doAlwaysOnLoss
  repeat'
    first
    | (with_reducible first | assumption | apply kept_doPorstNFall | apply Kept.iteR)
    | (intro _) | extract_lets | split
    | (with_reducible apply Kept.mk') <;> (try exact rfl)

theorem kept_clearAlerts {qt : Bool} {s0 : State} (s : State) (hk : Kept qt s0 s) :
    Kept qt s0 (clearAlerts s) := by
  unfold clearAlerts
  repeat'
    first
    | (with_reducible first | assumption | apply kept_setAlert | apply Kept.iteR)
    | (intro _) | extract_lets | split
    | (with_reducible apply Kept.mk') <;> (try exact rfl)

theorem kept_chipReset {qt : Bool} {s0 : State} (s : State) (hk : Kept qt s0 s) :
    Kept qt s0 (chipReset s) := by
  unfold chipReset
  repeat'
    first
    | (with_reducible first | assumption | apply kept_clearAlerts | apply kept_mainLost | apply kept_setO)
    | (with_reducible first | apply kept_startRails | apply kept_stageDone | apply kept_bootIsland | apply Kept.iteR)
    | (intro _) | extract_lets | split
    | (with_reducible apply Kept.mk') <;> (try exact rfl)

theorem kept_doChipReset {qt : Bool} {s0 : State} (a : Access) (v : Nat) (s : State) (hk : Kept qt s0 s) :
    Kept qt s0 (doChipReset a v s).2 := by
  unfold doChipReset
  repeat'
    first
    | (with_reducible first | assumption | apply kept_chipReset | apply Kept.iteR | apply Kept.iteR2)
    | (intro _) | extract_lets | split
    | (with_reducible apply Kept.mk') <;> (try exact rfl)

theorem kept_portSettings {qt : Bool} {s0 : State} (p : Nat) (s : State) (hk : Kept qt s0 s) :
    Kept qt s0 (portSettings p s) := by
  unfold portSettings
  repeat'
    first
    | (with_reducible first | assumption | apply kept_putValue | apply kept_setO | apply Kept.iteR | apply Kept.fold)
    | (with_reducible first | apply Kept.fold2 | apply Kept.fold1)
    | (intro _) | extract_lets | split
    | (with_reducible apply Kept.mk') <;> (try exact rfl)

theorem kept_resetPort {qt : Bool} {s0 : State} (p : Nat) (s : State) (hk : Kept qt s0 s) :
    Kept qt s0 (resetPort p s) := by
  unfold resetPort
  repeat'
    first
    | (with_reducible first | assumption | apply kept_portSettings | apply kept_portMod | apply Kept.iteR)
    | (intro _) | extract_lets | split
    | (with_reducible apply Kept.mk') <;> (try exact rfl)

theorem kept_doPortReset {qt : Bool} {s0 : State} (a : Access) (mask : Nat) (s : State) (hk : Kept qt s0 s) :
    Kept qt s0 (doPortReset a mask s).2 := by
  unfold doPortReset
  repeat'
    first
    | (with_reducible first | assumption | apply kept_resetPort | apply Kept.iteR | apply Kept.fold | apply Kept.fold2)
    | (with_reducible first | apply Kept.fold1 | apply Kept.iteR2)
    | (intro _) | extract_lets | split
    | (with_reducible apply Kept.mk') <;> (try exact rfl)

theorem kept_resetEngine {qt : Bool} {s0 : State} (u : Nat) (passes : Bool) (s : State) (hk : Kept qt s0 s) :
    Kept qt s0 (resetEngine u passes s) := by
  unfold resetEngine
  repeat'
    first
    | (with_reducible first | assumption | apply kept_testFails | apply Kept.iteR)
    | (intro _) | extract_lets | split
    | (with_reducible apply Kept.mk') <;> (try exact rfl)

theorem kept_doEngineReset {qt : Bool} {s0 : State} (a : Access) (u : Nat) (passes : Bool) (s : State) (hk : Kept qt s0 s) :
    Kept qt s0 (doEngineReset a u passes s).2 := by
  unfold doEngineReset
  repeat'
    first
    | (with_reducible first | assumption | apply kept_resetEngine | apply Kept.iteR | apply Kept.iteR2)
    | (intro _) | extract_lets | split | (rename_i e; have e := congrArg Prod.snd e; dsimp only at e; subst e)
    | (with_reducible apply Kept.mk') <;> (try exact rfl)

theorem kept_listenOnly {qt : Bool} {s0 : State} (s : State) (hk : Kept qt s0 s) :
    Kept qt s0 (listenOnly s) := by
  unfold listenOnly
  repeat'
    first
    | (with_reducible first | assumption | apply kept_portMod | apply Kept.iteR | apply Kept.fold | apply Kept.fold2)
    | (with_reducible first | apply Kept.fold1)
    | (intro _) | extract_lets | split
    | (with_reducible apply Kept.mk') <;> (try exact rfl)

theorem kept_quiesce {qt : Bool} {s0 : State} (s : State) (hk : Kept qt s0 s) :
    Kept qt s0 (quiesce s) := by
  unfold quiesce
  repeat'
    first
    | (with_reducible first | assumption | apply Kept.iteR | apply Kept.iteR2)
    | (intro _) | extract_lets | split
    | (with_reducible apply Kept.mk') <;> (try exact rfl)

theorem kept_enterWarm {qt : Bool} {s0 : State} (s : State) (hk : Kept qt s0 s) :
    Kept qt s0 (enterWarm s) := by
  unfold enterWarm
  repeat'
    first
    | (with_reducible first | assumption | apply kept_listenOnly | apply kept_quiesce | apply Kept.iteR)
    | (intro _) | extract_lets | split
    | (with_reducible apply Kept.mk') <;> (try exact rfl)

theorem kept_enterCold {q : Bool} {s0 : State} (s : State) (hk : Kept q s0 s) : Kept q s0 (enterCold s) := by
  unfold enterCold
  extract_lets id s1 s2 s3
  have h1 : Kept q s0 s1 := kept_railsOff _ _ (kept_domainsOff _ (kept_mainLost _ hk))
  clear_value s1
  have h2 : Kept q s0 s2 := by
    simp only [s2]
    split
    · exact Kept.fold (fun e v hv => kept_putValue _ _ _ hv) h1
    · exact h1
  clear_value s2
  have h3 : Kept q s0 s3 := kept_setO _ _ _ h2
  clear_value s3
  exact kept_powerPatrol _ (kept_listenOnly _ (Kept.mk' h3))

theorem kept_leaveSpare {qt : Bool} {s0 : State} (kind : BootKind) (s : State) (hk : Kept qt s0 s) :
    Kept qt s0 (leaveSpare kind s) := by
  unfold leaveSpare
  repeat'
    first
    | (with_reducible first | assumption | apply kept_startRails | apply kept_stageDone | apply kept_setO)
    | (with_reducible first | apply Kept.iteR)
    | (intro _) | extract_lets | split
    | (with_reducible apply Kept.mk') <;> (try exact rfl)

theorem kept_doChipStateRequest {qt : Bool} {s0 : State} (a : Access) (v : Nat) (s : State) (hk : Kept qt s0 s) :
    Kept qt s0 (doChipStateRequest a v s).2 := by
  unfold doChipStateRequest
  repeat'
    first
    | (with_reducible first | assumption | apply kept_leaveSpare | apply Kept.iteR | apply Kept.iteR2)
    | (intro _) | extract_lets | split
    | (with_reducible apply Kept.mk') <;> (try exact rfl)

theorem kept_doSpareReached {qt : Bool} {s0 : State} (s : State) (hk : Kept qt s0 s) :
    Kept qt s0 (doSpareReached s) := by
  unfold doSpareReached
  repeat'
    first
    | (with_reducible first | assumption | apply kept_enterCold | apply kept_enterWarm | apply Kept.iteR)
    | (intro _) | extract_lets | split
    | (with_reducible apply Kept.mk') <;> (try exact rfl)

theorem kept_coldStages {qt : Bool} {s0 : State} (failed : List Nat) (s : State) (hk : Kept qt s0 s) :
    Kept qt s0 (coldStages failed s) := by
  unfold coldStages
  repeat'
    first
    | (with_reducible first | assumption | apply kept_bootIsland | apply kept_bootTests | apply kept_bootIngot)
    | (with_reducible first | apply kept_bootDram | apply Kept.iteR | apply Kept.fold | apply Kept.fold2)
    | (with_reducible first | apply Kept.fold1)
    | (intro _) | extract_lets | split
    | (with_reducible apply Kept.mk') <;> (try exact rfl)

theorem kept_spareReady {qt : Bool} {s0 : State} (s : State) (hk : Kept qt s0 s) :
    Kept qt s0 (spareReady s) := by
  unfold spareReady
  repeat'
    first
    | (with_reducible first | assumption | apply kept_setO | apply Kept.iteR)
    | (intro _) | extract_lets | split
    | (with_reducible apply Kept.mk') <;> (try exact rfl)

theorem kept_doWakeReady {qt : Bool} {s0 : State} (failed : List Nat) (s : State) (hk : Kept qt s0 s) :
    Kept qt s0 (doWakeReady failed s) := by
  unfold doWakeReady
  repeat'
    first
    | (with_reducible first | assumption | apply kept_trainPort | apply kept_spareReady | apply kept_bootReady)
    | (with_reducible first | apply kept_coldStages | apply kept_enterWarm | apply kept_bootLinks | apply Kept.iteR)
    | (with_reducible first | apply Kept.fold | apply Kept.fold2 | apply Kept.fold1)
    | (intro _) | extract_lets | split
    | (with_reducible apply Kept.mk') <;> (try exact rfl)

theorem kept_doServeEnable {qt : Bool} {s0 : State} (a : Access) (v : Nat) (s : State) (hk : Kept qt s0 s) :
    Kept qt s0 (doServeEnable a v s).2 := by
  unfold doServeEnable
  repeat'
    first
    | (with_reducible first | assumption | apply kept_makePending | apply Kept.iteR | apply Kept.iteR2)
    | (intro _) | extract_lets | split | (rename_i e; have e := congrArg Prod.snd e; dsimp only at e; subst e)
    | (with_reducible apply Kept.mk') <;> (try exact rfl)

theorem kept_doChipIdWrite {qt : Bool} {s0 : State} (a : Access) (v : Nat) (s : State) (hk : Kept qt s0 s) :
    Kept qt s0 (doChipIdWrite a v s).2 := by
  unfold doChipIdWrite
  repeat'
    first
    | (with_reducible first | assumption | apply kept_applyNow | apply Kept.iteR | apply Kept.iteR2)
    | (intro _) | extract_lets | split
    | (with_reducible apply Kept.mk') <;> (try exact rfl)

theorem kept_doIdleEnter {qt : Bool} {s0 : State} (s : State) (hk : Kept qt s0 s) :
    Kept qt s0 (doIdleEnter s) := by
  unfold doIdleEnter
  repeat'
    first
    | (with_reducible first | assumption | apply Kept.iteR)
    | (intro _) | extract_lets | split
    | (with_reducible apply Kept.mk') <;> (try exact rfl)

/-! ### Machine/Pilot.lean -/

theorem kept_median {qt : Bool} {s0 : State} (l : List Int) (s : State) (hk : Kept qt s0 s) :
    Kept qt s0 (median l s).2 := by
  unfold median
  repeat'
    first
    | (with_reducible first | assumption | apply kept_draw | apply Kept.iteR | apply Kept.iteR2)
    | (intro _) | extract_lets | split
    | (with_reducible apply Kept.mk') <;> (try exact rfl)

theorem kept_filterSample {qt : Bool} {s0 : State} (n : Nat) (raw : Int) (s : State) (hk : Kept qt s0 s) :
    Kept qt s0 (filterSample n raw s) := by
  unfold filterSample
  repeat'
    first
    | (with_reducible first | assumption | apply kept_median | apply kept_setO | apply Kept.iteR | apply Kept.iteR2)
    | (intro _) | extract_lets | split
    | (with_reducible apply Kept.mk') <;> (try exact rfl)

theorem kept_trip {qt : Bool} {s0 : State} (s : State) (hk : Kept qt s0 s) :
    Kept qt s0 (trip s) := by
  unfold trip
  repeat'
    first
    | (with_reducible first | assumption | apply kept_applyNow | apply kept_setAlert | apply Kept.iteR)
    | (with_reducible first | apply Kept.iteR2)
    | (intro _) | extract_lets | split
    | (with_reducible apply Kept.mk') <;> (try exact rfl)

theorem kept_stackReading {qt : Bool} {s0 : State} (k : Nat) (s : State) (hk : Kept qt s0 s) :
    Kept qt s0 (stackReading k s) := by
  unfold stackReading
  repeat'
    first
    | (with_reducible first | assumption | apply kept_setO | apply kept_bump | apply kept_criticalTrip)
    | (with_reducible first | apply Kept.iteR)
    | (intro _) | extract_lets | split
    | (with_reducible apply Kept.mk') <;> (try exact rfl)

theorem kept_dieReading {qt : Bool} {s0 : State} (zone : Nat) (t : Int) (s : State) (hk : Kept qt s0 s) :
    Kept qt s0 (dieReading zone t s) := by
  unfold dieReading
  repeat'
    first
    | (with_reducible first | assumption | apply kept_setO | apply kept_criticalTrip | apply Kept.iteR)
    | (intro _) | extract_lets | split
    | (with_reducible apply Kept.mk') <;> (try exact rfl)

theorem kept_writeLimit {qt : Bool} {s0 : State} (s : State) (hk : Kept qt s0 s) :
    Kept qt s0 (writeLimit s) := by
  unfold writeLimit
  repeat'
    first
    | (with_reducible first | assumption | apply kept_makePending | apply Kept.iteR | apply Kept.iteR2)
    | (intro _) | extract_lets | split
    | (with_reducible apply Kept.mk') <;> (try exact rfl)

theorem kept_onAssert {qt : Bool} {s0 : State} (act : Nat) (s : State) (hk : Kept qt s0 s) :
    Kept qt s0 (onAssert act s) := by
  unfold onAssert
  repeat'
    first
    | (with_reducible first | assumption | apply kept_leaveSpare | apply Kept.iteR)
    | (intro _) | extract_lets | split
    | (with_reducible apply Kept.mk') <;> (try exact rfl)

theorem kept_thEntry {qt : Bool} {s0 : State} (n : Nat) (v : Int) (s : State) (e : Nat) (hk : Kept qt s0 s) :
    Kept qt s0 (thEntry n v s e) := by
  unfold thEntry
  repeat'
    first
    | (with_reducible first | assumption | apply kept_setO | apply kept_setAlert | apply kept_writeLimit)
    | (with_reducible first | apply kept_onAssert | apply Kept.iteR)
    | (intro _) | extract_lets | split
    | (with_reducible apply Kept.mk') <;> (try exact rfl)

theorem kept_resetEntry {qt : Bool} {s0 : State} (e : Nat) (s : State) (hk : Kept qt s0 s) :
    Kept qt s0 (resetEntry e s) := by
  unfold resetEntry
  repeat'
    first
    | (with_reducible first | assumption | apply kept_setO | apply kept_writeLimit | apply kept_setAlert)
    | (with_reducible first | apply Kept.iteR)
    | (intro _) | extract_lets | split
    | (with_reducible apply Kept.mk') <;> (try exact rfl)

theorem kept_sensorActs {qt : Bool} {s0 : State} (n : Nat) (s : State) (hk : Kept qt s0 s) :
    Kept qt s0 (sensorActs n s) := by
  unfold sensorActs
  repeat'
    first
    | (with_reducible first | assumption | apply kept_setO | apply kept_trip | apply kept_stackReading)
    | (with_reducible first | apply kept_dieReading | apply kept_thEntry | apply kept_doBands | apply kept_startRails)
    | (with_reducible first | apply Kept.iteR | apply Kept.fold | apply Kept.fold2 | apply Kept.fold1)
    | (intro _) | extract_lets | split
    | (with_reducible apply Kept.mk') <;> (try exact rfl)

theorem kept_failedRead {qt : Bool} {s0 : State} (n : Nat) (s : State) (hk : Kept qt s0 s) :
    Kept qt s0 (failedRead n s) := by
  unfold failedRead
  repeat'
    first
    | (with_reducible first | assumption | apply kept_setAlert | apply Kept.iteR)
    | (intro _) | extract_lets | split
    | (with_reducible apply Kept.mk') <;> (try exact rfl)

theorem kept_doSensorSample {qt : Bool} {s0 : State} (n : Nat) (raw : Option Int) (at' : Nat) (s : State) (hk : Kept qt s0 s) :
    Kept qt s0 (doSensorSample n raw at' s) := by
  unfold doSensorSample
  repeat'
    first
    | (with_reducible first | assumption | apply kept_atT | apply kept_failedRead | apply kept_sensorActs)
    | (with_reducible first | apply kept_filterSample | apply kept_setAlert | apply Kept.iteR)
    | (intro _) | extract_lets | split
    | (with_reducible apply Kept.mk') <;> (try exact rfl)

/-! ### Machine/Security.lean -/

theorem kept_closeSession {qt : Bool} {s0 : State} (id : Nat) (s : State) (hk : Kept qt s0 s) :
    Kept qt s0 (closeSession id s) := by
  unfold closeSession
  repeat'
    first
    | (with_reducible first | assumption | apply kept_ctxDrop | apply Kept.iteR)
    | (intro _) | extract_lets | split
    | (with_reducible apply Kept.mk') <;> (try exact rfl)

theorem kept_closeSessions {qt : Bool} {s0 : State} (p : Session → Bool) (s : State) (hk : Kept qt s0 s) :
    Kept qt s0 (closeSessions p s) := by
  unfold closeSessions
  repeat'
    first
    | (with_reducible first | assumption | apply kept_closeSession | apply Kept.iteR | apply Kept.fold)
    | (with_reducible first | apply Kept.fold2 | apply Kept.fold1 | apply Kept.iteR2)
    | (intro _) | extract_lets | split
    | (with_reducible apply Kept.mk') <;> (try exact rfl)

theorem kept_freshNonce {qt : Bool} {s0 : State} (s : State) (hk : Kept qt s0 s) :
    Kept qt s0 (freshNonce s) := by
  unfold freshNonce
  repeat'
    first
    | (with_reducible first | assumption | apply kept_drawBytes | apply Kept.iteR | apply Kept.iteR2)
    | (intro _) | extract_lets | split
    | (with_reducible apply Kept.mk') <;> (try exact rfl)

theorem kept_installOwner {q : Bool} {s0 : State} (key : Bytes) (s : State) (hk : Kept q s0 s)
    (ho : s.sec.ownerKey = none) : Kept q s0 (installOwner key s) := by
  unfold installOwner
  refine kept_closeSessions _ _ (kept_bump _ _ (hk.trans ⟨rfl, id, id, fun k e => ?_, fun _ =>
    ⟨rfl, rfl, rfl, rfl, rfl, le_rfl⟩⟩))
  rw [ho] at e
  cases e

theorem kept_doOwnerInstall {q : Bool} {s0 : State} (a : Access) (v : Bytes) (s : State) (hk : Kept q s0 s) :
    Kept q s0 (doOwnerInstall a v s).2 := by
  unfold doOwnerInstall
  split
  · exact kept_freshNonce _ hk
  · rename_i hn
    split
    · exact Kept.ite2 (kept_freshNonce _ hk) (kept_installOwner _ _ hk (by simpa using hn))
    · exact kept_freshNonce _ hk

theorem kept_putKey {qt : Bool} {s0 : State} (r : Bytes) (s : State) (hk : Kept qt s0 s) :
    Kept qt s0 (putKey r s) := by
  unfold putKey
  repeat'
    first
    | (with_reducible first | assumption | apply kept_bump | apply Kept.iteR)
    | (intro _) | extract_lets | split
    | (with_reducible apply Kept.mk') <;> (try exact rfl)

theorem kept_doKeyAuthorise {qt : Bool} {s0 : State} (a : Access) (r : Bytes) (s : State) (hk : Kept qt s0 s) :
    Kept qt s0 (doKeyAuthorise a r s).2 := by
  unfold doKeyAuthorise
  repeat'
    first
    | (with_reducible first | assumption | apply kept_putKey | apply Kept.iteR | apply Kept.iteR2)
    | (intro _) | extract_lets | split
    | (with_reducible apply Kept.mk') <;> (try exact rfl)

theorem kept_dropKey {qt : Bool} {s0 : State} (key : Bytes) (s : State) (hk : Kept qt s0 s) :
    Kept qt s0 (dropKey key s) := by
  unfold dropKey
  repeat'
    first
    | (with_reducible first | assumption | apply kept_closeSessions | apply kept_bump | apply Kept.iteR)
    | (intro _) | extract_lets | split
    | (with_reducible apply Kept.mk') <;> (try exact rfl)

theorem kept_doKeyRevoke {qt : Bool} {s0 : State} (a : Access) (d : Bytes) (s : State) (hk : Kept qt s0 s) :
    Kept qt s0 (doKeyRevoke a d s).2 := by
  unfold doKeyRevoke
  repeat'
    first
    | (with_reducible first | assumption | apply kept_dropKey | apply Kept.iteR | apply Kept.iteR2)
    | (intro _) | extract_lets | split
    | (with_reducible apply Kept.mk') <;> (try exact rfl)

theorem kept_putImage {qt : Bool} {s0 : State} (v : Bytes) (s : State) (hk : Kept qt s0 s) :
    Kept qt s0 (putImage v s) := by
  unfold putImage
  repeat'
    first
    | (with_reducible first | assumption | apply Kept.iteR)
    | (intro _) | extract_lets | split
    | (with_reducible apply Kept.mk') <;> (try exact rfl)

theorem kept_doFirmwareStage {qt : Bool} {s0 : State} (a : Access) (v : Bytes) (s : State) (hk : Kept qt s0 s) :
    Kept qt s0 (doFirmwareStage a v s).2 := by
  unfold doFirmwareStage
  repeat'
    first
    | (with_reducible first | assumption | apply kept_putImage | apply Kept.iteR | apply Kept.iteR2)
    | (intro _) | extract_lets | split
    | (with_reducible apply Kept.mk') <;> (try exact rfl)

theorem kept_doRollbackCommit {qt : Bool} {s0 : State} (a : Access) (k : Nat) (s : State) (hk : Kept qt s0 s) :
    Kept qt s0 (doRollbackCommit a k s).2 := by
  unfold doRollbackCommit
  repeat'
    first
    | (with_reducible first | assumption | apply kept_applyNow | apply Kept.iteR | apply Kept.iteR2)
    | (intro _) | extract_lets | split
    | (with_reducible apply Kept.mk') <;> (try exact rfl)

theorem kept_doAttestNonce {qt : Bool} {s0 : State} (a : Access) (v : Bytes) (s : State) (hk : Kept qt s0 s) :
    Kept qt s0 (doAttestNonce a v s).2 := by
  unfold doAttestNonce
  repeat'
    first
    | (with_reducible first | assumption | apply kept_makePending | apply kept_ctxMod | apply Kept.iteR)
    | (with_reducible first | apply Kept.iteR2)
    | (intro _) | extract_lets | split | (rename_i e; have e := congrArg Prod.snd e; dsimp only at e; subst e)
    | (with_reducible apply Kept.mk') <;> (try exact rfl)

theorem kept_formReport {qt : Bool} {s0 : State} (tick : Nat) (ctx : AccessCtx) (nonce : Bytes) (s : State) (hk : Kept qt s0 s) :
    Kept qt s0 (formReport tick ctx nonce s) := by
  unfold formReport
  repeat'
    first
    | (with_reducible first | assumption | apply kept_ctxMod | apply Kept.iteR)
    | (intro _) | extract_lets | split
    | (with_reducible apply Kept.mk') <;> (try exact rfl)

theorem kept_doStatsRequest {qt : Bool} {s0 : State} (a : Access) (v : Nat) (s : State) (hk : Kept qt s0 s) :
    Kept qt s0 (doStatsRequest a v s).2 := by
  unfold doStatsRequest
  repeat'
    first
    | (with_reducible first | assumption | apply kept_makePending | apply kept_ctxMod | apply Kept.iteR)
    | (with_reducible first | apply Kept.iteR2)
    | (intro _) | extract_lets | split | (rename_i e; have e := congrArg Prod.snd e; dsimp only at e; subst e)
    | (with_reducible apply Kept.mk') <;> (try exact rfl)

theorem kept_doShareGrant {qt : Bool} {s0 : State} (a : Access) (g : Bytes) (s : State) (hk : Kept qt s0 s) :
    Kept qt s0 (doShareGrant a g s).2 := by
  unfold doShareGrant
  repeat'
    first
    | (with_reducible first | assumption | apply kept_makePending | apply Kept.iteR | apply Kept.iteR2)
    | (intro _) | extract_lets | split | (rename_i e; have e := congrArg Prod.snd e; dsimp only at e; subst e)
    | (with_reducible apply Kept.mk') <;> (try exact rfl)

theorem kept_putGrant {qt : Bool} {s0 : State} (g : Bytes) (s : State) (hk : Kept qt s0 s) :
    Kept qt s0 (putGrant g s) := by
  unfold putGrant
  repeat'
    first
    | (with_reducible first | assumption | apply Kept.iteR)
    | (intro _) | extract_lets | split
    | (with_reducible apply Kept.mk') <;> (try exact rfl)

theorem kept_doShareRevoke {qt : Bool} {s0 : State} (a : Access) (g : Bytes) (s : State) (hk : Kept qt s0 s) :
    Kept qt s0 (doShareRevoke a g s).2 := by
  unfold doShareRevoke
  repeat'
    first
    | (with_reducible first | assumption | apply kept_makePending | apply Kept.iteR | apply Kept.iteR2)
    | (intro _) | extract_lets | split | (rename_i e; have e := congrArg Prod.snd e; dsimp only at e; subst e)
    | (with_reducible apply Kept.mk') <;> (try exact rfl)

theorem kept_dropGrant {qt : Bool} {s0 : State} (g : Bytes) (s : State) (hk : Kept qt s0 s) :
    Kept qt s0 (dropGrant g s) := by
  unfold dropGrant
  repeat'
    first
    | (with_reducible first | assumption | apply Kept.iteR)
    | (intro _) | extract_lets | split
    | (with_reducible apply Kept.mk') <;> (try exact rfl)

theorem kept_zeroFrames {q : Bool} {s0 : State} (rs : List (Nat × Nat)) (s : State) (hk : Kept q s0 s) :
    Kept q s0 (zeroFrames rs s) :=
  Kept.mk2 hk (fun h => wf_filter h _) id rfl (fun _ => ⟨rfl, rfl, rfl, rfl, rfl, rfl⟩)

theorem kept_doMemPages {qt : Bool} {s0 : State} (a : Access) (n : Nat) (v : Bytes) (s : State) (hk : Kept qt s0 s) :
    Kept qt s0 (doMemPages a n v s).2 := by
  unfold doMemPages
  repeat'
    first
    | (with_reducible first | assumption | apply kept_makePending | apply Kept.iteR | apply Kept.iteR2)
    | (intro _) | extract_lets | split | (rename_i e; have e := congrArg Prod.snd e; dsimp only at e; subst e)
    | (with_reducible apply Kept.mk') <;> (try exact rfl)

theorem kept_setMemPages {qt : Bool} {s0 : State} (n v : Nat) (s : State) (hk : Kept qt s0 s) :
    Kept qt s0 (setMemPages n v s) := by
  unfold setMemPages
  repeat'
    first
    | (with_reducible first | assumption | apply kept_setO | apply kept_zeroFrames | apply Kept.iteR)
    | (with_reducible first | apply Kept.iteR2)
    | (intro _) | extract_lets | split
    | (with_reducible apply Kept.mk') <;> (try exact rfl)

theorem kept_doTenantReset {qt : Bool} {s0 : State} (a : Access) (n v : Nat) (s : State) (hk : Kept qt s0 s) :
    Kept qt s0 (doTenantReset a n v s).2 := by
  unfold doTenantReset
  repeat'
    first
    | (with_reducible first | assumption | apply kept_makePending | apply kept_tenantMod | apply Kept.iteR)
    | (with_reducible first | apply Kept.iteR2)
    | (intro _) | extract_lets | split | (rename_i e; have e := congrArg Prod.snd e; dsimp only at e; subst e)
    | (with_reducible apply Kept.mk') <;> (try exact rfl)

theorem kept_doRingResume {qt : Bool} {s0 : State} (a : Access) (n v : Nat) (s : State) (hk : Kept qt s0 s) :
    Kept qt s0 (doRingResume a n v s).2 := by
  unfold doRingResume
  repeat'
    first
    | (with_reducible first | assumption | apply kept_makePending | apply Kept.iteR | apply Kept.iteR2)
    | (intro _) | extract_lets | split | (rename_i e; have e := congrArg Prod.snd e; dsimp only at e; subst e)
    | (with_reducible apply Kept.mk') <;> (try exact rfl)

theorem kept_resumeRings {qt : Bool} {s0 : State} (n mask : Nat) (s : State) (hk : Kept qt s0 s) :
    Kept qt s0 (resumeRings n mask s) := by
  unfold resumeRings
  repeat'
    first
    | (with_reducible first | assumption | apply kept_ringMod | apply Kept.iteR | apply Kept.fold | apply Kept.fold2)
    | (with_reducible first | apply Kept.fold1)
    | (intro _) | extract_lets | split
    | (with_reducible apply Kept.mk') <;> (try exact rfl)

theorem kept_doRestoreDefaults {qt : Bool} {s0 : State} (a : Access) (v : Nat) (s : State) (hk : Kept qt s0 s) :
    Kept qt s0 (doRestoreDefaults a v s).2 := by
  unfold doRestoreDefaults
  repeat'
    first
    | (with_reducible first | assumption | apply Kept.iteR | apply Kept.iteR2)
    | (intro _) | extract_lets | split
    | (with_reducible apply Kept.mk') <;> (try exact rfl)

theorem kept_doTickPeriod {qt : Bool} {s0 : State} (a : Access) (sub' : Nat) (v : Bytes) (s : State) (hk : Kept qt s0 s) :
    Kept qt s0 (doTickPeriod a sub' v s).2 := by
  unfold doTickPeriod
  repeat'
    first
    | (with_reducible first | assumption | apply Kept.iteR | apply Kept.iteR2)
    | (intro _) | extract_lets | split
    | (with_reducible apply Kept.mk') <;> (try exact rfl)

theorem kept_doRegridNo {qt : Bool} {s0 : State} (a : Access) (v : Bytes) (s : State) (hk : Kept qt s0 s) :
    Kept qt s0 (doRegridNo a v s).2 := by
  unfold doRegridNo
  repeat'
    first
    | (with_reducible first | assumption | apply kept_setO | apply Kept.iteR | apply Kept.iteR2)
    | (intro _) | extract_lets | split
    | (with_reducible apply Kept.mk') <;> (try exact rfl)

theorem kept_doSyncPin {qt : Bool} {s0 : State} (a : Access) (pin : Nat) (v : Bytes) (s : State) (hk : Kept qt s0 s) :
    Kept qt s0 (doSyncPin a pin v s).2 := by
  unfold doSyncPin
  repeat'
    first
    | (with_reducible first | assumption | apply kept_makePending | apply Kept.iteR | apply Kept.iteR2)
    | (intro _) | extract_lets | split | (rename_i e; have e := congrArg Prod.snd e; dsimp only at e; subst e)
    | (with_reducible apply Kept.mk') <;> (try exact rfl)

theorem kept_doNvComplete {qt : Bool} {s0 : State} (key : Nat) (ok : Bool) (s : State) (hk : Kept qt s0 s) :
    Kept qt s0 (doNvComplete key ok s) := by
  unfold doNvComplete
  repeat'
    first
    | (with_reducible first | assumption | apply kept_nvStore | apply Kept.iteR | apply Kept.iteR2)
    | (intro _) | extract_lets | split
    | (with_reducible apply Kept.mk') <;> (try exact rfl)

theorem kept_doJtag {qt : Bool} {s0 : State} (j : JtagInstr) (s : State) (hk : Kept qt s0 s) :
    Kept qt s0 (doJtag j s) := by
  unfold doJtag
  repeat'
    first
    | (with_reducible first | assumption | apply Kept.iteR)
    | (intro _) | extract_lets | split
    | (with_reducible apply Kept.mk') <;> (try exact rfl)

theorem kept_doNeighbour {qt : Bool} {s0 : State} (port : Nat) (target : Bytes) (s : State) (hk : Kept qt s0 s) :
    Kept qt s0 (doNeighbour port target s) := by
  unfold doNeighbour
  repeat'
    first
    | (with_reducible first | assumption | apply kept_emit | apply Kept.iteR)
    | (intro _) | extract_lets | split
    | (with_reducible apply Kept.mk') <;> (try exact rfl)

/-! ### Machine/Takeover.lean -/

theorem kept_sendWake {qt : Bool} {s0 : State} (spare ward : Nat) (s : State) (hk : Kept qt s0 s) :
    Kept qt s0 (sendWake spare ward s) := by
  unfold sendWake
  repeat'
    first
    | (with_reducible first | assumption | apply kept_draw | apply kept_routeFrame | apply Kept.iteR)
    | (with_reducible first | apply Kept.iteR2)
    | (intro _) | extract_lets | split
    | (with_reducible apply Kept.mk') <;> (try exact rfl)

theorem kept_wakeFrom {q : Bool} {s0 : State} (ward : Nat) (l : List Nat) (i : Nat) (s : State) (hk : Kept q s0 s) :
    Kept q s0 (wakeFrom ward l i s) := by
  induction l generalizing i s with
  | nil => exact kept_setO _ _ _ (kept_raiseFault _ _ _ _ _ _ (Kept.mk' hk))
  | cons c l ih =>
    unfold wakeFrom
    have hd := kept_draw s hk
    exact Kept.ite (kept_sendWake _ _ _ (Kept.mk' hd)) (ih _ _ hd)

theorem kept_beginTakeover {q : Bool} {s0 : State} (s : State) (hk : Kept q s0 s) : Kept q s0 (beginTakeover s) := by
  unfold beginTakeover
  exact Kept.ite hk (kept_wakeFrom _ _ _ _ (kept_setO _ _ _ hk))

theorem kept_doTakeoverStart {qt : Bool} {s0 : State} (ward : Nat) (s : State) (hk : Kept qt s0 s) :
    Kept qt s0 (doTakeoverStart ward s) := by
  unfold doTakeoverStart
  repeat'
    first
    | (with_reducible first | assumption | apply kept_beginTakeover | apply Kept.iteR)
    | (intro _) | extract_lets | split
    | (with_reducible apply Kept.mk') <;> (try exact rfl)

theorem kept_doTakeoverWrite {qt : Bool} {s0 : State} (a : Access) (v : Bytes) (s : State) (hk : Kept qt s0 s) :
    Kept qt s0 (doTakeoverWrite a v s).2 := by
  unfold doTakeoverWrite
  repeat'
    first
    | (with_reducible first | assumption | apply kept_doTakeoverStart | apply Kept.iteR | apply Kept.iteR2)
    | (intro _) | extract_lets | split | (rename_i e; have e := congrArg Prod.snd e; dsimp only at e; subst e)
    | (with_reducible apply Kept.mk') <;> (try exact rfl)

theorem kept_probeWard {qt : Bool} {s0 : State} (ward : Nat) (s : State) (hk : Kept qt s0 s) :
    Kept qt s0 (probeWard ward s) := by
  unfold probeWard
  repeat'
    first
    | (with_reducible first | assumption | apply kept_sendDict | apply kept_offer | apply Kept.iteR)
    | (intro _) | extract_lets | split
    | (with_reducible apply Kept.mk') <;> (try exact rfl)

theorem kept_doWardMiss {qt : Bool} {s0 : State} (s : State) (hk : Kept qt s0 s) :
    Kept qt s0 (doWardMiss s) := by
  unfold doWardMiss
  repeat'
    first
    | (with_reducible first | assumption | apply kept_probeWard | apply Kept.iteR)
    | (intro _) | extract_lets | split
    | (with_reducible apply Kept.mk') <;> (try exact rfl)

theorem kept_doWardLost {qt : Bool} {s0 : State} (t : Nat) (s : State) (hk : Kept qt s0 s) :
    Kept qt s0 (doWardLost t s) := by
  unfold doWardLost
  repeat'
    first
    | (with_reducible first | assumption | apply kept_atT | apply kept_raiseFault | apply kept_beginTakeover)
    | (with_reducible first | apply Kept.iteR)
    | (intro _) | extract_lets | split
    | (with_reducible apply Kept.mk') <;> (try exact rfl)

theorem kept_doSpareNoAnswer {q : Bool} {s0 : State} (s : State) (hk : Kept q s0 s) :
    Kept q s0 (doSpareNoAnswer s) := by
  unfold doSpareNoAnswer
  split
  · exact Kept.ite hk (kept_wakeFrom _ _ _ _ hk)
  · exact hk

theorem kept_ackWake {qt : Bool} {s0 : State} (f : LinkFrame) (port : Nat) (s : State) (hk : Kept qt s0 s) :
    Kept qt s0 (ackWake f port s) := by
  unfold ackWake
  repeat'
    first
    | (with_reducible first | assumption | apply kept_offer | apply Kept.iteR)
    | (intro _) | extract_lets | split
    | (with_reducible apply Kept.mk') <;> (try exact rfl)

theorem kept_keepNonce {q : Bool} {s0 : State} (n : Nat) (s : State) (hk : Kept q s0 s) : Kept q s0 (keepNonce n s) := by
  unfold keepNonce
  extract_lets l
  have hb := drop_bound l 64
  generalize List.drop (l.length - 64) l = l' at hb
  exact Kept.mk2 hk id (fun x => ⟨x.1, x.2.1, x.2.2.1, hb⟩) rfl (fun _ => ⟨rfl, rfl, rfl, rfl, rfl, rfl⟩)

theorem kept_rejectWake {qt : Bool} {s0 : State} (s : State) (hk : Kept qt s0 s) :
    Kept qt s0 (rejectWake s) := by
  unfold rejectWake
  repeat'
    first
    | (with_reducible first | assumption | apply kept_bump | apply Kept.iteR)
    | (intro _) | extract_lets | split
    | (with_reducible apply Kept.mk') <;> (try exact rfl)

theorem kept_doWake {qt : Bool} {s0 : State} (f : LinkFrame) (port : Nat) (s : State) (hk : Kept qt s0 s) :
    Kept qt s0 (doWake f port s) := by
  unfold doWake
  repeat'
    first
    | (with_reducible first | assumption | apply kept_rejectWake | apply kept_ackWake | apply kept_keepNonce)
    | (with_reducible first | apply kept_leaveSpare | apply kept_setO | apply kept_bump | apply Kept.iteR)
    | (intro _) | extract_lets | split
    | (with_reducible apply Kept.mk') <;> (try exact rfl)

theorem kept_dropTentative {qt : Bool} {s0 : State} (s : State) (hk : Kept qt s0 s) :
    Kept qt s0 (dropTentative s) := by
  unfold dropTentative
  repeat'
    first
    | (with_reducible first | assumption | apply kept_rollbackCtx | apply Kept.iteR | apply Kept.fold)
    | (with_reducible first | apply Kept.fold2 | apply Kept.fold1 | apply Kept.iteR2)
    | (intro _) | extract_lets | split
    | (with_reducible apply Kept.mk') <;> (try exact rfl)

theorem kept_restoreWrite {qt : Bool} {s0 : State} (e : Nat × Bytes) (s : State) (hk : Kept qt s0 s) :
    Kept qt s0 (restoreWrite e s) := by
  unfold restoreWrite
  repeat'
    first
    | (with_reducible first | assumption | apply kept_applyNow | apply Kept.iteR | apply Kept.iteR2)
    | (intro _) | extract_lets | split
    | (with_reducible apply Kept.mk') <;> (try exact rfl)

theorem kept_doMirrorCopied {qt : Bool} {s0 : State} (s : State) (hk : Kept qt s0 s) :
    Kept qt s0 (doMirrorCopied s) := by
  unfold doMirrorCopied
  repeat'
    first
    | (with_reducible first | assumption | apply kept_restoreWrite | apply kept_dropTentative | apply Kept.iteR)
    | (with_reducible first | apply Kept.fold | apply Kept.fold2 | apply Kept.fold1 | apply Kept.iteR2)
    | (intro _) | extract_lets | split
    | (with_reducible apply Kept.mk') <;> (try exact rfl)

theorem kept_sendSync {qt : Bool} {s0 : State} (chip vc : Nat) (s : State) (hk : Kept qt s0 s) :
    Kept qt s0 (sendSync chip vc s) := by
  unfold sendSync
  repeat'
    first
    | (with_reducible first | assumption | apply kept_routeFrame | apply Kept.iteR)
    | (intro _) | extract_lets | split
    | (with_reducible apply Kept.mk') <;> (try exact rfl)

theorem kept_sendRoutes {qt : Bool} {s0 : State} (routes : Bytes) (id : Nat) (s : State) (hk : Kept qt s0 s) :
    Kept qt s0 (sendRoutes routes id s) := by
  unfold sendRoutes
  repeat'
    first
    | (with_reducible first | assumption | apply kept_sendDict | apply Kept.iteR | apply Kept.fold | apply Kept.fold2)
    | (with_reducible first | apply Kept.fold1)
    | (intro _) | extract_lets | split
    | (with_reducible apply Kept.mk') <;> (try exact rfl)

theorem kept_doIdentity {qt : Bool} {s0 : State} (s : State) (hk : Kept qt s0 s) :
    Kept qt s0 (doIdentity s) := by
  unfold doIdentity
  repeat'
    first
    | (with_reducible first | assumption | apply kept_applyNow | apply kept_sendRoutes | apply kept_sendSync)
    | (with_reducible first | apply kept_setO | apply Kept.iteR | apply Kept.fold | apply Kept.fold2)
    | (with_reducible first | apply Kept.fold1)
    | (intro _) | extract_lets | split
    | (with_reducible apply Kept.mk') <;> (try exact rfl)

theorem kept_releaseAgain {qt : Bool} {s0 : State} (x : PayloadItem) (s : State) (hk : Kept qt s0 s) :
    Kept qt s0 (releaseAgain x s) := by
  unfold releaseAgain
  repeat'
    first
    | (with_reducible first | assumption | apply kept_cplPut | apply kept_noticeTo | apply Kept.iteR)
    | (intro _) | extract_lets | split
    | (with_reducible apply Kept.mk') <;> (try exact rfl)

theorem kept_placePieces {qt : Bool} {s0 : State} (m : ReplayImage) (s : State) (hk : Kept qt s0 s) :
    Kept qt s0 (placePieces m s) := by
  unfold placePieces
  repeat'
    first
    | (with_reducible first | assumption | apply kept_tenantWrite | apply Kept.iteR | apply Kept.fold)
    | (with_reducible first | apply Kept.fold2 | apply Kept.fold1 | apply Kept.iteR2)
    | (intro _) | extract_lets | split
    | (with_reducible apply Kept.mk') <;> (try exact rfl)

theorem kept_clearPieces {qt : Bool} {s0 : State} (m : ReplayImage) (s : State) (hk : Kept qt s0 s) :
    Kept qt s0 (clearPieces m s) := by
  unfold clearPieces
  repeat'
    first
    | (with_reducible first | assumption | apply kept_tenantWrite | apply Kept.iteR | apply Kept.fold)
    | (with_reducible first | apply Kept.fold2 | apply Kept.fold1 | apply Kept.iteR2)
    | (intro _) | extract_lets | split
    | (with_reducible apply Kept.mk') <;> (try exact rfl)

theorem kept_admitReplay {qt : Bool} {s0 : State} (m : ReplayImage) (s : State) (hk : Kept qt s0 s) :
    Kept qt s0 (admitReplay m s) := by
  unfold admitReplay
  repeat'
    first
    | (with_reducible first | assumption | apply kept_placePieces | apply kept_raiseFault | apply kept_admitTick)
    | (with_reducible first | apply kept_takeAdmitted | apply Kept.iteR)
    | (intro _) | extract_lets | split
    | (with_reducible apply Kept.mk') <;> (try exact rfl)

theorem kept_divergeStep {qt : Bool} {s0 : State} (s : State) (hk : Kept qt s0 s) :
    Kept qt s0 (divergeStep s) := by
  unfold divergeStep
  repeat'
    first
    | (with_reducible first | assumption | apply kept_raiseFault | apply Kept.iteR)
    | (intro _) | extract_lets | split
    | (with_reducible apply Kept.mk') <;> (try exact rfl)

theorem kept_replayBoundary {q : Bool} {s0 : State} (s : State) (hk : Kept q s0 s) : Kept q s0 (replayBoundary s) := by
  unfold replayBoundary
  refine Kept.ite hk ?_
  extract_lets m _ _ _ s1 s2 s3 _ s4
  have h1 : Kept q s0 s1 := Kept.mk2 hk id (fun x => ⟨x.1, Nat.zero_le _, x.2.2.1, x.2.2.2⟩) rfl
    (fun _ => ⟨rfl, rfl, rfl, rfl, rfl, rfl⟩)
  clear_value s1
  have h2 : Kept q s0 s2 := Kept.fold (fun x v hv => kept_releaseAgain _ _ hv) h1
  clear_value s2
  have h3 : Kept q s0 s3 := Kept.fold (fun x v hv => kept_cplPublish _ _ hv) h2
  clear_value s3
  have h4 : Kept q s0 s4 := Kept.fold (fun x v hv => kept_admitReplay _ _ hv) (Kept.mk' h3)
  exact kept_setO _ _ _ h4

theorem kept_doTakeoverComplete {qt : Bool} {s0 : State} (s : State) (hk : Kept qt s0 s) :
    Kept qt s0 (doTakeoverComplete s) := by
  unfold doTakeoverComplete
  repeat'
    first
    | (with_reducible first | assumption | apply kept_applyNow | apply kept_draw | apply kept_addEntry)
    | (with_reducible first | apply kept_clearPieces | apply kept_setO | apply kept_bump | apply Kept.iteR)
    | (with_reducible first | apply Kept.fold | apply Kept.fold2 | apply Kept.fold1 | apply Kept.iteR2)
    | (intro _) | extract_lets | split
    | (with_reducible apply Kept.mk') <;> (try exact rfl)

end Sys2Proof.Machine
end

