-- ==== Sys2Proof/Laws/KeptAccess.lean ====
section
/-! SUPPORT. What the operations of the dictionary, of Puerelm and of the ward links keep. -/

namespace Sys2Proof.Machine

open Sys2Proof

set_option linter.unusedTactic false
set_option linter.unreachableTactic false

/-! ### Machine/Dict.lean -/

theorem kept_storeWrite {s0 : State} (a : Access) (key : Nat) (v : Bytes) (s : State) (hk : Kept false s0 s) :
    Kept false s0 (storeWrite a key v s).2 := by
  unfold storeWrite
  repeat'
    first
    | (with_reducible first | assumption | apply kept_nextTick | apply kept_makePending | apply kept_noteConfig)
    | (with_reducible first | apply kept_bump | apply kept_applyNow | apply Kept.iteR | apply Kept.iteR2)
    | (intro _) | extract_lets | split | (rename_i e; have e := congrArg Prod.snd e; dsimp only at e; subst e)
    | (with_reducible apply Kept.mk') <;> (try exact rfl)

theorem kept_plainWrite {s0 : State} (a : Access) (key : Nat) (v : Bytes) (s : State) (hk : Kept false s0 s) :
    Kept false s0 (plainWrite a key v s).2 := by
  unfold plainWrite
  repeat'
    first
    | (with_reducible first | assumption | apply kept_withoutOwn | apply kept_storeWrite | apply Kept.iteR)
    | (with_reducible first | apply Kept.iteR2)
    | (intro _) | extract_lets | split | (rename_i e; have e := congrArg Prod.snd e; dsimp only at e; subst e)
    | (with_reducible apply Kept.mk') <;> (try exact rfl)

theorem kept_writeTenant {s0 : State} (a : Access) (n sub' : Nat) (v : Bytes) (s : State) (hk : Kept false s0 s) :
    Kept false s0 (writeTenant a n sub' v s).2 := by
  unfold writeTenant
  repeat'
    first
    | (with_reducible first | assumption | apply kept_doRingResume | apply kept_doTenantReset | apply kept_doMemPages)
    | (with_reducible first | apply kept_plainWrite | apply Kept.iteR | apply Kept.iteR2)
    | (intro _) | extract_lets | split
    | (with_reducible apply Kept.mk') <;> (try exact rfl)

theorem kept_writeStore {s0 : State} (a : Access) (idx sub' : Nat) (v : Bytes) (s : State) (hk : Kept false s0 s) :
    Kept false s0 (writeStore a idx sub' v s).2 := by
  unfold writeStore
  repeat'
    first
    | (with_reducible first | assumption | apply kept_doCastOpen | apply kept_doStagingHead | apply kept_doCastAbort)
    | (with_reducible first | apply kept_doCastAdopt | apply kept_doCastDelete | apply kept_doVariantLoad)
    | (with_reducible first | apply kept_doVariantAbort | apply kept_doVariantDelete | apply kept_doMapOutWrite)
    | (with_reducible first | apply kept_plainWrite | apply Kept.iteR | apply Kept.iteR2)
    | (intro _) | extract_lets | split | (rename_i e; have e := congrArg Prod.snd e; dsimp only at e; subst e)
    | (with_reducible apply Kept.mk') <;> (try exact rfl)

theorem kept_writeSecurity {s0 : State} (a : Access) (idx sub' : Nat) (v : Bytes) (s : State) (hk : Kept false s0 s) :
    Kept false s0 (writeSecurity a idx sub' v s).2 := by
  unfold writeSecurity
  repeat'
    first
    | (with_reducible first | assumption | apply kept_doFirmwareStage | apply kept_doRollbackCommit)
    | (with_reducible first | apply kept_doKeyAuthorise | apply kept_doKeyRevoke | apply kept_doAttestNonce)
    | (with_reducible first | apply kept_doShareGrant | apply kept_doShareRevoke | apply kept_plainWrite)
    | (with_reducible first | apply Kept.iteR | apply Kept.iteR2)
    | (intro _) | extract_lets | split | (rename_i e; have e := congrArg Prod.snd e; dsimp only at e; subst e)
    | (with_reducible apply Kept.mk') <;> (try exact rfl)

theorem kept_writeEngineReset {qt : Bool} {s0 : State} (a : Access) (v : Bytes) (s : State) (hk : Kept qt s0 s) :
    Kept qt s0 (writeEngineReset a v s).2 := by
  unfold writeEngineReset
  repeat'
    first
    | (with_reducible first | assumption | apply kept_draw | apply kept_doEngineReset | apply Kept.iteR)
    | (with_reducible first | apply Kept.iteR2)
    | (intro _) | extract_lets | split
    | (with_reducible apply Kept.mk') <;> (try exact rfl)

theorem kept_writeOther {s0 : State} (a : Access) (idx sub' : Nat) (v : Bytes) (s : State) (hk : Kept false s0 s) :
    Kept false s0 (writeOther a idx sub' v s).2 := by
  unfold writeOther
  repeat'
    first
    | (with_reducible first | assumption | apply kept_doTickPeriod | apply kept_doRegridNo)
    | (with_reducible first | apply kept_doRestoreDefaults | apply kept_doServeEnable | apply kept_doChipReset)
    | (with_reducible first | apply kept_writeEngineReset | apply kept_doChipIdWrite | apply kept_doTakeoverWrite)
    | (with_reducible first | apply kept_doHandOverWrite | apply kept_doChipStateRequest | apply kept_doStatsRequest)
    | (with_reducible first | apply kept_ctxMod | apply kept_plainWrite | apply Kept.iteR | apply Kept.iteR2)
    | (intro _) | extract_lets | split | (rename_i e; have e := congrArg Prod.snd e; dsimp only at e; subst e)
    | (with_reducible apply Kept.mk') <;> (try exact rfl)

theorem kept_routeWrite {s0 : State} (a : Access) (key : Nat) (v : Bytes) (s : State) (hk : Kept false s0 s) :
    Kept false s0 (routeWrite a key v s).2 := by
  unfold routeWrite
  repeat'
    first
    | (with_reducible first | assumption | apply kept_writeTenant | apply kept_writeStore | apply kept_writeSecurity)
    | (with_reducible first | apply kept_writeOther | apply Kept.iteR | apply Kept.iteR2)
    | (intro _) | extract_lets | split
    | (with_reducible apply Kept.mk') <;> (try exact rfl)

theorem kept_writeObject {s0 : State} (a : Access) (key : Nat) (v : Bytes) (s : State) (hk : Kept false s0 s) :
    Kept false s0 (writeObject a key v s).2 := by
  unfold writeObject
  repeat'
    first
    | (with_reducible first | assumption | apply kept_doOwnerInstall | apply kept_doPortReset | apply kept_routeWrite)
    | (with_reducible first | apply kept_nvAnswer | apply Kept.iteR | apply Kept.iteR2)
    | (intro _) | extract_lets | split | (rename_i e; have e := congrArg Prod.snd e; dsimp only at e; subst e)
    | (with_reducible apply Kept.mk') <;> (try exact rfl)

theorem kept_doDictWrite {s0 : State} (a : Access) (idx sub' : Nat) (v : Bytes) (s : State) (hk : Kept false s0 s) :
    Kept false s0 (doDictWrite a idx sub' v s) := by
  unfold doDictWrite
  repeat'
    first
    | (with_reducible first | assumption | apply kept_answerWrite | apply kept_writeObject | apply Kept.iteR)
    | (intro _) | extract_lets | split | (rename_i e; have e := congrArg Prod.snd e; dsimp only at e; subst e)
    | (with_reducible apply Kept.mk') <;> (try exact rfl)

theorem kept_readObject {qt : Bool} {s0 : State} (a : Access) (key : Nat) (pend : Bool) (s : State) (hk : Kept qt s0 s) :
    Kept qt s0 (readObject a key pend s).2 := by
  unfold readObject
  repeat'
    first
    | (with_reducible first | assumption | apply kept_bump | apply Kept.iteR | apply Kept.iteR2)
    | (intro _) | extract_lets | split
    | (with_reducible apply Kept.mk') <;> (try exact rfl)

theorem kept_applyTenant {qt : Bool} {s0 : State} (n sub' : Nat) (v : Bytes) (s : State) (hk : Kept qt s0 s) :
    Kept qt s0 (applyTenant n sub' v s) := by
  unfold applyTenant
  repeat'
    first
    | (with_reducible first | assumption | apply kept_resumeRings | apply kept_setMemPages | apply kept_putValue)
    | (with_reducible first | apply Kept.iteR)
    | (intro _) | extract_lets | split
    | (with_reducible apply Kept.mk') <;> (try exact rfl)

theorem kept_applyValue {qt : Bool} {s0 : State} (key : Nat) (v : Bytes) (s : State) (hk : Kept qt s0 s) :
    Kept qt s0 (applyValue key v s) := by
  unfold applyValue
  repeat'
    first
    | (with_reducible first | assumption | apply kept_applyTenant | apply kept_bump | apply kept_putGrant)
    | (with_reducible first | apply kept_dropGrant | apply kept_resetEntry | apply kept_putValue | apply Kept.iteR)
    | (intro _) | extract_lets | split
    | (with_reducible apply Kept.mk') <;> (try exact rfl)

theorem kept_applyPending {q : Bool} {s0 : State} (x : Nat × State) (p : Pending) (hk : Kept q s0 x.2) :
    Kept q s0 (applyPending x p).2 := by
  unfold applyPending
  extract_lets s code s1 s2
  have h1 : Kept q s0 s1 := kept_addEntry _ _ hk
  have h2 : Kept q s0 s2 := kept_applyValue _ _ _ h1
  clear_value s2
  exact Kept.ite2 (kept_bump _ _ h1) (Kept.ite (Kept.mk' h2) h2)

theorem kept_applyWrites {q : Bool} {s0 : State} (s : State) (hk : Kept q s0 s) : Kept q s0 (applyWrites s) := by
  unfold applyWrites
  extract_lets due rest _ s1
  have h1 : Kept q s0 s1 := Kept.fold2 (fun p v hv => kept_applyPending _ _ hv) (Kept.mk' hk)
  clear_value s1
  exact Kept.mk' h1

theorem kept_recordSwitch {qt : Bool} {s0 : State} (s : State) (x : Nat × Nat) (hk : Kept qt s0 s) :
    Kept qt s0 (recordSwitch s x) := by
  unfold recordSwitch
  repeat'
    first
    | (with_reducible first | assumption | apply kept_recFlag | apply kept_addEntry | apply Kept.iteR)
    | (with_reducible first | apply Kept.iteR2)
    | (intro _) | extract_lets | split
    | (with_reducible apply Kept.mk') <;> (try exact rfl)

theorem kept_retireVar {qt : Bool} {s0 : State} (s : State) (x : Nat × Nat) (hk : Kept qt s0 s) :
    Kept qt s0 (retireVar s x) := by
  unfold retireVar
  repeat'
    first
    | (with_reducible first | assumption | apply kept_varMod | apply Kept.iteR | apply Kept.iteR2)
    | (intro _) | extract_lets | split
    | (with_reducible apply Kept.mk') <;> (try exact rfl)

theorem kept_switchPointers {qt : Bool} {s0 : State} (l : List (Nat × Nat)) (s : State) (hk : Kept qt s0 s) :
    Kept qt s0 (switchPointers l s) := by
  unfold switchPointers
  repeat'
    first
    | (with_reducible first | assumption | apply kept_retireVar | apply kept_recordSwitch | apply Kept.iteR)
    | (with_reducible first | apply Kept.fold | apply Kept.fold2 | apply Kept.fold1)
    | (intro _) | extract_lets | split
    | (with_reducible apply Kept.mk') <;> (try exact rfl)

/-! ### Machine/Puerelm.lean -/

theorem kept_sessMod {qt : Bool} {s0 : State} (id : Nat) (f : Session → Session) (s : State) (hk : Kept qt s0 s) :
    Kept qt s0 (sessMod id f s) := by
  unfold sessMod
  repeat'
    first
    | (with_reducible first | assumption | apply Kept.iteR)
    | (intro _) | extract_lets | split
    | (with_reducible apply Kept.mk') <;> (try exact rfl)

theorem kept_dropMsg {qt : Bool} {s0 : State} (s : State) (hk : Kept qt s0 s) :
    Kept qt s0 (dropMsg s) := by
  unfold dropMsg
  repeat'
    first
    | (with_reducible first | assumption | apply kept_bump | apply Kept.iteR)
    | (intro _) | extract_lets | split
    | (with_reducible apply Kept.mk') <;> (try exact rfl)

theorem kept_refuse {qt : Bool} {s0 : State} (mgPort session requestId code : Nat) (s : State) (hk : Kept qt s0 s) :
    Kept qt s0 (refuse mgPort session requestId code s) := by
  unfold refuse
  repeat'
    first
    | (with_reducible first | assumption | apply kept_emit | apply kept_answer | apply Kept.iteR)
    | (intro _) | extract_lets | split
    | (with_reducible apply Kept.mk') <;> (try exact rfl)

theorem kept_doHello {qt : Bool} {s0 : State} (clientKey clientNonce ephemeral : Bytes) (requestId mgPort t : Nat) (s : State) (hk : Kept qt s0 s) :
    Kept qt s0 (doHello clientKey clientNonce ephemeral requestId mgPort t s) := by
  unfold doHello
  repeat'
    first
    | (with_reducible first | assumption | apply kept_atT | apply kept_dropMsg | apply kept_refuse)
    | (with_reducible first | apply kept_drawBytes | apply kept_draw | apply kept_emit | apply Kept.iteR)
    | (with_reducible first | apply Kept.iteR2)
    | (intro _) | extract_lets | split
    | (with_reducible apply Kept.mk') <;> (try exact rfl)

theorem kept_failSession {qt : Bool} {s0 : State} (id requestId mgPort : Nat) (s : State) (hk : Kept qt s0 s) :
    Kept qt s0 (failSession id requestId mgPort s) := by
  unfold failSession
  repeat'
    first
    | (with_reducible first | assumption | apply kept_refuse | apply kept_closeSession | apply kept_bump)
    | (with_reducible first | apply Kept.iteR)
    | (intro _) | extract_lets | split
    | (with_reducible apply Kept.mk') <;> (try exact rfl)

theorem kept_doProof {qt : Bool} {s0 : State} (id requestId : Nat) (sig : Bytes) (mgPort t : Nat) (s : State) (hk : Kept qt s0 s) :
    Kept qt s0 (doProof id requestId sig mgPort t s) := by
  unfold doProof
  repeat'
    first
    | (with_reducible first | assumption | apply kept_atT | apply kept_dropMsg | apply kept_failSession)
    | (with_reducible first | apply kept_sessMod | apply kept_emit | apply Kept.iteR)
    | (intro _) | extract_lets | split
    | (with_reducible apply Kept.mk') <;> (try exact rfl)

theorem kept_doProofTimeout {qt : Bool} {s0 : State} (id : Nat) (s : State) (hk : Kept qt s0 s) :
    Kept qt s0 (doProofTimeout id s) := by
  unfold doProofTimeout
  repeat'
    first
    | (with_reducible first | assumption | apply kept_closeSession | apply kept_bump | apply Kept.iteR)
    | (intro _) | extract_lets | split
    | (with_reducible apply Kept.mk') <;> (try exact rfl)

theorem kept_abort {qt : Bool} {s0 : State} (code : Nat) (s : State) (hk : Kept qt s0 s) :
    Kept qt s0 (abort code s).2 := by
  unfold abort
  repeat'
    first
    | (with_reducible first | assumption | apply kept_answer | apply Kept.iteR | apply Kept.iteR2)
    | (intro _) | extract_lets | split
    | (with_reducible apply Kept.mk') <;> (try exact rfl)

theorem kept_wrote {s0 : State} (a : Access) (key : Nat) (v : Bytes) (s : State) (hk : Kept false s0 s) :
    Kept false s0 (wrote a key v s).2 := by
  unfold wrote
  repeat'
    first
    | (with_reducible first | assumption | apply kept_writeObject | apply kept_answerWrite | apply Kept.iteR)
    | (with_reducible first | apply Kept.iteR2)
    | (intro _) | extract_lets | split
    | (with_reducible apply Kept.mk') <;> (try exact rfl)

theorem kept_dropXfer {qt : Bool} {s0 : State} (ctx : AccessCtx) (s : State) (hk : Kept qt s0 s) :
    Kept qt s0 (dropXfer ctx s) := by
  unfold dropXfer
  repeat'
    first
    | (with_reducible first | assumption | apply kept_ctxMod | apply Kept.iteR)
    | (intro _) | extract_lets | split
    | (with_reducible apply Kept.mk') <;> (try exact rfl)

theorem kept_writeSegment {s0 : State} (a : Access) (key off total : Nat) (d : Bytes) (s : State) (hk : Kept false s0 s) :
    Kept false s0 (writeSegment a key off total d s).2 := by
  unfold writeSegment
  repeat'
    first
    | (with_reducible first | assumption | apply kept_abort | apply kept_ctxMod | apply kept_dropXfer)
    | (with_reducible first | apply kept_wrote | apply Kept.iteR | apply Kept.iteR2)
    | (intro _) | extract_lets | split | (rename_i e; have e := congrArg Prod.snd e; dsimp only at e; subst e)
    | (with_reducible apply Kept.mk') <;> (try exact rfl)

theorem kept_writeReq {s0 : State} (a : Access) (key off total : Nat) (d : Bytes) (s : State) (hk : Kept false s0 s) :
    Kept false s0 (writeReq a key off total d s).2 := by
  unfold writeReq
  repeat'
    first
    | (with_reducible first | assumption | apply kept_wrote | apply kept_writeSegment | apply Kept.iteR)
    | (with_reducible first | apply Kept.iteR2)
    | (intro _) | extract_lets | split
    | (with_reducible apply Kept.mk') <;> (try exact rfl)

theorem kept_readReq {q : Bool} {s0 : State} (a : Access) (key off : Nat) (pend : Bool) (s : State) (hk : Kept q s0 s) :
    Kept q s0 (readReq a key off pend s).2 := by
  unfold readReq
  refine Kept.ite2 ?_ ?_
  · have hr := kept_readObject a key pend s hk
    split <;> rename_i e <;> rw [e] at hr
    · exact kept_abort _ _ hr
    · exact Kept.ite (kept_answer _ _ hr) (kept_ctxMod _ _ _ (kept_answer _ _ hr))
  · split
    · refine Kept.ite2 (kept_abort _ _ hk) ?_
      have h1 : Kept q s0 (answer abOk (bump s oDictReadCount)) := kept_answer _ _ (kept_bump _ _ hk)
      exact h1
    · exact kept_abort _ _ hk

theorem kept_describeReq {qt : Bool} {s0 : State} (a : Access) (key : Nat) (s : State) (hk : Kept qt s0 s) :
    Kept qt s0 (describeReq a key s).2 := by
  unfold describeReq
  repeat'
    first
    | (with_reducible first | assumption | apply kept_abort | apply kept_answer | apply Kept.iteR | apply Kept.iteR2)
    | (intro _) | extract_lets | split | (rename_i e; have e := congrArg Prod.snd e; dsimp only at e; subst e)
    | (with_reducible apply Kept.mk') <;> (try exact rfl)

theorem kept_dictRequest {s0 : State} (a : Access) (type : Nat) (b : Bytes) (s : State) (hk : Kept false s0 s) :
    Kept false s0 (dictRequest a type b s).2 := by
  unfold dictRequest
  repeat'
    first
    | (with_reducible first | assumption | apply kept_abort | apply kept_readReq | apply kept_writeReq)
    | (with_reducible first | apply kept_describeReq | apply Kept.iteR | apply Kept.iteR2)
    | (intro _) | extract_lets | split | (rename_i e; have e := congrArg Prod.snd e; dsimp only at e; subst e)
    | (with_reducible apply Kept.mk') <;> (try exact rfl)

theorem kept_respond {qt : Bool} {s0 : State} (x : Session) (m : ClientMsg) (body : Bytes) (s : State) (hk : Kept qt s0 s) :
    Kept qt s0 (respond x m body s) := by
  unfold respond
  repeat'
    first
    | (with_reducible first | assumption | apply kept_sessMod | apply kept_emit | apply Kept.iteR)
    | (intro _) | extract_lets | split
    | (with_reducible apply Kept.mk') <;> (try exact rfl)

theorem kept_respondAgain {qt : Bool} {s0 : State} (x : Session) (m : ClientMsg) (body : Bytes) (s : State) (hk : Kept qt s0 s) :
    Kept qt s0 (respondAgain x m body s) := by
  unfold respondAgain
  repeat'
    first
    | (with_reducible first | assumption | apply kept_sessMod | apply kept_bump | apply kept_emit | apply Kept.iteR)
    | (intro _) | extract_lets | split
    | (with_reducible apply Kept.mk') <;> (try exact rfl)

theorem kept_request {q : Bool} {s0 : State} (type : Nat) (m : ClientMsg) (f : Access → State → Bytes × State) (s : State)
    (hf : ∀ a v, Kept q s0 v → Kept q s0 (f a v).2) (hk : Kept q s0 s) : Kept q s0 (request type m f s) := by
  unfold request
  refine Kept.ite hk ?_
  have h1 : Kept q s0 (atT m.time s) := kept_atT _ _ hk
  dsimp only
  split
  · exact kept_dropMsg _ h1
  · split
    · exact kept_respondAgain _ _ _ _ (kept_sessMod _ _ _ h1)
    · exact kept_respond _ _ _ _ (hf _ _ (kept_sessMod _ _ _ h1))

theorem kept_doClose {qt : Bool} {s0 : State} (m : ClientMsg) (s : State) (hk : Kept qt s0 s) :
    Kept qt s0 (doClose m s) := by
  unfold doClose
  repeat'
    first
    | (with_reducible first | assumption | apply kept_atT | apply kept_dropMsg | apply kept_closeSession)
    | (with_reducible first | apply Kept.iteR)
    | (intro _) | extract_lets | split
    | (with_reducible apply Kept.mk') <;> (try exact rfl)

theorem kept_doSessionIdle {qt : Bool} {s0 : State} (id : Nat) (s : State) (hk : Kept qt s0 s) :
    Kept qt s0 (doSessionIdle id s) := by
  unfold doSessionIdle
  repeat'
    first
    | (with_reducible first | assumption | apply kept_closeSession | apply Kept.iteR)
    | (intro _) | extract_lets | split
    | (with_reducible apply Kept.mk') <;> (try exact rfl)

theorem kept_doTransferTimeout {qt : Bool} {s0 : State} (id : Nat) (s : State) (hk : Kept qt s0 s) :
    Kept qt s0 (doTransferTimeout id s) := by
  unfold doTransferTimeout
  repeat'
    first
    | (with_reducible first | assumption | apply kept_answer | apply kept_dropXfer | apply Kept.iteR)
    | (intro _) | extract_lets | split
    | (with_reducible apply Kept.mk') <;> (try exact rfl)

theorem kept_doMailbox {s0 : State} (h type : Nat) (body : Bytes) (nvFails : Bool) (s : State) (hk : Kept false s0 s) :
    Kept false s0 (doMailbox h type body nvFails s) := by
  unfold doMailbox
  repeat'
    first
    | (with_reducible first | assumption | apply kept_dictRequest | apply Kept.iteR | apply Kept.iteR2)
    | (intro _) | extract_lets | split
    | (with_reducible apply Kept.mk') <;> (try exact rfl)

/-! ### Machine/Links.lean -/

theorem kept_badLane {qt : Bool} {s0 : State} (n lane : Nat) (s : State) (hk : Kept qt s0 s) :
    Kept qt s0 (badLane n lane s) := by
  unfold badLane
  repeat'
    first
    | (with_reducible first | assumption | apply kept_laneDrop | apply kept_portMod | apply Kept.iteR)
    | (with_reducible first | apply Kept.iteR2)
    | (intro _) | extract_lets | split
    | (with_reducible apply Kept.mk') <;> (try exact rfl)

theorem kept_doLaneBad {qt : Bool} {s0 : State} (n lane : Nat) (cause : LaneCause) (at' : Nat) (s : State) (hk : Kept qt s0 s) :
    Kept qt s0 (doLaneBad n lane cause at' s) := by
  unfold doLaneBad
  repeat'
    first
    | (with_reducible first | assumption | apply kept_badLane | apply kept_atT | apply Kept.iteR)
    | (intro _) | extract_lets | split
    | (with_reducible apply Kept.mk') <;> (try exact rfl)

theorem kept_resendFrom {qt : Bool} {s0 : State} (n i : Nat) (s : State) (hk : Kept qt s0 s) :
    Kept qt s0 (resendFrom n i s) := by
  unfold resendFrom
  repeat'
    first
    | (with_reducible first | assumption | apply kept_portMod | apply kept_emit | apply kept_linkBump)
    | (with_reducible first | apply Kept.iteR | apply Kept.fold | apply Kept.fold2 | apply Kept.fold1)
    | (with_reducible first | apply Kept.iteR2)
    | (intro _) | extract_lets | split
    | (with_reducible apply Kept.mk') <;> (try exact rfl)

theorem kept_resendLimit {q : Bool} {s0 : State} (n : Nat) (s : State) (hk : Kept q s0 s) :
    Kept q s0 (resendLimit n s) := by
  unfold resendLimit
  have hd : Kept q s0 (draw s).2 := kept_draw _ hk
  refine Kept.ite ?_ hk
  dsimp only
  split
  · exact hd
  · exact kept_badLane _ _ _ hd

theorem kept_goBack {qt : Bool} {s0 : State} (n i : Nat) (s : State) (hk : Kept qt s0 s) :
    Kept qt s0 (goBack n i s) := by
  unfold goBack
  repeat'
    first
    | (with_reducible first | assumption | apply kept_resendLimit | apply kept_resendFrom | apply Kept.iteR)
    | (intro _) | extract_lets | split
    | (with_reducible apply Kept.mk') <;> (try exact rfl)

theorem kept_freeReplay {qt : Bool} {s0 : State} (n ack : Nat) (s : State) (hk : Kept qt s0 s) :
    Kept qt s0 (freeReplay n ack s) := by
  unfold freeReplay
  repeat'
    first
    | (with_reducible first | assumption | apply kept_portMod | apply Kept.iteR | apply Kept.iteR2)
    | (intro _) | extract_lets | split
    | (with_reducible apply Kept.mk') <;> (try exact rfl)

theorem kept_giveCredit {qt : Bool} {s0 : State} (n vc bursts : Nat) (s : State) (hk : Kept qt s0 s) :
    Kept qt s0 (giveCredit n vc bursts s) := by
  unfold giveCredit
  repeat'
    first
    | (with_reducible first | assumption | apply kept_portMod | apply Kept.iteR)
    | (intro _) | extract_lets | split
    | (with_reducible apply Kept.mk') <;> (try exact rfl)

theorem kept_drainAll {qt : Bool} {s0 : State} (n : Nat) (s : State) (hk : Kept qt s0 s) :
    Kept qt s0 (drainAll n s) := by
  unfold drainAll
  repeat'
    first
    | (with_reducible first | assumption | apply kept_drainPort | apply Kept.iteR)
    | (intro _) | extract_lets | split
    | (with_reducible apply Kept.mk') <;> (try exact rfl)

theorem kept_doAck {qt : Bool} {s0 : State} (n ack vc bursts : Nat) (s : State) (hk : Kept qt s0 s) :
    Kept qt s0 (doAck n ack vc bursts s) := by
  unfold doAck
  repeat'
    first
    | (with_reducible first | assumption | apply kept_drainAll | apply kept_giveCredit | apply kept_freeReplay)
    | (with_reducible first | apply Kept.iteR)
    | (intro _) | extract_lets | split
    | (with_reducible apply Kept.mk') <;> (try exact rfl)

theorem kept_doNak {qt : Bool} {s0 : State} (n ack : Nat) (s : State) (hk : Kept qt s0 s) :
    Kept qt s0 (doNak n ack s) := by
  unfold doNak
  repeat'
    first
    | (with_reducible first | assumption | apply kept_drainAll | apply kept_goBack | apply kept_freeReplay)
    | (with_reducible first | apply Kept.iteR)
    | (intro _) | extract_lets | split
    | (with_reducible apply Kept.mk') <;> (try exact rfl)

theorem kept_doHopTimeout {qt : Bool} {s0 : State} (n : Nat) (s : State) (hk : Kept qt s0 s) :
    Kept qt s0 (doHopTimeout n s) := by
  unfold doHopTimeout
  repeat'
    first
    | (with_reducible first | assumption | apply kept_goBack | apply Kept.iteR)
    | (intro _) | extract_lets | split
    | (with_reducible apply Kept.mk') <;> (try exact rfl)

theorem kept_doAckTimer {qt : Bool} {s0 : State} (n : Nat) (s : State) (hk : Kept qt s0 s) :
    Kept qt s0 (doAckTimer n s) := by
  unfold doAckTimer
  repeat'
    first
    | (with_reducible first | assumption | apply kept_offer | apply Kept.iteR)
    | (intro _) | extract_lets | split
    | (with_reducible apply Kept.mk') <;> (try exact rfl)

theorem kept_doRetrainComplete {qt : Bool} {s0 : State} (n : Nat) (s : State) (hk : Kept qt s0 s) :
    Kept qt s0 (doRetrainComplete n s) := by
  unfold doRetrainComplete
  repeat'
    first
    | (with_reducible first | assumption | apply kept_drainAll | apply kept_goBack | apply kept_portMod)
    | (with_reducible first | apply Kept.iteR | apply Kept.iteR2)
    | (intro _) | extract_lets | split
    | (with_reducible apply Kept.mk') <;> (try exact rfl)

theorem kept_resendFlow {qt : Bool} {s0 : State} (k : Nat) (s : State) (hk : Kept qt s0 s) :
    Kept qt s0 (resendFlow k s) := by
  unfold resendFlow
  repeat'
    first
    | (with_reducible first | assumption | apply kept_routeFrame | apply kept_linkBump | apply Kept.iteR)
    | (with_reducible first | apply Kept.fold | apply Kept.fold2 | apply Kept.fold1)
    | (intro _) | extract_lets | split
    | (with_reducible apply Kept.mk') <;> (try exact rfl)

theorem kept_doFlowAck {qt : Bool} {s0 : State} (src vc seq : Nat) (s : State) (hk : Kept qt s0 s) :
    Kept qt s0 (doFlowAck src vc seq s) := by
  unfold doFlowAck
  repeat'
    first
    | (with_reducible first | assumption | apply kept_txMod | apply kept_flowDrain | apply kept_mirrorFlowAck)
    | (with_reducible first | apply Kept.iteR)
    | (intro _) | extract_lets | split
    | (with_reducible apply Kept.mk') <;> (try exact rfl)

theorem kept_doFlowNak {qt : Bool} {s0 : State} (src vc seq : Nat) (s : State) (hk : Kept qt s0 s) :
    Kept qt s0 (doFlowNak src vc seq s) := by
  unfold doFlowNak
  repeat'
    first
    | (with_reducible first | assumption | apply kept_resendFlow | apply kept_doFlowAck | apply Kept.iteR)
    | (intro _) | extract_lets | split
    | (with_reducible apply Kept.mk') <;> (try exact rfl)

theorem kept_doFlowTimeout {qt : Bool} {s0 : State} (dest vc : Nat) (s : State) (hk : Kept qt s0 s) :
    Kept qt s0 (doFlowTimeout dest vc s) := by
  unfold doFlowTimeout
  repeat'
    first
    | (with_reducible first | assumption | apply kept_resendFlow | apply Kept.iteR)
    | (intro _) | extract_lets | split
    | (with_reducible apply Kept.mk') <;> (try exact rfl)

theorem kept_wardBack {qt : Bool} {s0 : State} (s : State) (hk : Kept qt s0 s) :
    Kept qt s0 (wardBack s) := by
  unfold wardBack
  repeat'
    first
    | (with_reducible first | assumption | apply kept_setO | apply Kept.iteR)
    | (intro _) | extract_lets | split
    | (with_reducible apply Kept.mk') <;> (try exact rfl)

theorem kept_doFlowSync {qt : Bool} {s0 : State} (src vc : Nat) (s : State) (hk : Kept qt s0 s) :
    Kept qt s0 (doFlowSync src vc s) := by
  unfold doFlowSync
  repeat'
    first
    | (with_reducible first | assumption | apply kept_txMod | apply kept_rxMod | apply kept_wardBack)
    | (with_reducible first | apply kept_flowDrain | apply Kept.iteR)
    | (intro _) | extract_lets | split
    | (with_reducible apply Kept.mk') <;> (try exact rfl)

theorem kept_doLate {qt : Bool} {s0 : State} (f : LinkFrame) (s : State) (hk : Kept qt s0 s) :
    Kept qt s0 (doLate f s) := by
  unfold doLate
  repeat'
    first
    | (with_reducible first | assumption | apply kept_linkBump | apply Kept.iteR)
    | (intro _) | extract_lets | split
    | (with_reducible apply Kept.mk') <;> (try exact rfl)

theorem kept_denied {qt : Bool} {s0 : State} (s : State) (hk : Kept qt s0 s) :
    Kept qt s0 (denied s) := by
  unfold denied
  repeat'
    first
    | (with_reducible first | assumption | apply kept_linkBump | apply Kept.iteR)
    | (intro _) | extract_lets | split
    | (with_reducible apply Kept.mk') <;> (try exact rfl)

theorem kept_answerDenied {qt : Bool} {s0 : State} (op : Nat) (f : LinkFrame) (s : State) (hk : Kept qt s0 s) :
    Kept qt s0 (answerDenied op f s) := by
  unfold answerDenied
  repeat'
    first
    | (with_reducible first | assumption | apply kept_flowSend | apply Kept.iteR)
    | (intro _) | extract_lets | split
    | (with_reducible apply Kept.mk') <;> (try exact rfl)

theorem kept_spaceWrite {qt : Bool} {s0 : State} (f : LinkFrame) (a : Nat) (d : Bytes) (s : State) (hk : Kept qt s0 s) :
    Kept qt s0 (spaceWrite f a d s) := by
  unfold spaceWrite
  repeat'
    first
    | (with_reducible first | assumption | apply kept_tenantWrite | apply kept_memWrite | apply Kept.iteR)
    | (intro _) | extract_lets | split
    | (with_reducible apply Kept.mk') <;> (try exact rfl)

theorem kept_doPut {qt : Bool} {s0 : State} (f : LinkFrame) (s : State) (hk : Kept qt s0 s) :
    Kept qt s0 (doPut f s) := by
  unfold doPut
  repeat'
    first
    | (with_reducible first | assumption | apply kept_spaceWrite | apply kept_denied | apply Kept.iteR)
    | (intro _) | extract_lets | split
    | (with_reducible apply Kept.mk') <;> (try exact rfl)

theorem kept_putSlots {q : Bool} {s0 : State} (f : LinkFrame) (fmt : Fmt) (k i : Nat) (d : Bytes) (s : State)
    (hk : Kept q s0 s) : Kept q s0 (putSlots f fmt k i d s) := by
  induction k generalizing i d s with
  | zero => exact hk
  | succ k ih =>
    unfold putSlots
    refine ih _ _ _ ?_
    split
    · exact Kept.ite (kept_spaceWrite _ _ _ _ hk) (kept_bump _ _ hk)
    · exact kept_bump _ _ hk

theorem kept_doSlotPut {q : Bool} {s0 : State} (f : LinkFrame) (s : State) (hk : Kept q s0 s) :
    Kept q s0 (doSlotPut f s) := by
  unfold doSlotPut
  exact Kept.ite (kept_putSlots _ _ _ _ _ _ hk) (kept_denied _ hk)

theorem kept_getBytes {qt : Bool} {s0 : State} (f : LinkFrame) (s : State) (hk : Kept qt s0 s) :
    Kept qt s0 (getBytes f s).2 := by
  unfold getBytes
  repeat'
    first
    | (with_reducible first | assumption | apply kept_memRead | apply Kept.iteR | apply Kept.iteR2)
    | (intro _) | extract_lets | split | (rename_i e; have e := congrArg Prod.snd e; dsimp only at e; subst e)
    | (with_reducible apply Kept.mk') <;> (try exact rfl)

theorem kept_doGet {qt : Bool} {s0 : State} (f : LinkFrame) (s : State) (hk : Kept qt s0 s) :
    Kept qt s0 (doGet f s) := by
  unfold doGet
  repeat'
    first
    | (with_reducible first | assumption | apply kept_answerDenied | apply kept_denied | apply kept_getBytes)
    | (with_reducible first | apply kept_sendAll | apply Kept.iteR)
    | (intro _) | extract_lets | split | (rename_i e; have e := congrArg Prod.snd e; dsimp only at e; subst e)
    | (with_reducible apply Kept.mk') <;> (try exact rfl)

theorem kept_doGetData {qt : Bool} {s0 : State} (f : LinkFrame) (s : State) (hk : Kept qt s0 s) :
    Kept qt s0 (doGetData f s) := by
  unfold doGetData
  repeat'
    first
    | (with_reducible first | assumption | apply kept_repairDenied | apply Kept.iteR)
    | (intro _) | extract_lets | split
    | (with_reducible apply Kept.mk') <;> (try exact rfl)

theorem kept_addAbove {q : Bool} {s0 : State} (f : LinkFrame) (floor k i : Nat) (s : State) (hk : Kept q s0 s) :
    Kept q s0 (addAbove f floor k i s) := by
  induction k generalizing i s with
  | zero => exact hk
  | succ k ih =>
    unfold addAbove
    refine ih _ _ (Kept.ite hk ?_)
    split
    · exact kept_atomicOp _ _ _ _ _ _ _ hk
    · exact hk

theorem kept_signal {qt : Bool} {s0 : State} (f : LinkFrame) (s : State) (hk : Kept qt s0 s) :
    Kept qt s0 (signal f s) := by
  unfold signal
  repeat'
    first
    | (with_reducible first | assumption | apply kept_atomicOp | apply Kept.iteR | apply Kept.iteR2)
    | (intro _) | extract_lets | split | (rename_i e; have e := congrArg Prod.snd e; dsimp only at e; subst e)
    | (with_reducible apply Kept.mk') <;> (try exact rfl)

theorem kept_putInst {qt : Bool} {s0 : State} (x : CollInst) (s : State) (hk : Kept qt s0 s) :
    Kept qt s0 (putInst x s) := by
  unfold putInst
  repeat'
    first
    | (with_reducible first | assumption | apply Kept.iteR)
    | (intro _) | extract_lets | split
    | (with_reducible apply Kept.mk') <;> (try exact rfl)

theorem kept_closeInst {qt : Bool} {s0 : State} (x : CollInst) (s : State) (hk : Kept qt s0 s) :
    Kept qt s0 (closeInst x s) := by
  unfold closeInst
  repeat'
    first
    | (with_reducible first | assumption | apply Kept.iteR)
    | (intro _) | extract_lets | split
    | (with_reducible apply Kept.mk') <;> (try exact rfl)

theorem kept_applyReduce {q : Bool} {s0 : State} (f : LinkFrame) (x : CollInst) (s : State) (hk : Kept q s0 s) :
    Kept q s0 (applyReduce f x s) := by
  unfold applyReduce
  extract_lets floor s1 s2
  have h1 : Kept q s0 s1 := kept_addAbove _ _ _ _ _ hk
  have h2 : Kept q s0 s2 := Kept.ite (kept_signal _ _ h1) h1
  exact Kept.ite (kept_closeInst _ _ h2) (kept_putInst _ _ h2)

theorem kept_doReduce {qt : Bool} {s0 : State} (f : LinkFrame) (s : State) (hk : Kept qt s0 s) :
    Kept qt s0 (doReduce f s) := by
  unfold doReduce
  repeat'
    first
    | (with_reducible first | assumption | apply kept_denied | apply kept_bump | apply kept_applyReduce)
    | (with_reducible first | apply Kept.iteR | apply Kept.iteR2)
    | (intro _) | extract_lets | split
    | (with_reducible apply Kept.mk') <;> (try exact rfl)

theorem kept_doCollectiveTimeout {qt : Bool} {s0 : State} (g n at' : Nat) (s : State) (hk : Kept qt s0 s) :
    Kept qt s0 (doCollectiveTimeout g n at' s) := by
  unfold doCollectiveTimeout
  repeat'
    first
    | (with_reducible first | assumption | apply kept_putInst | apply kept_raiseFault | apply kept_atT)
    | (with_reducible first | apply Kept.iteR)
    | (intro _) | extract_lets | split
    | (with_reducible apply Kept.mk') <;> (try exact rfl)

theorem kept_atomicDenied {qt : Bool} {s0 : State} (f : LinkFrame) (s : State) (hk : Kept qt s0 s) :
    Kept qt s0 (atomicDenied f s) := by
  unfold atomicDenied
  repeat'
    first
    | (with_reducible first | assumption | apply kept_answerDenied | apply kept_denied | apply Kept.iteR)
    | (intro _) | extract_lets | split
    | (with_reducible apply Kept.mk') <;> (try exact rfl)

theorem kept_doAtomicFrame {qt : Bool} {s0 : State} (f : LinkFrame) (s : State) (hk : Kept qt s0 s) :
    Kept qt s0 (doAtomicFrame f s) := by
  unfold doAtomicFrame
  repeat'
    first
    | (with_reducible first | assumption | apply kept_atomicDenied | apply kept_atomicOp | apply kept_flowSend)
    | (with_reducible first | apply Kept.iteR)
    | (intro _) | extract_lets | split | (rename_i e; have e := congrArg Prod.snd e; dsimp only at e; subst e)
    | (with_reducible apply Kept.mk') <;> (try exact rfl)

theorem kept_doAtomicResp {qt : Bool} {s0 : State} (f : LinkFrame) (s : State) (hk : Kept qt s0 s) :
    Kept qt s0 (doAtomicResp f s) := by
  unfold doAtomicResp
  repeat'
    first
    | (with_reducible first | assumption | apply kept_emit | apply Kept.iteR)
    | (intro _) | extract_lets | split
    | (with_reducible apply Kept.mk') <;> (try exact rfl)

theorem kept_doMirrorKv {qt : Bool} {s0 : State} (f : LinkFrame) (s : State) (hk : Kept qt s0 s) :
    Kept qt s0 (doMirrorKv f s) := by
  unfold doMirrorKv
  repeat'
    first
    | (with_reducible first | assumption | apply kept_denied | apply Kept.iteR)
    | (intro _) | extract_lets | split
    | (with_reducible apply Kept.mk') <;> (try exact rfl)

theorem kept_recordDone {qt : Bool} {s0 : State} (ward : Bool) (s : State) (hk : Kept qt s0 s) :
    Kept qt s0 (recordDone ward s) := by
  unfold recordDone
  repeat'
    first
    | (with_reducible first | assumption | apply Kept.iteR | apply Kept.iteR2)
    | (intro _) | extract_lets | split
    | (with_reducible apply Kept.mk') <;> (try exact rfl)

theorem kept_doMirrorRecord {qt : Bool} {s0 : State} (f : LinkFrame) (s : State) (hk : Kept qt s0 s) :
    Kept qt s0 (doMirrorRecord f s) := by
  unfold doMirrorRecord
  repeat'
    first
    | (with_reducible first | assumption | apply kept_denied | apply kept_recordDone | apply Kept.iteR)
    | (intro _) | extract_lets | split
    | (with_reducible apply Kept.mk') <;> (try exact rfl)

theorem kept_doNotice {qt : Bool} {s0 : State} (f : LinkFrame) (s : State) (hk : Kept qt s0 s) :
    Kept qt s0 (doNotice f s) := by
  unfold doNotice
  repeat'
    first
    | (with_reducible first | assumption | apply kept_emit | apply Kept.iteR)
    | (intro _) | extract_lets | split
    | (with_reducible apply Kept.mk') <;> (try exact rfl)

theorem kept_dictAnswer {qt : Bool} {s0 : State} (f : LinkFrame) (code : Nat) (v : Bytes) (s : State) (hk : Kept qt s0 s) :
    Kept qt s0 (dictAnswer f code v s) := by
  unfold dictAnswer
  repeat'
    first
    | (with_reducible first | assumption | apply kept_flowSend | apply Kept.iteR)
    | (intro _) | extract_lets | split
    | (with_reducible apply Kept.mk') <;> (try exact rfl)

theorem kept_dictRead {q : Bool} {s0 : State} (f : LinkFrame) (a : Access) (s : State) (hk : Kept q s0 s) :
    Kept q s0 (dictRead f a s) := by
  unfold dictRead
  have hr := kept_readObject a (dictKey f) (bits f.operand 25 1 == 1) s hk
  split <;> rename_i e <;> rw [e] at hr
  · exact kept_dictAnswer _ _ _ _ (kept_answer _ _ hr)
  · exact Kept.ite (kept_dictAnswer _ _ _ _ (kept_answer _ _ hr)) (kept_dictAnswer _ _ _ _ (kept_answer _ _ hr))

theorem kept_dictWriteFrame {s0 : State} (f : LinkFrame) (a : Access) (s : State) (hk : Kept false s0 s) :
    Kept false s0 (dictWriteFrame f a s) := by
  unfold dictWriteFrame
  repeat'
    first
    | (with_reducible first | assumption | apply kept_dictAnswer | apply kept_answer | apply kept_writeObject)
    | (with_reducible first | apply kept_answerWrite | apply Kept.iteR)
    | (intro _) | extract_lets | split
    | (with_reducible apply Kept.mk') <;> (try exact rfl)

theorem kept_neighbourAccess {qt : Bool} {s0 : State} (f : LinkFrame) (s : State) (hk : Kept qt s0 s) :
    Kept qt s0 (neighbourAccess f s).2 := by
  unfold neighbourAccess
  repeat'
    first
    | (with_reducible first | assumption | apply kept_draw | apply Kept.iteR | apply Kept.iteR2)
    | (intro _) | extract_lets | split
    | (with_reducible apply Kept.mk') <;> (try exact rfl)

theorem kept_doDict {s0 : State} (f : LinkFrame) (s : State) (hk : Kept false s0 s) :
    Kept false s0 (doDict f s) := by
  unfold doDict
  repeat'
    first
    | (with_reducible first | assumption | apply kept_dictAnswer | apply kept_denied | apply kept_neighbourAccess)
    | (with_reducible first | apply kept_dictWriteFrame | apply kept_dictRead | apply Kept.iteR | apply Kept.iteR2)
    | (intro _) | extract_lets | split
    | (with_reducible apply Kept.mk') <;> (try exact rfl)

theorem kept_doDictResp {qt : Bool} {s0 : State} (f : LinkFrame) (s : State) (hk : Kept qt s0 s) :
    Kept qt s0 (doDictResp f s) := by
  unfold doDictResp
  repeat'
    first
    | (with_reducible first | assumption | apply Kept.iteR | apply Kept.iteR2)
    | (intro _) | extract_lets | split
    | (with_reducible apply Kept.mk') <;> (try exact rfl)

theorem kept_frameEffect {s0 : State} (f : LinkFrame) (port : Nat) (s : State) (hk : Kept false s0 s) :
    Kept false s0 (frameEffect f port s) := by
  unfold frameEffect
  repeat'
    first
    | (with_reducible first | assumption | apply kept_doFlowAck | apply kept_doFlowNak | apply kept_doFlowSync)
    | (with_reducible first | apply kept_doLate | apply kept_doWake | apply kept_doPut | apply kept_doSlotPut)
    | (with_reducible first | apply kept_doGet | apply kept_doGetData | apply kept_doReduce | apply kept_doAtomicFrame)
    | (with_reducible first | apply kept_doAtomicResp | apply kept_doMirrorKv | apply kept_doMirrorRecord)
    | (with_reducible first | apply kept_doNotice | apply kept_doDict | apply kept_doDictResp | apply Kept.iteR)
    | (intro _) | extract_lets | split
    | (with_reducible apply Kept.mk') <;> (try exact rfl)

theorem kept_nakOnce {qt : Bool} {s0 : State} (n : Nat) (s : State) (hk : Kept qt s0 s) :
    Kept qt s0 (nakOnce n s) := by
  unfold nakOnce
  repeat'
    first
    | (with_reducible first | assumption | apply kept_offer | apply kept_portMod | apply Kept.iteR)
    | (intro _) | extract_lets | split
    | (with_reducible apply Kept.mk') <;> (try exact rfl)

theorem kept_oweCredit {qt : Bool} {s0 : State} (n : Nat) (f : LinkFrame) (s : State) (hk : Kept qt s0 s) :
    Kept qt s0 (oweCredit n f s) := by
  unfold oweCredit
  repeat'
    first
    | (with_reducible first | assumption | apply kept_portMod | apply Kept.iteR)
    | (intro _) | extract_lets | split
    | (with_reducible apply Kept.mk') <;> (try exact rfl)

theorem kept_flowAnswer {qt : Bool} {s0 : State} (op : Nat) (f : LinkFrame) (last : Nat) (s : State) (hk : Kept qt s0 s) :
    Kept qt s0 (flowAnswer op f last s) := by
  unfold flowAnswer
  repeat'
    first
    | (with_reducible first | assumption | apply kept_routeFrame | apply Kept.iteR)
    | (intro _) | extract_lets | split
    | (with_reducible apply Kept.mk') <;> (try exact rfl)

theorem kept_flowAccept {s0 : State} (f : LinkFrame) (port : Nat) (s : State) (hk : Kept false s0 s) :
    Kept false s0 (flowAccept f port s) := by
  unfold flowAccept
  repeat'
    first
    | (with_reducible first | assumption | apply kept_rxMod | apply kept_flowAnswer | apply kept_frameEffect)
    | (with_reducible first | apply kept_linkBump | apply Kept.iteR)
    | (intro _) | extract_lets | split
    | (with_reducible apply Kept.mk') <;> (try exact rfl)

theorem kept_wakeAck {qt : Bool} {s0 : State} (f : LinkFrame) (s : State) (hk : Kept qt s0 s) :
    Kept qt s0 (wakeAck f s) := by
  unfold wakeAck
  repeat'
    first
    | (with_reducible first | assumption | apply Kept.iteR)
    | (intro _) | extract_lets | split
    | (with_reducible apply Kept.mk') <;> (try exact rfl)

theorem kept_forward {qt : Bool} {s0 : State} (f : LinkFrame) (s : State) (hk : Kept qt s0 s) :
    Kept qt s0 (forward f s) := by
  unfold forward
  repeat'
    first
    | (with_reducible first | assumption | apply kept_routeFrame | apply Kept.iteR)
    | (intro _) | extract_lets | split
    | (with_reducible apply Kept.mk') <;> (try exact rfl)

theorem kept_hopAccepted {s0 : State} (f : LinkFrame) (port : Nat) (s : State) (hk : Kept false s0 s) :
    Kept false s0 (hopAccepted f port s) := by
  unfold hopAccepted
  repeat'
    first
    | (with_reducible first | assumption | apply kept_denied | apply kept_forward | apply kept_frameEffect)
    | (with_reducible first | apply kept_flowAccept | apply Kept.iteR)
    | (intro _) | extract_lets | split
    | (with_reducible apply Kept.mk') <;> (try exact rfl)

theorem kept_hopControl {qt : Bool} {s0 : State} (f : LinkFrame) (port : Nat) (s : State) (hk : Kept qt s0 s) :
    Kept qt s0 (hopControl f port s) := by
  unfold hopControl
  repeat'
    first
    | (with_reducible first | assumption | apply kept_drainAll | apply kept_goBack | apply kept_wakeAck)
    | (with_reducible first | apply kept_forward | apply Kept.iteR)
    | (intro _) | extract_lets | split
    | (with_reducible apply Kept.mk') <;> (try exact rfl)

theorem kept_frameArrives {s0 : State} (f : LinkFrame) (n : Nat) (s : State) (hk : Kept false s0 s) :
    Kept false s0 (frameArrives f n s) := by
  unfold frameArrives
  repeat'
    first
    | (with_reducible first | assumption | apply kept_drainAll | apply kept_giveCredit | apply kept_freeReplay)
    | (with_reducible first | apply kept_hopControl | apply kept_hopAccepted | apply kept_oweCredit)
    | (with_reducible first | apply kept_portMod | apply kept_nakOnce | apply Kept.iteR)
    | (intro _) | extract_lets | split
    | (with_reducible apply Kept.mk') <;> (try exact rfl)

theorem kept_doFrameReceive {s0 : State} (n : Nat) (raw : Bytes) (at' : Nat) (s : State) (hk : Kept false s0 s) :
    Kept false s0 (doFrameReceive n raw at' s) := by
  unfold doFrameReceive
  repeat'
    first
    | (with_reducible first | assumption | apply kept_atT | apply kept_frameArrives | apply kept_nakOnce)
    | (with_reducible first | apply kept_linkBump | apply Kept.iteR)
    | (intro _) | extract_lets | split
    | (with_reducible apply Kept.mk') <;> (try exact rfl)

theorem kept_ingestGap {qt : Bool} {s0 : State} (ch seq : Nat) (s : State) (hk : Kept qt s0 s) :
    Kept qt s0 (ingestGap ch seq s) := by
  unfold ingestGap
  repeat'
    first
    | (with_reducible first | assumption | apply kept_linkBump | apply Kept.iteR)
    | (intro _) | extract_lets | split
    | (with_reducible apply Kept.mk') <;> (try exact rfl)

theorem kept_doIngest {qt : Bool} {s0 : State} (d : Datagram) (s : State) (hk : Kept qt s0 s) :
    Kept qt s0 (doIngest d s) := by
  unfold doIngest
  repeat'
    first
    | (with_reducible first | assumption | apply kept_linkBump | apply kept_tenantWrite | apply kept_atomicOp)
    | (with_reducible first | apply kept_ingestGap | apply Kept.iteR | apply Kept.iteR2)
    | (intro _) | extract_lets | split | (rename_i e; have e := congrArg Prod.snd e; dsimp only at e; subst e)
    | (with_reducible apply Kept.mk') <;> (try exact rfl)

end Sys2Proof.Machine
end

