-- ==== Sys2Proof/Laws/KeptStep.lean ====
section
/-! SUPPORT. What the tick boundary keeps. -/

namespace Sys2Proof.Machine

open Sys2Proof

set_option linter.unusedTactic false
set_option linter.unreachableTactic false

/-! ### Machine/Tick.lean -/

theorem kept_releaseOrHold {qt : Bool} {s0 : State} (tick : Nat) (s : State) (hk : Kept qt s0 s) :
    Kept qt s0 (releaseOrHold tick s) := by
  unfold releaseOrHold
  repeat'
    first
    | (with_reducible first | assumption | apply kept_recFlag | apply kept_releaseSet | apply Kept.iteR)
    | (intro _) | extract_lets | split
    | (with_reducible apply Kept.mk') <;> (try exact rfl)

theorem kept_specCount {qt : Bool} {s0 : State} (s : State) (hk : Kept qt s0 s) :
    Kept qt s0 (specCount s) := by
  unfold specCount
  repeat'
    first
    | (with_reducible first | assumption | apply Kept.iteR)
    | (intro _) | extract_lets | split
    | (with_reducible apply Kept.mk') <;> (try exact rfl)

theorem kept_commitStep {qt : Bool} {s0 : State} (tick : Nat) (s : State) (hk : Kept qt s0 s) :
    Kept qt s0 (commitStep tick s) := by
  unfold commitStep
  repeat'
    first
    | (with_reducible first | assumption | apply kept_specCount | apply kept_resetTenant | apply kept_releaseOrHold)
    | (with_reducible first | apply kept_drainTail | apply kept_missDeadlines | apply Kept.iteR | apply Kept.fold)
    | (with_reducible first | apply Kept.fold2 | apply Kept.fold1)
    | (intro _) | extract_lets | split
    | (with_reducible apply Kept.mk') <;> (try exact rfl)

theorem kept_snapshots {qt : Bool} {s0 : State} (tick : Nat) (s : State) (hk : Kept qt s0 s) :
    Kept qt s0 (snapshots tick s) := by
  unfold snapshots
  repeat'
    first
    | (with_reducible first | assumption | apply kept_ctxMod | apply Kept.iteR | apply Kept.fold | apply Kept.fold2)
    | (with_reducible first | apply Kept.fold1)
    | (intro _) | extract_lets | split
    | (with_reducible apply Kept.mk') <;> (try exact rfl)

theorem kept_freeStep {qt : Bool} {s0 : State} (s : State) (hk : Kept qt s0 s) :
    Kept qt s0 (freeStep s) := by
  unfold freeStep
  repeat'
    first
    | (with_reducible first | assumption | apply kept_switchSieves | apply kept_switchRemaps | apply kept_freeVars)
    | (with_reducible first | apply kept_freeCasts | apply Kept.iteR)
    | (intro _) | extract_lets | split
    | (with_reducible apply Kept.mk') <;> (try exact rfl)

theorem kept_rePin {qt : Bool} {s0 : State} (i : Nat) (r : Request) (c : Nat) (v : Option Nat) (s : State) (hk : Kept qt s0 s) :
    Kept qt s0 (rePin i r c v s) := by
  unfold rePin
  repeat'
    first
    | (with_reducible first | assumption | apply kept_castMod | apply kept_varMod | apply kept_addEntry)
    | (with_reducible first | apply kept_bump | apply kept_reqMod | apply Kept.iteR)
    | (intro _) | extract_lets | split
    | (with_reducible apply Kept.mk') <;> (try exact rfl)

theorem kept_followPin {qt : Bool} {s0 : State} (s : State) (i : Nat) (hk : Kept qt s0 s) :
    Kept qt s0 (followPin s i) := by
  unfold followPin
  repeat'
    first
    | (with_reducible first | assumption | apply kept_rePin | apply Kept.iteR)
    | (intro _) | extract_lets | split
    | (with_reducible apply Kept.mk') <;> (try exact rfl)

theorem kept_precisionOf {qt : Bool} {s0 : State} (s : State) (x : Nat × Tracker) (hk : Kept qt s0 s) :
    Kept qt s0 (precisionOf s x) := by
  unfold precisionOf
  repeat'
    first
    | (with_reducible first | assumption | apply kept_addEntry | apply kept_bump | apply Kept.iteR | apply Kept.iteR2)
    | (intro _) | extract_lets | split
    | (with_reducible apply Kept.mk') <;> (try exact rfl)

theorem kept_precisionStep {qt : Bool} {s0 : State} (s : State) (hk : Kept qt s0 s) :
    Kept qt s0 (precisionStep s) := by
  unfold precisionStep
  repeat'
    first
    | (with_reducible first | assumption | apply kept_precisionOf | apply Kept.iteR | apply Kept.fold)
    | (with_reducible first | apply Kept.fold2 | apply Kept.fold1)
    | (intro _) | extract_lets | split
    | (with_reducible apply Kept.mk') <;> (try exact rfl)

theorem kept_gateStep {qt : Bool} {s0 : State} (s : State) (hk : Kept qt s0 s) :
    Kept qt s0 (gateStep s) := by
  unfold gateStep
  repeat'
    first
    | (with_reducible first | assumption | apply kept_addO | apply Kept.iteR | apply Kept.iteR2)
    | (intro _) | extract_lets | split
    | (with_reducible apply Kept.mk') <;> (try exact rfl)

theorem kept_criticalStep {qt : Bool} {s0 : State} (s : State) (hk : Kept qt s0 s) :
    Kept qt s0 (criticalStep s) := by
  unfold criticalStep
  repeat'
    first
    | (with_reducible first | assumption | apply Kept.iteR | apply Kept.fold | apply Kept.fold2 | apply Kept.fold1)
    | (intro _) | extract_lets | split
    | (with_reducible apply Kept.mk') <;> (try exact rfl)

theorem kept_limitStep {q : Bool} {s0 : State} (s : State) (hk : Kept q s0 s) : Kept q s0 (limitStep s) := by
  have h1 : Kept q s0 (mergeSamples (boundaryLimits s)) := kept_mergeSamples _ (kept_boundaryLimits _ hk)
  unfold limitStep
  generalize mergeSamples (boundaryLimits s) = s1 at h1
  exact Kept.mk' h1

theorem kept_recastStep {qt : Bool} {s0 : State} (s : State) (hk : Kept qt s0 s) :
    Kept qt s0 (recastStep s) := by
  unfold recastStep
  repeat'
    first
    | (with_reducible first | assumption | apply kept_addEntry | apply Kept.iteR | apply Kept.fold | apply Kept.fold2)
    | (with_reducible first | apply Kept.fold1)
    | (intro _) | extract_lets | split
    | (with_reducible apply Kept.mk') <;> (try exact rfl)

theorem kept_loadStep {qt : Bool} {s0 : State} (s : State) (hk : Kept qt s0 s) :
    Kept qt s0 (loadStep s) := by
  unfold loadStep
  repeat'
    first
    | (with_reducible first | assumption | apply Kept.iteR | apply Kept.iteR2)
    | (intro _) | extract_lets | split
    | (with_reducible apply Kept.mk') <;> (try exact rfl)

theorem kept_serveStep {qt : Bool} {s0 : State} (s : State) (hk : Kept qt s0 s) :
    Kept qt s0 (serveStep s) := by
  unfold serveStep
  repeat'
    first
    | (with_reducible first | assumption | apply Kept.iteR)
    | (intro _) | extract_lets | split
    | (with_reducible apply Kept.mk') <;> (try exact rfl)

theorem kept_idleStep {qt : Bool} {s0 : State} (s : State) (hk : Kept qt s0 s) :
    Kept qt s0 (idleStep s) := by
  unfold idleStep
  repeat'
    first
    | (with_reducible first | assumption | apply Kept.iteR)
    | (intro _) | extract_lets | split
    | (with_reducible apply Kept.mk') <;> (try exact rfl)

theorem kept_lateStep {qt : Bool} {s0 : State} (s : State) (hk : Kept qt s0 s) :
    Kept qt s0 (lateStep s) := by
  unfold lateStep
  repeat'
    first
    | (with_reducible first | assumption | apply kept_sendLate | apply Kept.iteR)
    | (intro _) | extract_lets | split
    | (with_reducible apply Kept.mk') <;> (try exact rfl)

theorem kept_renumber {qt : Bool} {s0 : State} (s : State) (hk : Kept qt s0 s) :
    Kept qt s0 (renumber s) := by
  unfold renumber
  repeat'
    first
    | (with_reducible first | assumption | apply Kept.iteR)
    | (intro _) | extract_lets | split
    | (with_reducible apply Kept.mk') <;> (try exact rfl)

theorem kept_reports {qt : Bool} {s0 : State} (due : List Pending) (s : State) (hk : Kept qt s0 s) :
    Kept qt s0 (reports due s) := by
  unfold reports
  repeat'
    first
    | (with_reducible first | assumption | apply kept_formReport | apply Kept.iteR | apply Kept.fold)
    | (with_reducible first | apply Kept.fold2 | apply Kept.fold1)
    | (intro _) | extract_lets | split
    | (with_reducible apply Kept.mk') <;> (try exact rfl)

theorem kept_reachBoundary {q : Bool} {s0 : State} (s : State) (hk : Kept q s0 s) : Kept q s0 (reachBoundary s) := by
  unfold reachBoundary
  exact kept_sealRecord _ (hk.trans ⟨rfl, id, id, fun _ x => x, fun _ => ⟨rfl, rfl, rfl, rfl, rfl, le_max_left _ _⟩⟩)

theorem kept_applyStep {qt : Bool} {s0 : State} (tokens : List Nat) (s : State) (hk : Kept qt s0 s) :
    Kept qt s0 (applyStep tokens s) := by
  unfold applyStep
  repeat'
    first
    | (with_reducible first | assumption | apply kept_followPin | apply kept_switchPointers | apply kept_applyWrites)
    | (with_reducible first | apply kept_limitStep | apply kept_criticalStep | apply kept_gateStep)
    | (with_reducible first | apply kept_precisionStep | apply Kept.iteR | apply Kept.fold | apply Kept.fold2)
    | (with_reducible first | apply Kept.fold1)
    | (intro _) | extract_lets | split
    | (with_reducible apply Kept.mk') <;> (try exact rfl)

theorem kept_tickStep {s0 : State} (s : State) (hk : Kept false s0 s) :
    Kept false s0 (tickStep s) := by
  unfold tickStep
  repeat'
    first
    | (with_reducible first | assumption | apply kept_switchSource | apply kept_placeIfDue | apply kept_nextTick)
    | (with_reducible first | apply kept_regrid | apply Kept.iteR)
    | (intro _) | extract_lets | split
    | (with_reducible apply Kept.mk') <;> (try exact rfl)

theorem kept_beginTick {qt : Bool} {s0 : State} (s : State) (hk : Kept qt s0 s) :
    Kept qt s0 (beginTick s) := by
  unfold beginTick
  repeat'
    first
    | (with_reducible first | assumption | apply kept_serveStep | apply kept_idleStep | apply kept_loadStep)
    | (with_reducible first | apply kept_renumber | apply kept_askRepairs | apply kept_replayBoundary)
    | (with_reducible first | apply kept_divergeStep | apply kept_lateStep | apply kept_syncPulses)
    | (with_reducible first | apply kept_openRecord | apply kept_recastStep | apply Kept.iteR)
    | (intro _) | extract_lets | split
    | (with_reducible apply Kept.mk') <;> (try exact rfl)

theorem kept_heldBoundary {s0 : State} (s : State) (hk : Kept false s0 s) : Kept false s0 (heldBoundary s) := by
  unfold heldBoundary
  exact kept_syncPulses _ (kept_tickStep _ (hk.trans ⟨rfl, id, id, fun _ x => x, fun e => Bool.noConfusion e⟩))

theorem kept_doTickBoundary {s0 : State} (s : State) (hk : Kept false s0 s) :
    Kept false s0 (doTickBoundary s) := by
  unfold doTickBoundary
  repeat'
    first
    | (with_reducible first | assumption | apply kept_heldBoundary | apply kept_reachBoundary | apply kept_snapshots)
    | (with_reducible first | apply kept_commitStep | apply kept_reports | apply kept_beginTick | apply kept_tickStep)
    | (with_reducible first | apply kept_applyStep | apply kept_freeStep | apply Kept.iteR)
    | (intro _) | extract_lets | split
    | (with_reducible apply Kept.mk') <;> (try exact rfl)

end Sys2Proof.Machine
end

