-- ==== Sys2Proof/Laws/State.lean ====
section
/-! SUPPORT. The small laws of the state: what a sparse map holds after a change, what an object holds after a write, and, for
each shared operation, every component of the state that it leaves as it was. -/

namespace Sys2Proof.Machine

open Sys2Proof

/-! ### Sparse maps -/

@[simp] theorem sfind_sput_same {α : Type} (m : SMap α) (j : Nat) (x : α) : sfind (sput m j x) j = some x := by
  induction m with
  | nil => simp [sput, sfind]
  | cons e m ih =>
    simp only [sput]
    split
    · simp [sfind]
    · split
      · simp [sfind]
      · rename_i h
        simp [sfind, Ne.symm h, ih]

theorem sfind_sput_other {α : Type} (m : SMap α) {j i : Nat} (h : i ≠ j) (x : α) : sfind (sput m j x) i = sfind m i := by
  induction m with
  | nil => simp [sput, sfind, Ne.symm h]
  | cons e m ih =>
    simp only [sput]
    split
    · simp [sfind, Ne.symm h]
    · split
      · rename_i e1
        subst e1
        simp [sfind, Ne.symm h]
      · simp [sfind, ih]

@[simp] theorem sfind_sdel_same {α : Type} (m : SMap α) (j : Nat) : sfind (sdel m j) j = none := by
  induction m with
  | nil => rfl
  | cons e m ih =>
    by_cases h : e.1 = j
    · simpa [sdel, h] using ih
    · simpa [sdel, h, sfind] using ih

theorem sfind_sdel_other {α : Type} (m : SMap α) {j i : Nat} (h : i ≠ j) : sfind (sdel m j) i = sfind m i := by
  induction m with
  | nil => rfl
  | cons e m ih =>
    by_cases he : e.1 = j
    · simpa [sdel, sfind, he, Ne.symm h] using ih
    · by_cases hi : e.1 = i
      · simp [sdel, sfind, hi, h]
      · simpa [sdel, sfind, he, hi] using ih

/-- What a key holds after a change of it. -/
@[simp] theorem sget_sset_same {α : Type} [DecidableEq α] (d : α) (m : SMap α) (j : Nat) (x : α) :
    sget d (sset d m j x) j = x := by
  by_cases h : x = d
  · simp [sget, sset, h]
  · simp [sget, sset, h]

/-- What another key holds after a change. -/
theorem sget_sset_other {α : Type} [DecidableEq α] (d c : α) (m : SMap α) {j i : Nat} (h : i ≠ j) (x : α) :
    sget d (sset c m j x) i = sget d m i := by
  by_cases hx : x = c
  · simp [sget, sset, hx, sfind_sdel_other m h]
  · simp [sget, sset, hx, sfind_sput_other m h]

@[simp] theorem sget_sput_same {α : Type} (d : α) (m : SMap α) (j : Nat) (x : α) : sget d (sput m j x) j = x := by
  simp [sget]

theorem sget_sput_other {α : Type} (d : α) (m : SMap α) {j i : Nat} (h : i ≠ j) (x : α) :
    sget d (sput m j x) i = sget d m i := by
  simp [sget, sfind_sput_other m h]

theorem sfind_smod_same {α : Type} (m : SMap α) (j : Nat) (f : α → α) : sfind (smod m j f) j = (sfind m j).map f := by
  induction m with
  | nil => rfl
  | cons e m ih =>
    by_cases h : e.1 = j
    · simp [smod, sfind, h]
    · simpa [smod, sfind, h] using ih

theorem sfind_smod_other {α : Type} (m : SMap α) {j i : Nat} (h : i ≠ j) (f : α → α) :
    sfind (smod m j f) i = sfind m i := by
  induction m with
  | nil => rfl
  | cons e m ih =>
    by_cases he : e.1 = j
    · simpa [smod, sfind, he, Ne.symm h] using ih
    · by_cases hi : e.1 = i
      · simp [smod, sfind, hi, h]
      · simpa [smod, sfind, he, hi] using ih

/-! ### Objects -/

/-- An object holds the value put in force. -/
@[simp] theorem getO_setO_same (s : State) (k v : Nat) : getO (setO s k v) k = v := by
  simp [getO, setO]

/-- Every other object holds what it held. -/
theorem getO_setO_other (s : State) {k j : Nat} (h : j ≠ k) (v : Nat) : getO (setO s k v) j = getO s j := by
  simp [getO, setO, sget_sset_other _ _ _ h]

/-- A counter counts, within its 64 bits. -/
@[simp] theorem getO_addO_same (s : State) (k n : Nat) : getO (addO s k n) k = (getO s k + n) % 2 ^ 64 := by
  simp [addO]

theorem getO_addO_other (s : State) {k j : Nat} (h : j ≠ k) (n : Nat) : getO (addO s k n) j = getO s j := by
  simp [addO, getO_setO_other s h]

@[simp] theorem getO_bump_same (s : State) (k : Nat) : getO (bump s k) k = (getO s k + 1) % 2 ^ 64 := by
  simp [bump]

theorem getO_bump_other (s : State) {k j : Nat} (h : j ≠ k) : getO (bump s k) j = getO s j := by
  simp [bump, getO_addO_other s h]

@[simp] theorem getS_setS_same (s : State) (k : Nat) (v : Bytes) : getS (setS s k v) k = v := by
  simp [getS, setS]

theorem getS_setS_other (s : State) {k j : Nat} (h : j ≠ k) (v : Bytes) : getS (setS s k v) j = getS s j := by
  simp [getS, setS, sget_sset_other _ _ _ h]

@[simp] theorem getO_setS (s : State) (k j : Nat) (v : Bytes) : getO (setS s k v) j = getO s j := rfl
@[simp] theorem getS_setO (s : State) (k v j : Nat) : getS (setO s k v) j = getS s j := rfl
@[simp] theorem getS_addO (s : State) (k n j : Nat) : getS (addO s k n) j = getS s j := rfl
@[simp] theorem getS_bump (s : State) (k j : Nat) : getS (bump s k) j = getS s j := rfl
/-- A state whose dictionary is that of a write holds the value written. -/
theorem getO_of_setO {t u : State} {k v : Nat} (h : t.dict = (setO u k v).dict) : getO t k = v := by
  have := getO_setO_same u k v
  simpa [getO, h] using this

/-- States with the same values hold the same objects. -/
theorem getO_of_vals {s t : State} (h : t.dict.vals = s.dict.vals) (k : Nat) : getO t k = getO s k := by
  simp [getO, h]

/-! ### Putting a numeric object in force -/

@[simp] theorem setO_pending (k v : Nat) (s : State) : (setO s k v).pending = s.pending := rfl
@[simp] theorem setO_time (k v : Nat) (s : State) : (setO s k v).time = s.time := rfl
@[simp] theorem setO_boot (k v : Nat) (s : State) : (setO s k v).boot = s.boot := rfl
@[simp] theorem setO_pins (k v : Nat) (s : State) : (setO s k v).pins = s.pins := rfl
@[simp] theorem setO_power (k v : Nat) (s : State) : (setO s k v).power = s.power := rfl
@[simp] theorem setO_pilot (k v : Nat) (s : State) : (setO s k v).pilot = s.pilot := rfl
@[simp] theorem setO_record (k v : Nat) (s : State) : (setO s k v).record = s.record := rfl
@[simp] theorem setO_sec (k v : Nat) (s : State) : (setO s k v).sec = s.sec := rfl
@[simp] theorem setO_faults (k v : Nat) (s : State) : (setO s k v).faults = s.faults := rfl
@[simp] theorem setO_dram (k v : Nat) (s : State) : (setO s k v).dram = s.dram := rfl
@[simp] theorem setO_ingot (k v : Nat) (s : State) : (setO s k v).ingot = s.ingot := rfl
@[simp] theorem setO_vars (k v : Nat) (s : State) : (setO s k v).vars = s.vars := rfl
@[simp] theorem setO_kv (k v : Nat) (s : State) : (setO s k v).kv = s.kv := rfl
@[simp] theorem setO_sched (k v : Nat) (s : State) : (setO s k v).sched = s.sched := rfl
@[simp] theorem setO_engine (k v : Nat) (s : State) : (setO s k v).engine = s.engine := rfl
@[simp] theorem setO_links (k v : Nat) (s : State) : (setO s k v).links = s.links := rfl
@[simp] theorem setO_mirror (k v : Nat) (s : State) : (setO s k v).mirror = s.mirror := rfl
@[simp] theorem setO_out (k v : Nat) (s : State) : (setO s k v).out = s.out := rfl
@[simp] theorem setO_draws (k v : Nat) (s : State) : (setO s k v).draws = s.draws := rfl

/-! ### Counting in a counter -/

@[simp] theorem addO_pending (k n : Nat) (s : State) : (addO s k n).pending = s.pending := rfl
@[simp] theorem addO_time (k n : Nat) (s : State) : (addO s k n).time = s.time := rfl
@[simp] theorem addO_boot (k n : Nat) (s : State) : (addO s k n).boot = s.boot := rfl
@[simp] theorem addO_pins (k n : Nat) (s : State) : (addO s k n).pins = s.pins := rfl
@[simp] theorem addO_power (k n : Nat) (s : State) : (addO s k n).power = s.power := rfl
@[simp] theorem addO_pilot (k n : Nat) (s : State) : (addO s k n).pilot = s.pilot := rfl
@[simp] theorem addO_record (k n : Nat) (s : State) : (addO s k n).record = s.record := rfl
@[simp] theorem addO_sec (k n : Nat) (s : State) : (addO s k n).sec = s.sec := rfl
@[simp] theorem addO_faults (k n : Nat) (s : State) : (addO s k n).faults = s.faults := rfl
@[simp] theorem addO_dram (k n : Nat) (s : State) : (addO s k n).dram = s.dram := rfl
@[simp] theorem addO_ingot (k n : Nat) (s : State) : (addO s k n).ingot = s.ingot := rfl
@[simp] theorem addO_vars (k n : Nat) (s : State) : (addO s k n).vars = s.vars := rfl
@[simp] theorem addO_kv (k n : Nat) (s : State) : (addO s k n).kv = s.kv := rfl
@[simp] theorem addO_sched (k n : Nat) (s : State) : (addO s k n).sched = s.sched := rfl
@[simp] theorem addO_engine (k n : Nat) (s : State) : (addO s k n).engine = s.engine := rfl
@[simp] theorem addO_links (k n : Nat) (s : State) : (addO s k n).links = s.links := rfl
@[simp] theorem addO_mirror (k n : Nat) (s : State) : (addO s k n).mirror = s.mirror := rfl
@[simp] theorem addO_out (k n : Nat) (s : State) : (addO s k n).out = s.out := rfl
@[simp] theorem addO_draws (k n : Nat) (s : State) : (addO s k n).draws = s.draws := rfl

/-! ### Counting one more -/

@[simp] theorem bump_pending (k : Nat) (s : State) : (bump s k).pending = s.pending := rfl
@[simp] theorem bump_time (k : Nat) (s : State) : (bump s k).time = s.time := rfl
@[simp] theorem bump_boot (k : Nat) (s : State) : (bump s k).boot = s.boot := rfl
@[simp] theorem bump_pins (k : Nat) (s : State) : (bump s k).pins = s.pins := rfl
@[simp] theorem bump_power (k : Nat) (s : State) : (bump s k).power = s.power := rfl
@[simp] theorem bump_pilot (k : Nat) (s : State) : (bump s k).pilot = s.pilot := rfl
@[simp] theorem bump_record (k : Nat) (s : State) : (bump s k).record = s.record := rfl
@[simp] theorem bump_sec (k : Nat) (s : State) : (bump s k).sec = s.sec := rfl
@[simp] theorem bump_faults (k : Nat) (s : State) : (bump s k).faults = s.faults := rfl
@[simp] theorem bump_dram (k : Nat) (s : State) : (bump s k).dram = s.dram := rfl
@[simp] theorem bump_ingot (k : Nat) (s : State) : (bump s k).ingot = s.ingot := rfl
@[simp] theorem bump_vars (k : Nat) (s : State) : (bump s k).vars = s.vars := rfl
@[simp] theorem bump_kv (k : Nat) (s : State) : (bump s k).kv = s.kv := rfl
@[simp] theorem bump_sched (k : Nat) (s : State) : (bump s k).sched = s.sched := rfl
@[simp] theorem bump_engine (k : Nat) (s : State) : (bump s k).engine = s.engine := rfl
@[simp] theorem bump_links (k : Nat) (s : State) : (bump s k).links = s.links := rfl
@[simp] theorem bump_mirror (k : Nat) (s : State) : (bump s k).mirror = s.mirror := rfl
@[simp] theorem bump_out (k : Nat) (s : State) : (bump s k).out = s.out := rfl
@[simp] theorem bump_draws (k : Nat) (s : State) : (bump s k).draws = s.draws := rfl

/-! ### Putting a string object in force -/

@[simp] theorem setS_pending (k : Nat) (v : Bytes) (s : State) : (setS s k v).pending = s.pending := rfl
@[simp] theorem setS_time (k : Nat) (v : Bytes) (s : State) : (setS s k v).time = s.time := rfl
@[simp] theorem setS_boot (k : Nat) (v : Bytes) (s : State) : (setS s k v).boot = s.boot := rfl
@[simp] theorem setS_pins (k : Nat) (v : Bytes) (s : State) : (setS s k v).pins = s.pins := rfl
@[simp] theorem setS_power (k : Nat) (v : Bytes) (s : State) : (setS s k v).power = s.power := rfl
@[simp] theorem setS_pilot (k : Nat) (v : Bytes) (s : State) : (setS s k v).pilot = s.pilot := rfl
@[simp] theorem setS_record (k : Nat) (v : Bytes) (s : State) : (setS s k v).record = s.record := rfl
@[simp] theorem setS_sec (k : Nat) (v : Bytes) (s : State) : (setS s k v).sec = s.sec := rfl
@[simp] theorem setS_faults (k : Nat) (v : Bytes) (s : State) : (setS s k v).faults = s.faults := rfl
@[simp] theorem setS_dram (k : Nat) (v : Bytes) (s : State) : (setS s k v).dram = s.dram := rfl
@[simp] theorem setS_ingot (k : Nat) (v : Bytes) (s : State) : (setS s k v).ingot = s.ingot := rfl
@[simp] theorem setS_vars (k : Nat) (v : Bytes) (s : State) : (setS s k v).vars = s.vars := rfl
@[simp] theorem setS_kv (k : Nat) (v : Bytes) (s : State) : (setS s k v).kv = s.kv := rfl
@[simp] theorem setS_sched (k : Nat) (v : Bytes) (s : State) : (setS s k v).sched = s.sched := rfl
@[simp] theorem setS_engine (k : Nat) (v : Bytes) (s : State) : (setS s k v).engine = s.engine := rfl
@[simp] theorem setS_links (k : Nat) (v : Bytes) (s : State) : (setS s k v).links = s.links := rfl
@[simp] theorem setS_mirror (k : Nat) (v : Bytes) (s : State) : (setS s k v).mirror = s.mirror := rfl
@[simp] theorem setS_out (k : Nat) (v : Bytes) (s : State) : (setS s k v).out = s.out := rfl
@[simp] theorem setS_draws (k : Nat) (v : Bytes) (s : State) : (setS s k v).draws = s.draws := rfl

/-! ### Taking a free value -/

@[simp] theorem draw_pending (s : State) : ((draw s).2).pending = s.pending := rfl
@[simp] theorem draw_time (s : State) : ((draw s).2).time = s.time := rfl
@[simp] theorem draw_dict (s : State) : ((draw s).2).dict = s.dict := rfl
@[simp] theorem draw_boot (s : State) : ((draw s).2).boot = s.boot := rfl
@[simp] theorem draw_pins (s : State) : ((draw s).2).pins = s.pins := rfl
@[simp] theorem draw_power (s : State) : ((draw s).2).power = s.power := rfl
@[simp] theorem draw_pilot (s : State) : ((draw s).2).pilot = s.pilot := rfl
@[simp] theorem draw_record (s : State) : ((draw s).2).record = s.record := rfl
@[simp] theorem draw_sec (s : State) : ((draw s).2).sec = s.sec := rfl
@[simp] theorem draw_faults (s : State) : ((draw s).2).faults = s.faults := rfl
@[simp] theorem draw_dram (s : State) : ((draw s).2).dram = s.dram := rfl
@[simp] theorem draw_ingot (s : State) : ((draw s).2).ingot = s.ingot := rfl
@[simp] theorem draw_vars (s : State) : ((draw s).2).vars = s.vars := rfl
@[simp] theorem draw_kv (s : State) : ((draw s).2).kv = s.kv := rfl
@[simp] theorem draw_sched (s : State) : ((draw s).2).sched = s.sched := rfl
@[simp] theorem draw_engine (s : State) : ((draw s).2).engine = s.engine := rfl
@[simp] theorem draw_links (s : State) : ((draw s).2).links = s.links := rfl
@[simp] theorem draw_mirror (s : State) : ((draw s).2).mirror = s.mirror := rfl
@[simp] theorem draw_out (s : State) : ((draw s).2).out = s.out := rfl
@[simp] theorem getO_draw (s : State) (j : Nat) : getO ((draw s).2) j = getO s j := rfl

/-! ### Taking a free byte string -/

@[simp] theorem drawBytes_pending (n : Nat) (s : State) : ((drawBytes n s).2).pending = s.pending := rfl
@[simp] theorem drawBytes_time (n : Nat) (s : State) : ((drawBytes n s).2).time = s.time := rfl
@[simp] theorem drawBytes_dict (n : Nat) (s : State) : ((drawBytes n s).2).dict = s.dict := rfl
@[simp] theorem drawBytes_boot (n : Nat) (s : State) : ((drawBytes n s).2).boot = s.boot := rfl
@[simp] theorem drawBytes_pins (n : Nat) (s : State) : ((drawBytes n s).2).pins = s.pins := rfl
@[simp] theorem drawBytes_power (n : Nat) (s : State) : ((drawBytes n s).2).power = s.power := rfl
@[simp] theorem drawBytes_pilot (n : Nat) (s : State) : ((drawBytes n s).2).pilot = s.pilot := rfl
@[simp] theorem drawBytes_record (n : Nat) (s : State) : ((drawBytes n s).2).record = s.record := rfl
@[simp] theorem drawBytes_sec (n : Nat) (s : State) : ((drawBytes n s).2).sec = s.sec := rfl
@[simp] theorem drawBytes_faults (n : Nat) (s : State) : ((drawBytes n s).2).faults = s.faults := rfl
@[simp] theorem drawBytes_dram (n : Nat) (s : State) : ((drawBytes n s).2).dram = s.dram := rfl
@[simp] theorem drawBytes_ingot (n : Nat) (s : State) : ((drawBytes n s).2).ingot = s.ingot := rfl
@[simp] theorem drawBytes_vars (n : Nat) (s : State) : ((drawBytes n s).2).vars = s.vars := rfl
@[simp] theorem drawBytes_kv (n : Nat) (s : State) : ((drawBytes n s).2).kv = s.kv := rfl
@[simp] theorem drawBytes_sched (n : Nat) (s : State) : ((drawBytes n s).2).sched = s.sched := rfl
@[simp] theorem drawBytes_engine (n : Nat) (s : State) : ((drawBytes n s).2).engine = s.engine := rfl
@[simp] theorem drawBytes_links (n : Nat) (s : State) : ((drawBytes n s).2).links = s.links := rfl
@[simp] theorem drawBytes_mirror (n : Nat) (s : State) : ((drawBytes n s).2).mirror = s.mirror := rfl
@[simp] theorem drawBytes_out (n : Nat) (s : State) : ((drawBytes n s).2).out = s.out := rfl
@[simp] theorem getO_drawBytes (n : Nat) (s : State) (j : Nat) : getO ((drawBytes n s).2) j = getO s j := rfl

/-! ### Sending something out -/

@[simp] theorem emit_pending (e : OutEvent) (s : State) : (emit e s).pending = s.pending := rfl
@[simp] theorem emit_time (e : OutEvent) (s : State) : (emit e s).time = s.time := rfl
@[simp] theorem emit_dict (e : OutEvent) (s : State) : (emit e s).dict = s.dict := rfl
@[simp] theorem emit_boot (e : OutEvent) (s : State) : (emit e s).boot = s.boot := rfl
@[simp] theorem emit_pins (e : OutEvent) (s : State) : (emit e s).pins = s.pins := rfl
@[simp] theorem emit_power (e : OutEvent) (s : State) : (emit e s).power = s.power := rfl
@[simp] theorem emit_pilot (e : OutEvent) (s : State) : (emit e s).pilot = s.pilot := rfl
@[simp] theorem emit_record (e : OutEvent) (s : State) : (emit e s).record = s.record := rfl
@[simp] theorem emit_sec (e : OutEvent) (s : State) : (emit e s).sec = s.sec := rfl
@[simp] theorem emit_faults (e : OutEvent) (s : State) : (emit e s).faults = s.faults := rfl
@[simp] theorem emit_dram (e : OutEvent) (s : State) : (emit e s).dram = s.dram := rfl
@[simp] theorem emit_ingot (e : OutEvent) (s : State) : (emit e s).ingot = s.ingot := rfl
@[simp] theorem emit_vars (e : OutEvent) (s : State) : (emit e s).vars = s.vars := rfl
@[simp] theorem emit_kv (e : OutEvent) (s : State) : (emit e s).kv = s.kv := rfl
@[simp] theorem emit_sched (e : OutEvent) (s : State) : (emit e s).sched = s.sched := rfl
@[simp] theorem emit_engine (e : OutEvent) (s : State) : (emit e s).engine = s.engine := rfl
@[simp] theorem emit_links (e : OutEvent) (s : State) : (emit e s).links = s.links := rfl
@[simp] theorem emit_mirror (e : OutEvent) (s : State) : (emit e s).mirror = s.mirror := rfl
@[simp] theorem emit_draws (e : OutEvent) (s : State) : (emit e s).draws = s.draws := rfl
@[simp] theorem getO_emit (e : OutEvent) (s : State) (j : Nat) : getO (emit e s) j = getO s j := rfl

/-! ### Moving to an instant of the tick -/

@[simp] theorem atT_pending (t : Nat) (s : State) : (atT t s).pending = s.pending := rfl
@[simp] theorem atT_dict (t : Nat) (s : State) : (atT t s).dict = s.dict := rfl
@[simp] theorem atT_boot (t : Nat) (s : State) : (atT t s).boot = s.boot := rfl
@[simp] theorem atT_pins (t : Nat) (s : State) : (atT t s).pins = s.pins := rfl
@[simp] theorem atT_power (t : Nat) (s : State) : (atT t s).power = s.power := rfl
@[simp] theorem atT_pilot (t : Nat) (s : State) : (atT t s).pilot = s.pilot := rfl
@[simp] theorem atT_record (t : Nat) (s : State) : (atT t s).record = s.record := rfl
@[simp] theorem atT_sec (t : Nat) (s : State) : (atT t s).sec = s.sec := rfl
@[simp] theorem atT_faults (t : Nat) (s : State) : (atT t s).faults = s.faults := rfl
@[simp] theorem atT_dram (t : Nat) (s : State) : (atT t s).dram = s.dram := rfl
@[simp] theorem atT_ingot (t : Nat) (s : State) : (atT t s).ingot = s.ingot := rfl
@[simp] theorem atT_vars (t : Nat) (s : State) : (atT t s).vars = s.vars := rfl
@[simp] theorem atT_kv (t : Nat) (s : State) : (atT t s).kv = s.kv := rfl
@[simp] theorem atT_sched (t : Nat) (s : State) : (atT t s).sched = s.sched := rfl
@[simp] theorem atT_engine (t : Nat) (s : State) : (atT t s).engine = s.engine := rfl
@[simp] theorem atT_links (t : Nat) (s : State) : (atT t s).links = s.links := rfl
@[simp] theorem atT_mirror (t : Nat) (s : State) : (atT t s).mirror = s.mirror := rfl
@[simp] theorem atT_out (t : Nat) (s : State) : (atT t s).out = s.out := rfl
@[simp] theorem atT_draws (t : Nat) (s : State) : (atT t s).draws = s.draws := rfl
@[simp] theorem getO_atT (t : Nat) (s : State) (j : Nat) : getO (atT t s) j = getO s j := rfl

/-! ### Writing a record entry -/

@[simp] theorem addEntry_pending (e : Bytes) (s : State) : (addEntry e s).pending = s.pending := by unfold addEntry; split <;> rfl
@[simp] theorem addEntry_time (e : Bytes) (s : State) : (addEntry e s).time = s.time := by unfold addEntry; split <;> rfl
@[simp] theorem addEntry_dict (e : Bytes) (s : State) : (addEntry e s).dict = s.dict := by unfold addEntry; split <;> rfl
@[simp] theorem addEntry_boot (e : Bytes) (s : State) : (addEntry e s).boot = s.boot := by unfold addEntry; split <;> rfl
@[simp] theorem addEntry_pins (e : Bytes) (s : State) : (addEntry e s).pins = s.pins := by unfold addEntry; split <;> rfl
@[simp] theorem addEntry_power (e : Bytes) (s : State) : (addEntry e s).power = s.power := by unfold addEntry; split <;> rfl
@[simp] theorem addEntry_pilot (e : Bytes) (s : State) : (addEntry e s).pilot = s.pilot := by unfold addEntry; split <;> rfl
@[simp] theorem addEntry_sec (e : Bytes) (s : State) : (addEntry e s).sec = s.sec := by unfold addEntry; split <;> rfl
@[simp] theorem addEntry_faults (e : Bytes) (s : State) : (addEntry e s).faults = s.faults := by unfold addEntry; split <;> rfl
@[simp] theorem addEntry_dram (e : Bytes) (s : State) : (addEntry e s).dram = s.dram := by unfold addEntry; split <;> rfl
@[simp] theorem addEntry_ingot (e : Bytes) (s : State) : (addEntry e s).ingot = s.ingot := by unfold addEntry; split <;> rfl
@[simp] theorem addEntry_vars (e : Bytes) (s : State) : (addEntry e s).vars = s.vars := by unfold addEntry; split <;> rfl
@[simp] theorem addEntry_kv (e : Bytes) (s : State) : (addEntry e s).kv = s.kv := by unfold addEntry; split <;> rfl
@[simp] theorem addEntry_sched (e : Bytes) (s : State) : (addEntry e s).sched = s.sched := by unfold addEntry; split <;> rfl
@[simp] theorem addEntry_engine (e : Bytes) (s : State) : (addEntry e s).engine = s.engine := by unfold addEntry; split <;> rfl
@[simp] theorem addEntry_links (e : Bytes) (s : State) : (addEntry e s).links = s.links := by unfold addEntry; split <;> rfl
@[simp] theorem addEntry_mirror (e : Bytes) (s : State) : (addEntry e s).mirror = s.mirror := by unfold addEntry; split <;> rfl
@[simp] theorem addEntry_out (e : Bytes) (s : State) : (addEntry e s).out = s.out := by unfold addEntry; split <;> rfl
@[simp] theorem addEntry_draws (e : Bytes) (s : State) : (addEntry e s).draws = s.draws := by unfold addEntry; split <;> rfl
@[simp] theorem getO_addEntry (e : Bytes) (s : State) (j : Nat) : getO (addEntry e s) j = getO s j := 
  getO_of_vals (by rw [addEntry_dict]) j

/-! ### Counting an activity -/

@[simp] theorem modelEnergy_pending (u c n : Nat) (s : State) : (modelEnergy u c n s).pending = s.pending := by unfold modelEnergy; split <;> rfl
@[simp] theorem modelEnergy_time (u c n : Nat) (s : State) : (modelEnergy u c n s).time = s.time := by unfold modelEnergy; split <;> rfl
@[simp] theorem modelEnergy_dict (u c n : Nat) (s : State) : (modelEnergy u c n s).dict = s.dict := by unfold modelEnergy; split <;> rfl
@[simp] theorem modelEnergy_boot (u c n : Nat) (s : State) : (modelEnergy u c n s).boot = s.boot := by unfold modelEnergy; split <;> rfl
@[simp] theorem modelEnergy_pins (u c n : Nat) (s : State) : (modelEnergy u c n s).pins = s.pins := by unfold modelEnergy; split <;> rfl
@[simp] theorem modelEnergy_pilot (u c n : Nat) (s : State) : (modelEnergy u c n s).pilot = s.pilot := by unfold modelEnergy; split <;> rfl
@[simp] theorem modelEnergy_record (u c n : Nat) (s : State) : (modelEnergy u c n s).record = s.record := by unfold modelEnergy; split <;> rfl
@[simp] theorem modelEnergy_sec (u c n : Nat) (s : State) : (modelEnergy u c n s).sec = s.sec := by unfold modelEnergy; split <;> rfl
@[simp] theorem modelEnergy_faults (u c n : Nat) (s : State) : (modelEnergy u c n s).faults = s.faults := by unfold modelEnergy; split <;> rfl
@[simp] theorem modelEnergy_dram (u c n : Nat) (s : State) : (modelEnergy u c n s).dram = s.dram := by unfold modelEnergy; split <;> rfl
@[simp] theorem modelEnergy_ingot (u c n : Nat) (s : State) : (modelEnergy u c n s).ingot = s.ingot := by unfold modelEnergy; split <;> rfl
@[simp] theorem modelEnergy_vars (u c n : Nat) (s : State) : (modelEnergy u c n s).vars = s.vars := by unfold modelEnergy; split <;> rfl
@[simp] theorem modelEnergy_kv (u c n : Nat) (s : State) : (modelEnergy u c n s).kv = s.kv := by unfold modelEnergy; split <;> rfl
@[simp] theorem modelEnergy_sched (u c n : Nat) (s : State) : (modelEnergy u c n s).sched = s.sched := by unfold modelEnergy; split <;> rfl
@[simp] theorem modelEnergy_engine (u c n : Nat) (s : State) : (modelEnergy u c n s).engine = s.engine := by unfold modelEnergy; split <;> rfl
@[simp] theorem modelEnergy_links (u c n : Nat) (s : State) : (modelEnergy u c n s).links = s.links := by unfold modelEnergy; split <;> rfl
@[simp] theorem modelEnergy_mirror (u c n : Nat) (s : State) : (modelEnergy u c n s).mirror = s.mirror := by unfold modelEnergy; split <;> rfl
@[simp] theorem modelEnergy_out (u c n : Nat) (s : State) : (modelEnergy u c n s).out = s.out := by unfold modelEnergy; split <;> rfl
@[simp] theorem modelEnergy_draws (u c n : Nat) (s : State) : (modelEnergy u c n s).draws = s.draws := by unfold modelEnergy; split <;> rfl
@[simp] theorem getO_modelEnergy (u c n : Nat) (s : State) (j : Nat) : getO (modelEnergy u c n s) j = getO s j := 
  getO_of_vals (by rw [modelEnergy_dict]) j

/-! ### Charging a unit -/

@[simp] theorem chargeUnit_pending (k : UnitKind) (i : Nat) (s : State) : (chargeUnit k i s).pending = s.pending := rfl
@[simp] theorem chargeUnit_time (k : UnitKind) (i : Nat) (s : State) : (chargeUnit k i s).time = s.time := rfl
@[simp] theorem chargeUnit_dict (k : UnitKind) (i : Nat) (s : State) : (chargeUnit k i s).dict = s.dict := rfl
@[simp] theorem chargeUnit_boot (k : UnitKind) (i : Nat) (s : State) : (chargeUnit k i s).boot = s.boot := rfl
@[simp] theorem chargeUnit_pins (k : UnitKind) (i : Nat) (s : State) : (chargeUnit k i s).pins = s.pins := rfl
@[simp] theorem chargeUnit_power (k : UnitKind) (i : Nat) (s : State) : (chargeUnit k i s).power = s.power := rfl
@[simp] theorem chargeUnit_pilot (k : UnitKind) (i : Nat) (s : State) : (chargeUnit k i s).pilot = s.pilot := rfl
@[simp] theorem chargeUnit_record (k : UnitKind) (i : Nat) (s : State) : (chargeUnit k i s).record = s.record := rfl
@[simp] theorem chargeUnit_sec (k : UnitKind) (i : Nat) (s : State) : (chargeUnit k i s).sec = s.sec := rfl
@[simp] theorem chargeUnit_dram (k : UnitKind) (i : Nat) (s : State) : (chargeUnit k i s).dram = s.dram := rfl
@[simp] theorem chargeUnit_ingot (k : UnitKind) (i : Nat) (s : State) : (chargeUnit k i s).ingot = s.ingot := rfl
@[simp] theorem chargeUnit_vars (k : UnitKind) (i : Nat) (s : State) : (chargeUnit k i s).vars = s.vars := rfl
@[simp] theorem chargeUnit_kv (k : UnitKind) (i : Nat) (s : State) : (chargeUnit k i s).kv = s.kv := rfl
@[simp] theorem chargeUnit_sched (k : UnitKind) (i : Nat) (s : State) : (chargeUnit k i s).sched = s.sched := rfl
@[simp] theorem chargeUnit_engine (k : UnitKind) (i : Nat) (s : State) : (chargeUnit k i s).engine = s.engine := rfl
@[simp] theorem chargeUnit_links (k : UnitKind) (i : Nat) (s : State) : (chargeUnit k i s).links = s.links := rfl
@[simp] theorem chargeUnit_mirror (k : UnitKind) (i : Nat) (s : State) : (chargeUnit k i s).mirror = s.mirror := rfl
@[simp] theorem chargeUnit_out (k : UnitKind) (i : Nat) (s : State) : (chargeUnit k i s).out = s.out := rfl
@[simp] theorem chargeUnit_draws (k : UnitKind) (i : Nat) (s : State) : (chargeUnit k i s).draws = s.draws := rfl
@[simp] theorem getO_chargeUnit (k : UnitKind) (i : Nat) (s : State) (j : Nat) : getO (chargeUnit k i s) j = getO s j := rfl

/-! ### Writing a fault log entry -/

@[simp] theorem logFault_pending (e : Bytes) (s : State) : (logFault e s).pending = s.pending := by simp only [logFault]
@[simp] theorem logFault_time (e : Bytes) (s : State) : (logFault e s).time = s.time := by simp only [logFault]
@[simp] theorem logFault_dict (e : Bytes) (s : State) : (logFault e s).dict = s.dict := by simp only [logFault]
@[simp] theorem logFault_boot (e : Bytes) (s : State) : (logFault e s).boot = s.boot := by simp only [logFault]
@[simp] theorem logFault_pins (e : Bytes) (s : State) : (logFault e s).pins = s.pins := by simp only [logFault]
@[simp] theorem logFault_power (e : Bytes) (s : State) : (logFault e s).power = s.power := by simp only [logFault]
@[simp] theorem logFault_pilot (e : Bytes) (s : State) : (logFault e s).pilot = s.pilot := by simp only [logFault]
@[simp] theorem logFault_record (e : Bytes) (s : State) : (logFault e s).record = s.record := by simp only [logFault]
@[simp] theorem logFault_sec (e : Bytes) (s : State) : (logFault e s).sec = s.sec := by simp only [logFault]
@[simp] theorem logFault_dram (e : Bytes) (s : State) : (logFault e s).dram = s.dram := by simp only [logFault]
@[simp] theorem logFault_ingot (e : Bytes) (s : State) : (logFault e s).ingot = s.ingot := by simp only [logFault]
@[simp] theorem logFault_vars (e : Bytes) (s : State) : (logFault e s).vars = s.vars := by simp only [logFault]
@[simp] theorem logFault_kv (e : Bytes) (s : State) : (logFault e s).kv = s.kv := by simp only [logFault]
@[simp] theorem logFault_sched (e : Bytes) (s : State) : (logFault e s).sched = s.sched := by simp only [logFault]
@[simp] theorem logFault_engine (e : Bytes) (s : State) : (logFault e s).engine = s.engine := by simp only [logFault]
@[simp] theorem logFault_links (e : Bytes) (s : State) : (logFault e s).links = s.links := by simp only [logFault]
@[simp] theorem logFault_mirror (e : Bytes) (s : State) : (logFault e s).mirror = s.mirror := by simp only [logFault]
@[simp] theorem logFault_out (e : Bytes) (s : State) : (logFault e s).out = s.out := by simp only [logFault]
@[simp] theorem logFault_draws (e : Bytes) (s : State) : (logFault e s).draws = s.draws := by simp only [logFault]
@[simp] theorem getO_logFault (e : Bytes) (s : State) (j : Nat) : getO (logFault e s) j = getO s j := 
  getO_of_vals (by rw [logFault_dict]) j

/-! ### What a fault's class asks for -/

@[simp] theorem faultActs_pending (cls code : Nat) (s : State) : (faultActs cls code s).pending = s.pending := by unfold faultActs; split <;> rfl
@[simp] theorem faultActs_time (cls code : Nat) (s : State) : (faultActs cls code s).time = s.time := by unfold faultActs; split <;> rfl
@[simp] theorem faultActs_dict (cls code : Nat) (s : State) : (faultActs cls code s).dict = s.dict := by unfold faultActs; split <;> rfl
@[simp] theorem faultActs_boot (cls code : Nat) (s : State) : (faultActs cls code s).boot = s.boot := by unfold faultActs; split <;> rfl
@[simp] theorem faultActs_pins (cls code : Nat) (s : State) : (faultActs cls code s).pins = s.pins := by unfold faultActs; split <;> rfl
@[simp] theorem faultActs_power (cls code : Nat) (s : State) : (faultActs cls code s).power = s.power := by unfold faultActs; split <;> rfl
@[simp] theorem faultActs_pilot (cls code : Nat) (s : State) : (faultActs cls code s).pilot = s.pilot := by unfold faultActs; split <;> rfl
@[simp] theorem faultActs_record (cls code : Nat) (s : State) : (faultActs cls code s).record = s.record := by unfold faultActs; split <;> rfl
@[simp] theorem faultActs_sec (cls code : Nat) (s : State) : (faultActs cls code s).sec = s.sec := by unfold faultActs; split <;> rfl
@[simp] theorem faultActs_dram (cls code : Nat) (s : State) : (faultActs cls code s).dram = s.dram := by unfold faultActs; split <;> rfl
@[simp] theorem faultActs_ingot (cls code : Nat) (s : State) : (faultActs cls code s).ingot = s.ingot := by unfold faultActs; split <;> rfl
@[simp] theorem faultActs_vars (cls code : Nat) (s : State) : (faultActs cls code s).vars = s.vars := by unfold faultActs; split <;> rfl
@[simp] theorem faultActs_kv (cls code : Nat) (s : State) : (faultActs cls code s).kv = s.kv := by unfold faultActs; split <;> rfl
@[simp] theorem faultActs_sched (cls code : Nat) (s : State) : (faultActs cls code s).sched = s.sched := by unfold faultActs; split <;> rfl
@[simp] theorem faultActs_engine (cls code : Nat) (s : State) : (faultActs cls code s).engine = s.engine := by unfold faultActs; split <;> rfl
@[simp] theorem faultActs_links (cls code : Nat) (s : State) : (faultActs cls code s).links = s.links := by unfold faultActs; split <;> rfl
@[simp] theorem faultActs_mirror (cls code : Nat) (s : State) : (faultActs cls code s).mirror = s.mirror := by unfold faultActs; split <;> rfl
@[simp] theorem faultActs_out (cls code : Nat) (s : State) : (faultActs cls code s).out = s.out := by unfold faultActs; split <;> rfl
@[simp] theorem faultActs_draws (cls code : Nat) (s : State) : (faultActs cls code s).draws = s.draws := by unfold faultActs; split <;> rfl
@[simp] theorem getO_faultActs (cls code : Nat) (s : State) (j : Nat) : getO (faultActs cls code s) j = getO s j := 
  getO_of_vals (by rw [faultActs_dict]) j

/-! ### Raising a fault -/

@[simp] theorem raiseFault_pending (code : Nat) (kind : UnitKind) (i : Nat) (r : Option Nat) (d : Nat) (s : State) : (raiseFault code kind i r d s).pending = s.pending := by
  rw [raiseFault, faultActs_pending]; split <;> simp
@[simp] theorem raiseFault_time (code : Nat) (kind : UnitKind) (i : Nat) (r : Option Nat) (d : Nat) (s : State) : (raiseFault code kind i r d s).time = s.time := by
  rw [raiseFault, faultActs_time]; split <;> simp
@[simp] theorem raiseFault_dict (code : Nat) (kind : UnitKind) (i : Nat) (r : Option Nat) (d : Nat) (s : State) : (raiseFault code kind i r d s).dict = s.dict := by
  rw [raiseFault, faultActs_dict]; split <;> simp
@[simp] theorem raiseFault_boot (code : Nat) (kind : UnitKind) (i : Nat) (r : Option Nat) (d : Nat) (s : State) : (raiseFault code kind i r d s).boot = s.boot := by
  rw [raiseFault, faultActs_boot]; split <;> simp
@[simp] theorem raiseFault_pins (code : Nat) (kind : UnitKind) (i : Nat) (r : Option Nat) (d : Nat) (s : State) : (raiseFault code kind i r d s).pins = s.pins := by
  rw [raiseFault, faultActs_pins]; split <;> simp
@[simp] theorem raiseFault_power (code : Nat) (kind : UnitKind) (i : Nat) (r : Option Nat) (d : Nat) (s : State) : (raiseFault code kind i r d s).power = s.power := by
  rw [raiseFault, faultActs_power]; split <;> simp
@[simp] theorem raiseFault_pilot (code : Nat) (kind : UnitKind) (i : Nat) (r : Option Nat) (d : Nat) (s : State) : (raiseFault code kind i r d s).pilot = s.pilot := by
  rw [raiseFault, faultActs_pilot]; split <;> simp
@[simp] theorem raiseFault_record (code : Nat) (kind : UnitKind) (i : Nat) (r : Option Nat) (d : Nat) (s : State) : (raiseFault code kind i r d s).record = s.record := by
  rw [raiseFault, faultActs_record]; split <;> simp
@[simp] theorem raiseFault_sec (code : Nat) (kind : UnitKind) (i : Nat) (r : Option Nat) (d : Nat) (s : State) : (raiseFault code kind i r d s).sec = s.sec := by
  rw [raiseFault, faultActs_sec]; split <;> simp
@[simp] theorem raiseFault_dram (code : Nat) (kind : UnitKind) (i : Nat) (r : Option Nat) (d : Nat) (s : State) : (raiseFault code kind i r d s).dram = s.dram := by
  rw [raiseFault, faultActs_dram]; split <;> simp
@[simp] theorem raiseFault_ingot (code : Nat) (kind : UnitKind) (i : Nat) (r : Option Nat) (d : Nat) (s : State) : (raiseFault code kind i r d s).ingot = s.ingot := by
  rw [raiseFault, faultActs_ingot]; split <;> simp
@[simp] theorem raiseFault_vars (code : Nat) (kind : UnitKind) (i : Nat) (r : Option Nat) (d : Nat) (s : State) : (raiseFault code kind i r d s).vars = s.vars := by
  rw [raiseFault, faultActs_vars]; split <;> simp
@[simp] theorem raiseFault_kv (code : Nat) (kind : UnitKind) (i : Nat) (r : Option Nat) (d : Nat) (s : State) : (raiseFault code kind i r d s).kv = s.kv := by
  rw [raiseFault, faultActs_kv]; split <;> simp
@[simp] theorem raiseFault_sched (code : Nat) (kind : UnitKind) (i : Nat) (r : Option Nat) (d : Nat) (s : State) : (raiseFault code kind i r d s).sched = s.sched := by
  rw [raiseFault, faultActs_sched]; split <;> simp
@[simp] theorem raiseFault_engine (code : Nat) (kind : UnitKind) (i : Nat) (r : Option Nat) (d : Nat) (s : State) : (raiseFault code kind i r d s).engine = s.engine := by
  rw [raiseFault, faultActs_engine]; split <;> simp
@[simp] theorem raiseFault_links (code : Nat) (kind : UnitKind) (i : Nat) (r : Option Nat) (d : Nat) (s : State) : (raiseFault code kind i r d s).links = s.links := by
  rw [raiseFault, faultActs_links]; split <;> simp
@[simp] theorem raiseFault_mirror (code : Nat) (kind : UnitKind) (i : Nat) (r : Option Nat) (d : Nat) (s : State) : (raiseFault code kind i r d s).mirror = s.mirror := by
  rw [raiseFault, faultActs_mirror]; split <;> simp
@[simp] theorem raiseFault_out (code : Nat) (kind : UnitKind) (i : Nat) (r : Option Nat) (d : Nat) (s : State) : (raiseFault code kind i r d s).out = s.out := by
  rw [raiseFault, faultActs_out]; split <;> simp
@[simp] theorem raiseFault_draws (code : Nat) (kind : UnitKind) (i : Nat) (r : Option Nat) (d : Nat) (s : State) : (raiseFault code kind i r d s).draws = s.draws := by
  rw [raiseFault, faultActs_draws]; split <;> simp
@[simp] theorem getO_raiseFault (code : Nat) (kind : UnitKind) (i : Nat) (r : Option Nat) (d : Nat) (s : State) (j : Nat) : getO (raiseFault code kind i r d s) j = getO s j := 
  getO_of_vals (by rw [raiseFault_dict]) j

/-! ### Noting a recast -/

@[simp] theorem recast_pending (k c o n d : Nat) (s : State) : (recast k c o n d s).pending = s.pending := rfl
@[simp] theorem recast_time (k c o n d : Nat) (s : State) : (recast k c o n d s).time = s.time := rfl
@[simp] theorem recast_dict (k c o n d : Nat) (s : State) : (recast k c o n d s).dict = s.dict := rfl
@[simp] theorem recast_boot (k c o n d : Nat) (s : State) : (recast k c o n d s).boot = s.boot := rfl
@[simp] theorem recast_pins (k c o n d : Nat) (s : State) : (recast k c o n d s).pins = s.pins := rfl
@[simp] theorem recast_power (k c o n d : Nat) (s : State) : (recast k c o n d s).power = s.power := rfl
@[simp] theorem recast_pilot (k c o n d : Nat) (s : State) : (recast k c o n d s).pilot = s.pilot := rfl
@[simp] theorem recast_record (k c o n d : Nat) (s : State) : (recast k c o n d s).record = s.record := rfl
@[simp] theorem recast_sec (k c o n d : Nat) (s : State) : (recast k c o n d s).sec = s.sec := rfl
@[simp] theorem recast_dram (k c o n d : Nat) (s : State) : (recast k c o n d s).dram = s.dram := rfl
@[simp] theorem recast_ingot (k c o n d : Nat) (s : State) : (recast k c o n d s).ingot = s.ingot := rfl
@[simp] theorem recast_vars (k c o n d : Nat) (s : State) : (recast k c o n d s).vars = s.vars := rfl
@[simp] theorem recast_kv (k c o n d : Nat) (s : State) : (recast k c o n d s).kv = s.kv := rfl
@[simp] theorem recast_sched (k c o n d : Nat) (s : State) : (recast k c o n d s).sched = s.sched := rfl
@[simp] theorem recast_engine (k c o n d : Nat) (s : State) : (recast k c o n d s).engine = s.engine := rfl
@[simp] theorem recast_links (k c o n d : Nat) (s : State) : (recast k c o n d s).links = s.links := rfl
@[simp] theorem recast_mirror (k c o n d : Nat) (s : State) : (recast k c o n d s).mirror = s.mirror := rfl
@[simp] theorem recast_out (k c o n d : Nat) (s : State) : (recast k c o n d s).out = s.out := rfl
@[simp] theorem recast_draws (k c o n d : Nat) (s : State) : (recast k c o n d s).draws = s.draws := rfl
@[simp] theorem getO_recast (k c o n d : Nat) (s : State) (j : Nat) : getO (recast k c o n d s) j = getO s j := rfl

/-! ### Changing an access context -/

@[simp] theorem ctxMod_pending (c : AccessCtx) (f : CtxObjs → CtxObjs) (s : State) : (ctxMod c f s).pending = s.pending := rfl
@[simp] theorem ctxMod_time (c : AccessCtx) (f : CtxObjs → CtxObjs) (s : State) : (ctxMod c f s).time = s.time := rfl
@[simp] theorem ctxMod_boot (c : AccessCtx) (f : CtxObjs → CtxObjs) (s : State) : (ctxMod c f s).boot = s.boot := rfl
@[simp] theorem ctxMod_pins (c : AccessCtx) (f : CtxObjs → CtxObjs) (s : State) : (ctxMod c f s).pins = s.pins := rfl
@[simp] theorem ctxMod_power (c : AccessCtx) (f : CtxObjs → CtxObjs) (s : State) : (ctxMod c f s).power = s.power := rfl
@[simp] theorem ctxMod_pilot (c : AccessCtx) (f : CtxObjs → CtxObjs) (s : State) : (ctxMod c f s).pilot = s.pilot := rfl
@[simp] theorem ctxMod_record (c : AccessCtx) (f : CtxObjs → CtxObjs) (s : State) : (ctxMod c f s).record = s.record := rfl
@[simp] theorem ctxMod_sec (c : AccessCtx) (f : CtxObjs → CtxObjs) (s : State) : (ctxMod c f s).sec = s.sec := rfl
@[simp] theorem ctxMod_faults (c : AccessCtx) (f : CtxObjs → CtxObjs) (s : State) : (ctxMod c f s).faults = s.faults := rfl
@[simp] theorem ctxMod_dram (c : AccessCtx) (f : CtxObjs → CtxObjs) (s : State) : (ctxMod c f s).dram = s.dram := rfl
@[simp] theorem ctxMod_ingot (c : AccessCtx) (f : CtxObjs → CtxObjs) (s : State) : (ctxMod c f s).ingot = s.ingot := rfl
@[simp] theorem ctxMod_vars (c : AccessCtx) (f : CtxObjs → CtxObjs) (s : State) : (ctxMod c f s).vars = s.vars := rfl
@[simp] theorem ctxMod_kv (c : AccessCtx) (f : CtxObjs → CtxObjs) (s : State) : (ctxMod c f s).kv = s.kv := rfl
@[simp] theorem ctxMod_sched (c : AccessCtx) (f : CtxObjs → CtxObjs) (s : State) : (ctxMod c f s).sched = s.sched := rfl
@[simp] theorem ctxMod_engine (c : AccessCtx) (f : CtxObjs → CtxObjs) (s : State) : (ctxMod c f s).engine = s.engine := rfl
@[simp] theorem ctxMod_links (c : AccessCtx) (f : CtxObjs → CtxObjs) (s : State) : (ctxMod c f s).links = s.links := rfl
@[simp] theorem ctxMod_mirror (c : AccessCtx) (f : CtxObjs → CtxObjs) (s : State) : (ctxMod c f s).mirror = s.mirror := rfl
@[simp] theorem ctxMod_out (c : AccessCtx) (f : CtxObjs → CtxObjs) (s : State) : (ctxMod c f s).out = s.out := rfl
@[simp] theorem ctxMod_draws (c : AccessCtx) (f : CtxObjs → CtxObjs) (s : State) : (ctxMod c f s).draws = s.draws := rfl

/-! ### Dropping an access context -/

@[simp] theorem ctxDrop_pending (c : AccessCtx) (s : State) : (ctxDrop c s).pending = s.pending := rfl
@[simp] theorem ctxDrop_time (c : AccessCtx) (s : State) : (ctxDrop c s).time = s.time := rfl
@[simp] theorem ctxDrop_boot (c : AccessCtx) (s : State) : (ctxDrop c s).boot = s.boot := rfl
@[simp] theorem ctxDrop_pins (c : AccessCtx) (s : State) : (ctxDrop c s).pins = s.pins := rfl
@[simp] theorem ctxDrop_power (c : AccessCtx) (s : State) : (ctxDrop c s).power = s.power := rfl
@[simp] theorem ctxDrop_pilot (c : AccessCtx) (s : State) : (ctxDrop c s).pilot = s.pilot := rfl
@[simp] theorem ctxDrop_record (c : AccessCtx) (s : State) : (ctxDrop c s).record = s.record := rfl
@[simp] theorem ctxDrop_sec (c : AccessCtx) (s : State) : (ctxDrop c s).sec = s.sec := rfl
@[simp] theorem ctxDrop_faults (c : AccessCtx) (s : State) : (ctxDrop c s).faults = s.faults := rfl
@[simp] theorem ctxDrop_dram (c : AccessCtx) (s : State) : (ctxDrop c s).dram = s.dram := rfl
@[simp] theorem ctxDrop_ingot (c : AccessCtx) (s : State) : (ctxDrop c s).ingot = s.ingot := rfl
@[simp] theorem ctxDrop_vars (c : AccessCtx) (s : State) : (ctxDrop c s).vars = s.vars := rfl
@[simp] theorem ctxDrop_kv (c : AccessCtx) (s : State) : (ctxDrop c s).kv = s.kv := rfl
@[simp] theorem ctxDrop_sched (c : AccessCtx) (s : State) : (ctxDrop c s).sched = s.sched := rfl
@[simp] theorem ctxDrop_engine (c : AccessCtx) (s : State) : (ctxDrop c s).engine = s.engine := rfl
@[simp] theorem ctxDrop_links (c : AccessCtx) (s : State) : (ctxDrop c s).links = s.links := rfl
@[simp] theorem ctxDrop_mirror (c : AccessCtx) (s : State) : (ctxDrop c s).mirror = s.mirror := rfl
@[simp] theorem ctxDrop_out (c : AccessCtx) (s : State) : (ctxDrop c s).out = s.out := rfl
@[simp] theorem ctxDrop_draws (c : AccessCtx) (s : State) : (ctxDrop c s).draws = s.draws := rfl

/-! ### What each shared operation does to the part it changes -/

/-- A sent event stands last. -/
@[simp] theorem emit_out (e : OutEvent) (s : State) : (emit e s).out = s.out ++ [e] := rfl

/-- Device time reaches the instant, and never goes back. -/
@[simp] theorem atT_now (t : Nat) (s : State) : (atT t s).time.now = max s.time.now (s.time.tickStart + t).toNat := rfl
@[simp] theorem atT_tickNo (t : Nat) (s : State) : (atT t s).time.tickNo = s.time.tickNo := rfl
@[simp] theorem atT_tickStart (t : Nat) (s : State) : (atT t s).time.tickStart = s.time.tickStart := rfl
@[simp] theorem atT_tickLen (t : Nat) (s : State) : (atT t s).time.tickLen = s.time.tickLen := rfl
@[simp] theorem atT_phase (t : Nat) (s : State) : (atT t s).time.phase = s.time.phase := rfl

/-- An entry goes into the open record, or into the next one (R50). -/
theorem addEntry_record (e : Bytes) (s : State) : (addEntry e s).record =
    if s.record.sealedNow then { s.record with next := s.record.next ++ [e] }
    else { s.record with entries := s.record.entries ++ [e] } := by
  unfold addEntry; split <;> rfl

/-- The fault log holds the entry last, and at most 256 (R413). -/
theorem logFault_log (e : Bytes) (s : State) :
    (logFault e s).faults.log = (s.faults.log ++ [e]).drop ((s.faults.log ++ [e]).length - 256) := by simp only [logFault]

/-- A free value advances the draw counter. -/
@[simp] theorem draw_draws (s : State) : (draw s).2.draws = s.draws + 1 := rfl
@[simp] theorem draw_val (s : State) : (draw s).1 = Config.freeValue s.draws := rfl
@[simp] theorem drawBytes_draws (n : Nat) (s : State) : (drawBytes n s).2.draws = s.draws + 1 := rfl

end Sys2Proof.Machine
end

