-- ==== Sys2Proof/Tests/Slice0.lean ====
section
/-! SUPPORT. Small tests of the model against the spec's own values, and a witness for each statement's hypotheses. -/

set_option Elab.async false

namespace Sys2Proof.Tests

open Sys2Proof Sys2Proof.Machine

/-! ### States the tests start from -/

/-- A part in service, on no grid yet. -/
def on : State := { State.reset with boot := { State.reset.boot with porstN := true, chip := .active } }

/-- A state with some objects set. -/
def setAll (l : List (Nat × Nat)) (s : State) : State := l.foldl (fun s e => setO s e.1 e.2) s

/-- A part on its way through start-up, with VIO on, at a stage. -/
def booting (stage : Nat) : State := setO { on with boot := { on.boot with
  chip := .waking
  running := true
  railOn := [false, false, false, true, false, false, false] } } oBootStage stage

/-- The owner's access and an operator's, each over a session. -/
def own : Access := ⟨.owner, .session 1, false⟩

def oper : Access := ⟨.operator, .session 2, false⟩

/-! ### Witnesses: each statement's hypotheses are met -/

theorem witness_StartUpBegins :
    State.reset.boot.porstN = false ∧
    (let s := booting 1;
      s.boot.running = true ∧ nth false s.boot.railOn 3 = true ∧ nth false s.boot.railGood 3 = false ∧
      railOrder.find? (fun x => !nth false (s.boot.railGood.set 3 true) x) = some 1 ∧ nth false s.boot.railOn 1 = false ∧
      railsCool s = true) ∧
    (let s := { booting 1 with boot := { (booting 1).boot with
        railOn := List.replicate 7 true
        railGood := [true, true, true, true, false, false, false] } };
      s.boot.running = true ∧ nth false s.boot.railOn 4 = true ∧ nth false s.boot.railGood 4 = false ∧
      ∀ x ∈ railOrder, nth false (s.boot.railGood.set 4 true) x = true) := by decide +kernel

theorem witness_StartUpStagesRun :
    atStage (booting 6) 7 = true ∧ atStage (booting 7) 8 = true ∧ (∃ d ∈ [48, 47], d < 48) ∧ (∀ d ∈ [48], 48 ≤ d) ∧
    atStage (booting 8) 9 = true ∧ TestUnit.islandPair ∈ [TestUnit.griddle 0, .islandPair] ∧
    TestUnit.expediterPair ∉ [TestUnit.griddle 67, .sieve 35] ∧ TestUnit.islandPair ∉ [TestUnit.griddle 67, .sieve 35] ∧
    atStage (booting 10) 11 = true := by decide +kernel

theorem witness_PowerDownLosesVolatileState : on.boot.porstN = true ∧
    (Instr.alwaysOnRailLoss 6 = .porstNFall ∨ Instr.alwaysOnRailLoss 6 = .alwaysOnRailLoss 5 ∨
      Instr.alwaysOnRailLoss 6 = .alwaysOnRailLoss 6) := by decide +kernel

/-- A request of a tenant, as a test holds it. -/
def someRequest : Request where
  tenant := 0
  ring := 0
  index := 0
  desc := zeros 64
  kvDesc := []
  cast := 0
  var := none
  entries := []
  bindings := []
  admitTick := 0
  admitSeq := 0
  price := 0
  chain := 0
  tokens := 0
  oversize := false
  planCrc := 0
  scratch := none
  reserved := []
  units := []
  steps := []
  status := 0
  refused := false
  finished := false
  flags := 0
  late := false
  held := false
  replays := 0
  waitSector := []
  fmts := []
  deltas := []
  distress := false
  missed := false
  repinned := false

/-- A part with one request in slot 0. -/
def withReq (r : Request) (s : State) : State := { s with sched := { s.sched with reqs := [(0, r)] } }

theorem witness_ResetWritesReset :
    (gate on own oChipReset [1] = 0 ∧ resetAllowed on = true) ∧
    (let s := withReq someRequest on;
      gate s own oChipReset [1] = 0 ∧ s.boot.chip ≠ .failed ∧ s.boot.chip ≠ .tripped ∧ s.sched.reqs ≠ []) ∧
    (gate on own oPortReset (natLe 2 65535) = 0 ∧ isSpare on = false) ∧
    (gate on own oEngineReset (natLe 1 32) = 0 ∧ inService on 32 = false) ∧
    (gate on own oEngineReset (natLe 1 103) = 0 ∧ inService on 103 = true) := by decide +kernel

/-- A part that start-up has left READY, with a ChipId. -/
def ready : State := setAll [(oBootStage, 12), (oChipId, 5)] on

theorem witness_ServiceAndIdentityWrites :
    (gate on own oServeEnable [1] = 0 ∧ getO on oBootStage ≠ 12) ∧
    (gate ready own oServeEnable (natLe 1 1) = 0 ∧ getO ready oBootStage = 12 ∧ getO ready oChipId ≠ 0xFFFF ∧
      pendingRoom (withoutOwn own oServeEnable ready) (natLe 1 1) = true) ∧
    (gate on { own with nvFails := true } oChipId (natLe 2 4095) = 0 ∧ gate on own oChipId (natLe 2 4095) = 0 ∧ own.nvFails = false) := by
  decide +kernel

/-- A part that waits to enter a spare state, or waits in one. -/
def spareTo (w : Option ChipSt) (c : ChipSt) : State := { on with boot := { on.boot with chip := c, spareWanted := w } }

theorem witness_SpareStatesAndIdle :
    (gate on own oChipStateRequest (natLe 1 2) = 0 ∧ gate on own oChipStateRequest (natLe 1 3) = 0 ∧ on.boot.chip = .active ∧
      anyRing on = false ∧ on.sched.reqs = []) ∧
    (gate (spareTo none .coldSpare) own oChipStateRequest [0] = 0 ∧ isSpare (spareTo none .coldSpare) = true) ∧
    mayEnterSpare (spareTo (some .warmSpare) .idle) = true ∧ mayEnterSpare (spareTo (some .coldSpare) .warmSpare) = true ∧
    (let s := { on with boot := { on.boot with idleBoundaries := 65535 } };
      s.boot.chip = .active ∧ inFlight s = false ∧ getO s oIdleEnterTicks ≤ s.boot.idleBoundaries) ∧
    (let s := { on with boot := { on.boot with chip := .waking, exitFrom := some .coldSpare, railOn := List.replicate 7 true
                                               railGood := List.replicate 7 true } };
      s.boot.chip = .waking ∧ s.boot.exitFrom = some .coldSpare ∧ ¬ (nextRail s = some 3 ∧ ¬ nth false s.boot.railOn 3)) ∧
    (let s := { on with boot := { on.boot with chip := .waking, exitFrom := some .warmSpare } };
      s.boot.chip = .waking ∧ s.boot.exitFrom = some .warmSpare) := by
  decide +kernel

theorem witness_SilentFaultsSilence :
    mainOn on = true ∧
    (let s := setO (withReq { someRequest with replays := 255 } on) oReplayLimit 255;
      reqGet s 0 = some { someRequest with replays := 255 } ∧ getO s oReplayLimit ≤ 255) ∧
    (let s := raiseFault 0x0144 .none 0 none 0 on;
      s.faults.silent = true ∧ s.faults.failed = false) := by decide +kernel

/-- A part whose units are charged up to their limit. -/
def charged : State := setO { on with faults := { on.faults with charges := [(.griddle, 65, 0), (.sieve, 35, 0)] } } oUnitFaultLimit 1

theorem witness_UnitsAreRecast :
    (unitCharges (atT 0 charged) .griddle 65 ≥ getO charged oUnitFaultLimit ∧ logicalOf charged 65 = some 63) ∧
    unitCharges (atT 0 charged) .sieve 35 ≥ getO charged oUnitFaultLimit ∧
    (physGriddle on 63 = some 65 ∧ spareFor (abandon 63 65 on) 63 = some 66) ∧
    (let s := { on with faults := { on.faults with spares := [] } };
      physGriddle s 0 = some 0 ∧ spareFor (abandon 0 0 s) 0 = none) ∧
    ((∀ x ∈ on.faults.sieveDue, x.1 ≠ 31) ∧ 31 ∈ on.faults.sieveStream ∧ 31 ∉ servingDense on ∧ 1 < (servingDense on).length) := by
  decide +kernel

theorem witness_HandOverRuns :
    (gate on own oHandOver [1] = 0 ∧ gate on own oHandOver [0] = 0) ∧
    (let s := { on with faults := { on.faults with planned := some 0x0135 } };
      s.faults.planned = some 0x0135 ∧ s.faults.handOver = none ∧ alive s = true ∧ getO s oBuddyChipId = 0xFFFF) ∧
    (let s := setO { on with faults := { on.faults with planned := some 0 } } oBuddyChipId 7;
      s.faults.handOver = none ∧ alive s = true ∧ getO s oBuddyChipId ≠ 0xFFFF) ∧
    (let s := { on with faults := { on.faults with handOver := some ⟨4, false⟩ }, time := { on.time with tickNo := 5 }
                        mirror := { on.mirror with wait := [(5, 0)] } };
      s.faults.handOver = some ⟨4, false⟩ ∧ 4 < s.time.tickNo ∧ (∀ w ∈ s.mirror.wait, 4 < w.1) ∧ ∀ x ∈ s.sched.held, 4 < x.1) := by
  decide +kernel

/-- A context as a test holds it. -/
def someCtx : KvCtx where
  tenant := 0
  layers := 1
  heads := 1
  dim := 60
  fmt := .a8
  vHeadroom := 0
  frozen := false
  prefixOf := none
  prefixPos := 0
  keepLimit := 60
  sink := 0
  recent := 0
  decay := 0
  specReq := 4
  specWidth := 0
  rejectRun := 0
  acceptRun := 0
  tableEntries := 1
  nextPos := 0
  specOffLeft := 0
  tokenSeq := 0
  tables := [[]]
  history := []

theorem witness_ExpiredLimitsLift :
    (let s := { on with kv := { on.kv with ctxs := [(16383, someCtx)] } };
      kvCtx s 16383 = some someCtx ∧ someCtx.specWidth = 0 ∧ someCtx.specOffLeft = 0 ∧ someCtx.specReq ≠ 0) ∧
    (let s := { on with sched := { on.sched with gates := [(9, { off := true })] } };
      (sget ({} : GateSt) s.sched.gates 9).off = true ∧ (sget ({} : GateSt) s.sched.gates 9).offLeft = 0) ∧
    (let s := { on with faults := { on.faults with criticalTicks := [(11, 65535)] } };
      getO s oThermalRecastTicks ≤ sget 0 s.faults.criticalTicks 11) := by decide +kernel

theorem witness_GridIndexIsTheTickThatHoldsAnInstant : 1 ≤ (⟨1, 0, 1, 0, 0⟩ : Grid).i := by decide

/-- A part in a tick of 1/60 s, with its first three pins, its sources and TickSourceState set. -/
def ticking (l : List (Nat × Nat)) : State := setAll l { on with time := { on.time with tickLen := 16666667 } }

theorem witness_TickSourcesAreMeasured :
    (let s := ticking [(oSyncPinFunction + 3, 1), (oTickSourceMask, 7), (oTickSyncWindowNs, 1000)];
      syncFunction s 3 = 1 ∧ sourceEnabled s 2 = true ∧ (edgeError s 1000).natAbs ≤ getO s oTickSyncWindowNs ∧
      getO s oTickSyncWindowNs < (edgeError s 1001).natAbs ∧ getO s oTickSyncWindowNs < (edgeError s 16665666).natAbs ∧
      (edgeError s 16665667).natAbs ≤ getO s oTickSyncWindowNs ∧ ∃ p < 4, syncFunction s p = 1) ∧
    sourceEnabled (ticking [(oTickSourceMask, 1)]) 1 = true ∧
    (ptpPort { ticking [] with time := { (ticking []).time with ports := [{}, { waits := some 7 }] } } 1).waits = some 7 := by
  decide +kernel

theorem witness_TickSourceStates :
    (let s := { ticking [(oTickSourceState, 3)] with time := { (ticking []).time with sync := { good := 16 } } };
      16 ≤ (track s 2).good ∧ (track s 2).locked = false ∧ getO s oTickSourceState ≠ 2) ∧
    (let s := ticking [(oTickSourceState, 2), (oTickSourceActive, 2)];
      let s := { s with time := { s.time with ptp := { good := 16 } } };
      getO s oTickSourceState = 2 ∧ getO s oTickSourceActive = 2 ∧ 16 ≤ s.time.ptp.good ∧ s.time.ptp.locked = false) ∧
    (let s := ticking [(oTickSourceState, 2), (oTickSourceActive, 1)];
      let s := { s with time := { s.time with now := 3000000000, sync := { locked := true } } };
      getO s oTickSourceState = 2 ∧ sourceLost (atT 0 s) = true ∧ getO s oTickSourceActive = 1 ∧ s.time.sync.locked = true ∧
        s.time.sync.missed < 3) ∧
    (let s := ticking [(oTickSourceState, 2), (oTickSourceActive, 2)];
      let s := { s with time := { s.time with sync := { missed := 3 } } };
      getO s oTickSourceState = 2 ∧ sourceLost (atT 0 s) = true ∧ getO s oTickSourceActive = 2) ∧
    (let s := ticking [(oTickSourceState, 1), (oTickSourceActive, 2)];
      let s := { s with time := { s.time with sync := { missed := 3 } } };
      let u := { s with time := { s.time with ptp := { seen := true } } };
      getO s oTickSourceState = 1 ∧ sourceLost (atT 0 s) = true ∧ delivers (atT 0 s) (3 - getO s oTickSourceActive) = false ∧
      getO u oTickSourceState = 1 ∧ sourceLost (atT 0 u) = true ∧ delivers (atT 0 u) (3 - getO u oTickSourceActive) = true) ∧
    (let s := ticking [(oTickSourceState, 3), (oTickHoldoverLimitMs, 2)];
      let s := { s with time := { s.time with now := 2000000, holdoverFrom := some 0 } };
      getO s oTickSourceState = 3 ∧ s.time.holdoverFrom = some 0 ∧
      0 + 1000000 * getO s oTickHoldoverLimitMs ≤ max s.time.now (s.time.tickStart + 0).toNat) := by decide +kernel

/-- A part in service at a phase of its tick. -/
def phased (p : Phase) : State := { on with time := { (ticking []).time with phase := p } }

theorem witness_TickBoundaryBeginsATick :
    (let s := phased .sealed; s.boot.porstN = true ∧ s.time.phase = .sealed ∧ s.boot.chip ≠ .tripped ∧ s.time.pend = none ∧
      s.time.placeDue = false ∧ s.time.ptpStepDue = false ∧ s.time.stepDue = none ∧ s.time.switchDue = none) ∧
    (let s := { phased .sealed with boot := { on.boot with chip := .tripped } };
      s.boot.porstN = true ∧ s.time.phase = .sealed ∧ s.boot.chip = .tripped) := by decide +kernel

theorem witness_MarksCloseTheirWindows :
    (let s := phased .window; s.time.phase = .window ∧ s.boot.porstN = true ∧ 
        admitAllowed (readRings (atT (getO s oTickAdmitNs) s)) = false) ∧
    (let s := { phased .planned with faults := { on.faults with failed := true } }; s.time.phase = .planned ∧ alive s = false) ∧
    ((phased .late).time.phase = .late ∧ (phased .late).boot.chip ≠ .tripped) ∧
    (let s := { phased .late with boot := { on.boot with chip := .tripped } }; s.time.phase = .late ∧ s.boot.chip = .tripped) := by
  decide +kernel

theorem witness_SealedRecordsChain :
    let s := { on with record := { on.record with sealedNow := false } }; s.record.sealedNow = false ∧ isSpare s = false := by decide

/-- Bytes with some fields set: offset and value of each. -/
def form (n : Nat) (l : List (Nat × Nat)) : Bytes := natLe n (sumN (l.map (fun e => e.2 * 256 ^ e.1)))

/-- Bytes closed by their CRC-16. -/
def closed (b : Bytes) : Bytes := b ++ natLe 2 (crc16 b).toNat

/-- A part that serves the last tenant: one frame of memory, its last ring with one FREEZE of context 16383 in it. -/
def serving : State :=
  let s := setAll [(oTickSourceState, 2), (oDramLiveFrames, 1), (tkey (oSubRingEntries + 3) 1023, 16),
    (tkey oCplRingBase 1023, 4096), (tkey oCplRingEntries 1023, 16), (tkey oRingFaultLimit 1023, 1)] (phased .window)
  { s with
    dram := { s.dram with tenantFrames := [(1023, [(0, 1)])], mem := [(0, 1)] }
    sched := { s.sched with serving := true }
    kv := { s.kv with ctxs := [(16383, { someCtx with tenant := 1023 })] } }

/-- The FREEZE, and one whose context does not exist. -/
def freezeDesc (c : Nat) : Bytes := closed (form 62 [(0, 4), (50, c)])

theorem witness_RingEntriesAreTaken :
    (let u := readRings serving;
      serving.time.phase = .window ∧ admitAllowed serving = true ∧ dKind (freezeDesc 1) = 4 ∧ ringHas u 1023 3 = true ∧
      (ringGet u 1023 3).consumer = 0 ∧ (ringGet u 1023 3).blocked = false ∧ tokenBarred u 1023 = false ∧ cplRoom u 1023 = true ∧
      judge u 1023 3 0 (freezeDesc 1) = .refuse 0x0018) ∧
    (let u := readRings serving;
      let d := freezeDesc 16383;
      let q := baseReq u 1023 3 0 d;
      let p := planOf u q u.sched.load;
      judge u 1023 3 0 d = .pass q 0 0 false ∧ noWait u q 0 0 false (startSteps u q p).length p = true ∧
      (if isOversize u q then clustersIdle u p
        else planFits u u.sched.load u.sched.staged u.sched.sieveLoad p (planChain u q p)) = true) ∧
    (let s := setO serving (tkey oRingFaultLimit 1023) 0; ringAtLimit s 1023 3 = true ∧ (ringGet s 1023 3).suspended = false) ∧
    (let s := setO { serving with time := { serving.time with tickNo := 1 } } oBudgetWindowTicks 1;
      windowOf s ≠ s.sched.windowStart) := by
  decide +kernel

theorem witness_MirrorReleasesHeldSets :
    (let s := { on with mirror := { on.mirror with wait := [(5, 0)] } }; (∃ w ∈ s.mirror.wait, w.1 = 5) ∧ s.mirror.snapshotTo = none) ∧
    (let s := { on with mirror := { on.mirror with wait := [(5, 0)], snapshotTo := some 7 } };
      (∃ w ∈ s.mirror.wait, w.1 = 5) ∧ s.mirror.snapshotTo ≠ none) ∧
    (let s := { on with sched := { on.sched with held := [(4, [0]), (5, [])] } };
      s.sched.held = (4, [0]) :: (5, []) :: [] ∧ s.mirror.snapshotTo = none) ∧
    (let s := setO { on with mirror := { on.mirror with snapshotTo := some 7 } } oBuddyAltChipId 7;
      s.mirror.snapshotTo.isSome = true ∧ 7 ≠ 0xFFFF ∧ 7 = getO s oBuddyAltChipId) := by decide +kernel

/-- A unit of a step, as a test holds it. -/
def someUnit : UnitSt := ⟨0, 0, 63, 0, [0], 0, .ready, 0, 0, none, 0, 0, none⟩

/-- A request with one unit of its first step. -/
def unitReq (u : UnitSt) (desc : Bytes) : Request := { someRequest with desc := desc, units := [u], steps := [{}] }

/-- A tile of that unit. -/
def someTile (drain final : Bool) : Tile := ⟨0, 0, 0, 0, 0, [], 0, 0, drain, final, false, 0, 0, 0, 0, [], 1⟩

/-- A part with that tile on its last Griddle. -/
def tiled (drain final : Bool) : State :=
  let s := withReq (unitReq { someUnit with phase := .running } (zeros 64)) (phased .planned)
  { s with engine := { s.engine with tiles := [(63, someTile drain final)] } }

/-- A request of two units of class IDLE and class LIVE on one Griddle. -/
def yielding : State :=
  let s := phased .planned
  { s with sched := { s.sched with reqs := [(0, unitReq { someUnit with phase := .running } (form 64 [(1, 3)])),
    (1, unitReq someUnit (form 64 [(0, 3)]))] } }

theorem witness_UnitsIssueDrainAndPause_issue :
    let u := { someUnit with phase := .running };
      let r := unitReq u (form 64 [(0, 3)]);
      let s := withReq r (phased .planned);
      alive s = true ∧ (physGriddle s 63).isSome = true ∧ tileGet s 63 = none ∧
      (tileGet (tiled false false) 63).any (fun t => !t.waitsDrain) = true ∧
      r.units.find? (fun x => x.step == u.step && x.unit == u.unit) = some u ∧ runningOn s 63 = some (0, r, u) ∧
      reqGet s 0 = some r ∧ passReady s r u = true := by
  decide +kernel

theorem witness_UnitsIssueDrainAndPause_dispatch :
    let r := unitReq someUnit (form 64 [(0, 3)]);
      let s := withReq r (phased .planned);
      runningOn s 63 = none ∧ (queueOf s 63).find? (fun x => unitReady s x.1 x.2.1 x.2.2) = some (0, r, someUnit) := by
  decide +kernel

theorem witness_UnitsIssueDrainAndPause_passDrain :
    let s := tiled true false;
      let u := { someUnit with phase := .running };
      let r := unitReq u (zeros 64);
      tileGet s 63 = some (someTile true false) ∧ (someTile true false).waitsDrain = true ∧ latchGet s 63 = none ∧ alive s = true ∧
      reqGet s (someTile true false).request = some r ∧ isCompact r = false ∧
      r.units.find? (fun x => x.step == 0 && x.unit == 0) = some u := by
  decide +kernel

theorem witness_UnitsIssueDrainAndPause_compare :
    let s := tiled true false;
      let u := { someUnit with phase := .running };
      let t := { someTile true false with subs := [⟨{}, [⟨[1], [0], 0, none⟩]⟩] };
      t.subs.any (fun x => passCompare (stepOf (reqRecipe s (unitReq u (zeros 64))) u.step) t.planes x == some false) = true := by
  decide +kernel

theorem witness_UnitsIssueDrainAndPause_finalDrain :
    let u := { someUnit with phase := .running };
      let r := unitReq u (zeros 64);
      let t := someTile false true;
      let s := { tiled false false with engine := { on.engine with latches := [(63, t)] } };
      latchGet s 63 = some t ∧ alive s = true ∧ tileOwner s t = some (r, u) := by
  decide +kernel

theorem witness_UnitsIssueDrainAndPause_pause :
    let u := { someUnit with phase := .running };
      let r := unitReq u (form 64 [(1, 3)]);
      let s := withReq r (phased .planned);
      runningOn s 63 = some (0, r, u) ∧ alive s = true ∧ dClass r.desc ≠ 0 := by
  decide +kernel

theorem witness_UnitsIssueDrainAndPause_resume :
    let u := { someUnit with phase := .paused };
      let r := unitReq u (form 64 [(0, 3)]);
      let s := withReq r (phased .planned);
      alive s = true ∧ runningOn s 63 = none ∧ tileGet s 63 = none ∧ (physGriddle s 63).isSome = true ∧
      (queueOf s 63).find? (fun x => unitReady s x.1 x.2.1 x.2.2) = some (0, r, u) ∧ u.phase = .paused := by
  decide +kernel

/-- The queue of the Griddle of `yielding`: the LIVE unit stands before the one that runs. -/
theorem test_queue_order : queueOf yielding 63 = [(1, unitReq someUnit (form 64 [(0, 3)]), someUnit),
    (0, unitReq { someUnit with phase := .running } (form 64 [(1, 3)]), { someUnit with phase := .running })] := by
  have h : (allUnits yielding).filter (fun x => x.2.2.griddle == 63 && x.2.2.phase != .done && x.2.2.phase != .draining) =
      [(0, unitReq { someUnit with phase := .running } (form 64 [(1, 3)]), { someUnit with phase := .running }),
        (1, unitReq someUnit (form 64 [(0, 3)]), someUnit)] := by decide +kernel
  have k : ∀ a b : Nat × Request × UnitSt, keyBefore (queueKey a.2.1 a.2.2) (queueKey b.2.1 b.2.2) = false →
      [a, b].mergeSort (fun a b => keyBefore (queueKey a.2.1 a.2.2) (queueKey b.2.1 b.2.2)) = [b, a] := by
    intro a b e
    simp [List.mergeSort, List.MergeSort.Internal.splitInTwo, e]
  rw [queueOf, h, k _ _ (by decide +kernel)]

theorem witness_UnitsIssueDrainAndPause_yield :
    let r := unitReq { someUnit with phase := .running } (form 64 [(1, 3)])
    let q := unitReq someUnit (form 64 [(0, 3)])
    runningOn yielding 63 = some (0, r, { someUnit with phase := .running }) ∧ dClass r.desc ≠ 0 ∧ dClass q.desc = 0 ∧
      (queueOf yielding 63).find? (fun x => unitReady yielding x.1 x.2.1 x.2.2) = some (1, q, someUnit) := by
  rw [test_queue_order]
  decide +kernel

theorem witness_UnitsIssueDrainAndPause_fault :
    let s := withReq someRequest on;
      reqGet s 0 = some someRequest ∧ alive s = true ∧ someRequest.refused = false ∧ someRequest.finished = false ∧
        ({ someRequest with finished := true } : Request).status = 0 ∧ 0x0101 ≤ 0x010C := by
  decide +kernel

theorem witness_DispatchAndPauseAreRecorded :
    let s := withReq (unitReq { someUnit with phase := .paused } (zeros 64)) { on with boot := { on.boot with chip := .idle } }
    unitGet s 0 0 0 = some { someUnit with phase := .paused } ∧ s.boot.chip = .idle ∧ on.boot.chip ≠ .idle ∧
      someUnit.phase ≠ .paused := by decide +kernel

/-- A cast's manifest: its blocks, one recipe, in one RECIPES region over all of them. -/
def someManifest (blocks : Nat) : Bytes := form 1024 [(44, blocks), (52, 1), (132, 1), (192, 3), (208, blocks)]

/-- A recipe of two tensors and two steps: a TOKEN_SELECT, and a sparse MATMUL with one Hopper in its plan. -/
def someRecipe : Bytes := form 448 [(4, 2), (6, 2), (20, 384), (24, 400), (132, 3), (162, 1), (216, 0xFFFFFFFFFFFFFFFF),
  (272, 2), (274, 1), (384, 0x12)]

/-- A part that holds a cast with that recipe, READY in the last slot. -/
def cooked : State := { phased .planned with ingot := { on.ingot with
  casts := [(63, { state := 4, manifest := someManifest 64 })]
  content := [(0, natLe 4 8 ++ natLe 4 448 ++ someRecipe)] } }

/-- A request that runs the recipe, with a unit of its second step on Griddle 63. -/
def someRun : Request := { unitReq { someUnit with step := 1, phase := .running } (zeros 64) with cast := 63, steps := [{}, {}] }

theorem witness_UnitsIssueDrainAndPause_tokenSelect :
    let s := withReq someRun cooked
    reqGet s 0 = some someRun ∧ isCompact someRun = false ∧ 0 < someRun.steps.length ∧ (stepOf (reqRecipe s someRun) 0).kind = 3 ∧
      (stepGet someRun 0).complete = false ∧ someRun.finished = false ∧ depsDone someRun (stepOf (reqRecipe s someRun) 0) = true ∧
      inputsDone someRun (reqRecipe s someRun) 0 (stepOf (reqRecipe s someRun) 0) = true ∧ selectAllowed s someRun = true ∧
      alive s = true ∧ someRun.waitSector = [] ∧ (tenantGet s someRun.tenant).resetting = false ∧
      (tensorAt (reqRecipe s someRun) (stepOf (reqRecipe s someRun) 0).out).isSome = true ∧
      ((tensorAt (reqRecipe s someRun) (stepOf (reqRecipe s someRun) 0).row).any (fun t =>
        (selectRows s someRun (reqRecipe s someRun) (stepOf (reqRecipe s someRun) 0) t).toBool)) = true := by decide +kernel

/-- A recipe of a sparse MATMUL over eight blocks whose row tensor, SLOTTED, has no rows, and whose entry list is empty. -/
def sparseRecipe : Bytes := form 264 [(4, 1), (6, 1), (20, 220), (24, 224), (66, 1), (112, 2), (144, 1), (148, 8), (200, 6), (227, 2)]

/-- The header of that list. -/
def sparseList : Bytes := closed (form 62 [(8, 8), (9, 0x10), (10, 240)])

/-- A part with a cast that holds the recipe, the directory of its entry lists in block 6 and the list in block 7. -/
def sparsely : State := { cooked with ingot := { cooked.ingot with
  content := [(0, natLe 4 8 ++ natLe 4 264 ++ sparseRecipe ++ zeros 16 ++ natLe 48 7 ++ sparseList)] } }

theorem witness_SparseAndGatedWork_match :
    let u := { someUnit with phase := .running };
    let r := { unitReq u (zeros 64) with cast := 63 };
    let s := atT 0 (withReq r sparsely);
    runningOn s 63 = some (0, r, u) ∧ isCompact r = false ∧
      (match tileChoices s r (reqRecipe s r) (stepOf (reqRecipe s r) u.step) u u.tile,
          passEnv s r (reqRecipe s r) (stepOf (reqRecipe s r) u.step) u with
        | .ok l, .ok e => (unbuilt s 63 0 (stepOf (reqRecipe s r) u.step) u l) == [(0, (0, 8))] &&
          (segmentTables s r e.rc e.d e.g e.sums 0 8).toBool
        | _, _ => false) = true := by decide +kernel

/-- A request whose gate has drained a step with one active block. -/
def gated (active : SMap (List Nat)) : Request :=
  { unitReq someUnit (zeros 64) with steps := [{ h := [(0, [[[.int 1 0]]])], active := active }] }

theorem witness_SparseAndGatedWork_gate :
    (let r := gated [];
      let s := withReq r on;
      reqGet s 0 = some r ∧ (sfind (stepGet r 0).h 0).isSome = true ∧ sfind (stepGet r 0).active 0 = none ∧ 0 < r.steps.length) ∧
    (let r := gated [(0, [5])];
      let s := withReq r on;
      reqGet s 0 = some r ∧ sfind (stepGet r 0).active 0 = some [5] ∧
      r.units.find? (fun x => x.step == 0 && x.unit == 0) = some someUnit ∧ 5 ∉ (stepGet r 0).predicted ∧
      5 ∉ sget [] (stepGet r 0).madeUp 0 ∧ r.finished = false) := by decide +kernel

/-- A segment of one raw record, that of block 63 with its first trit changed. -/
def someSegment : Bytes := withCrc (form 318 [(128, 320)]) ++ form 56 [(0, 2), (2, 1), (4, 384), (6, 63), (8, 1)]

/-- A part with a variant of that segment over the cast, and the banks of its last Sieve. -/
def sifting (a b : Option SieveBank) : State := { cooked with vars := { on.vars with
  slots := [(511, { state := 2, manifest := zeros 256, segments := [(0, someSegment)] })]
  sieves := [(35, { bankA := a, bankB := b })] } }

/-- Bytes closed by their CRC pass the check of R58. -/
theorem test_crc_closes (d : Bytes) : crcOk (withCrc d) = true := by
  have h : (crc16 d).toNat < 65536 := (crc16 d).isLt
  simp only [crcOk, withCrc, List.length_append, fld, sub, natLe, List.length_cons, List.length_nil]
  have e : d.length + (0 + 1 + 1) - 2 = d.length := by omega
  rw [e, List.drop_left, List.take_left]
  simp [leNat]
  omega

theorem test_natLe_length (n v : Nat) : (natLe n v).length = n := by
  induction n generalizing v with
  | zero => rfl
  | succ n ih => simp [natLe, ih]

theorem test_segment_table : segTableOk someSegment = true := by
  have h : someSegment.take 320 = withCrc (form 318 [(128, 320)]) := by
    exact List.take_left' (by simp only [withCrc, form, List.length_append, test_natLe_length])
  rw [segTableOk, h, test_crc_closes]
  decide +kernel

theorem witness_SparseAndGatedWork_table :
    sfind (varGet (sifting none none) 511).segments 0 = some someSegment ∧ segTableOk someSegment = true ∧
      (sieveGet (sifting (some ⟨511, 0, 0, [], 1⟩) none) 35).bankB = none ∧
      (sieveGet (sifting (some ⟨511, 0, 0, [], 1⟩) (some ⟨511, 1, 0, [], 1⟩)) 35).bankA = some ⟨511, 0, 0, [], 1⟩ :=
  ⟨rfl, test_segment_table, by decide +kernel, by decide +kernel⟩

/-- The segment's record. -/
def someRecord : DbHeader × Bytes := (⟨2, 0, 1, 0, 384, 63⟩, 1 :: zeros 47)

theorem witness_SparseAndGatedWork_decode :
    let s := sifting (some ⟨511, 0, 0, [], 0⟩) none
    recordOf (varGet s 511) 63 = .ok (some (someSegment, none, someRecord)) ∧ castByRoot s (mRoot (varGet s 511).manifest) = some 63 ∧
      bankIs 511 0 (byteAt someSegment 4) (sieveGet s 35).bankA = true ∧
      (mergeRecord (headerLens someSegment) (byteAt someSegment 4) none someRecord (baseTrits s 63 63)).toBool = true := by
  refine ⟨?_, by decide +kernel, by decide +kernel, by decide +kernel⟩
  have h : sfind (varGet (sifting (some ⟨511, 0, 0, [], 0⟩) none) 511).segments (63 / 8192) = some someSegment := rfl
  have w : walkRecords (63 % 8192) none (segRecords someSegment 8192 (spanStart someSegment (63 % 8192))) =
      .ok (some (none, someRecord)) := by decide +kernel
  rw [recordOf, h]
  simp only [test_segment_table, not_true_eq_false, if_false, w]

/-- A part with one Hopper bound on Griddle 0, at a fill. -/
def hopping (head tail : Nat) (f : TileStore → TileStore) : State := { withReq someRun cooked with engine := { on.engine with
  stores := [(0, f { hoppers := (List.replicate 16 {}).set 15 { size := 4096, head := head, tail := tail, bound := true, slot := 2, step := 1 } })] } }

theorem witness_HoppersCarryBursts :
    (let s := hopping 63 0 id;
      let h := nth {} (storeGet s 0).hoppers 15;
      physGriddle s 0 = some 0 ∧ (zeros 64).length = 64 ∧ h.bound = true ∧ hopperFill h < hopperBursts h ∧
      15 < (storeGet s 0).hoppers.length) ∧
    (let s := hopping 64 0 id; hopperBursts (nth {} (storeGet s 0).hoppers 15) ≤ hopperFill (nth {} (storeGet s 0).hoppers 15)) ∧
    (let s := hopping 1 0 id;
      let h := nth {} (storeGet s 0).hoppers 15;
      h.bound = true ∧ ((boundPlan s h).any (fun pl => (readPlan pl (hopperFmt s h pl)).need h.offset ≤ hopperFill h &&
        (storeGet (hopping 1 0 (fun t => { t with poison := [0] })) 0).poison.contains
          (hopperBurst h (h.tail + (readPlan pl (hopperFmt s h pl)).place h.offset)))) = true) ∧
    (let s := hopping 1 0 id;
      let h := nth {} (storeGet s 0).hoppers 15;
      (boundPlan s h).any (fun _ => (nth {} (storeGet (modelEnergy (modelUnit 4 0) 3 1 (storeMod 0 (hopperMod 15 (fun h =>
        { h with emptySince := none })) (addO (atT 0 s) oHopperEmptyStallCycles (stallCycles (atT 0 s) h.emptySince)))) 0).hoppers 15).bound) = true) ∧
    (let s := hopping 64 64 id;
      let h := nth {} (storeGet s 0).hoppers 15;
      (boundPlan s h).any (fun pl => hopperFill h < (readPlan pl (hopperFmt s h pl)).need h.offset) = true) ∧
    (alive on = true ∧ stepLeft on 0 0 0 = true) := by decide +kernel

/-- A burst that nothing has written is sound. -/
theorem test_burst_sound (t : TileStore) (b : Nat) (h : t.poison = []) (h2 : t.bursts = []) (h3 : t.checks = []) :
    burstSound t b = true := by
  simp [burstSound, burstGet, sget, sfind, h, h2, h3]

theorem witness_HoppersCarryBursts_scrub :
    (let s := hopping 1 0 id; on.boot.porstN = true ∧ burstFilled (storeGet s 0) (storeGet s 0).scrubAt = true ∧
      burstSound (storeGet s 0) (storeGet s 0).scrubAt = true) ∧
    (let s := hopping 1 0 (fun t => { t with scrubAt := 32767, poison := [32767] });
      burstFilled (storeGet s 0) (storeGet s 0).scrubAt = false ∧ burstSound (storeGet s 0) (storeGet s 0).scrubAt = false) :=
  ⟨⟨by decide +kernel, by decide +kernel, test_burst_sound _ _ rfl rfl rfl⟩, by decide +kernel⟩

theorem witness_HoppersCarryBursts_clean (b : Nat) : burstSound (storeGet (hopping 1 0 id) 0) b = true :=
  test_burst_sound _ b rfl rfl rfl

theorem witness_HoppersCarryBursts_again :
    (let s := hopping 1 0 (fun t => { t with errors := [(5, 0)] });
      let s := { s with time := { s.time with now := 999999999 } };
      (∃ e ∈ (storeGet s 0).errors, e.1 = 5 ∧ within s e.2 1000000000 = true) ∧
      logicalOf (raiseFault 0x0120 .tileStore 0 none 5 (bump s oTileStoreHardCount)) 0 = some 0) ∧
    (let s := hopping 1 0 (fun t => { t with errors := [(5, 0)] });
      let s := { s with time := { s.time with now := 1000000001 } };
      ∀ e ∈ (storeGet s 0).errors, e.1 = 5 → within s e.2 1000000000 = false) := by decide +kernel

/-- The cast with an invalid TP5 code in a TILES region: its last block. -/
def badTile : State := { cooked with ingot := { cooked.ingot with
  casts := [(63, { state := 4, manifest := form 1024 [(44, 64), (52, 1), (192, 1), (208, 64)] })]
  content := [(0, zeros 3071 ++ [243])] } }

/-- The cast with the root of its one leaf, and the digest sector of that leaf stored. -/
def digestedWith (d : Bytes) : State := { cooked with ingot := { cooked.ingot with
  casts := [(63, { state := 5, manifest := someManifest 64, leaves := [zeros 32], damaged := [(1, 0)] })]
  content := [(physKey 1 0, d)]
  refreshQ := [1] } }

/-- The bytes of the digest sector, and the part that stores them. -/
def digestNodes : Bytes := sub (digestBytes [zeros 32]) 0 49152

def digested : State := digestedWith digestNodes

theorem witness_IngotSectorsAreReadAndRepaired :
    (65535 / 1024 < ingotSectors ∧ badTrits (corrected 0 1 (atT 0 cooked)) 63 = false) ∧
    badTrits (corrected 0 9 (atT 0 badTile)) 63 = true ∧
    (castOfSector cooked 1 = some (63, 1) ∧ ∀ x ∈ (castGet cooked 63).damaged, x.1 ≠ 1) ∧
    reqGet (withReq someRun cooked) 0 = some someRun ∧
    (patrols cooked = true ∧ patrolNext (patrolRuns cooked) cooked.ingot.patrolAt = some 0 ∧
      patrolNext (patrolRuns cooked) 1 = some 1) ∧
    (let s := setO digested oRepairLimitTicks 0; castOfSector s 1 = some (63, 1) ∧ (1, 0) ∈ (castGet s 63).damaged ∧
      0 + getO s oRepairLimitTicks ≤ s.time.tickNo) := by decide +kernel

theorem test_digest_content (d e : Bytes) : contentOk (digestedWith d) 63 1 e = (e == padTo 49152 digestNodes) := by
  have hs : dataSectors (mBlocks (castGet (digestedWith d) 63).manifest) = 1 := by
    rw [show (castGet (digestedWith d) 63).manifest = someManifest 64 from rfl]
    decide +kernel
  rw [contentOk]
  simp only [hs, show (castGet (digestedWith d) 63).leaves = [zeros 32] from rfl]
  rw [if_neg (by decide)]
  rfl

theorem test_digest_stored (d : Bytes) : sectorGet (digestedWith d) 1 = padTo 49152 d :=
  congrArg (padTo 49152) rfl

theorem witness_IngotSectorsAreReadAndRepaired_refresh :
    digested.ingot.refreshQ.contains 1 = true ∧ castOfSector digested 1 = some (63, 1) ∧
      contentOk digested 63 1 (sectorGet digested 1) = true ∧
      (spareWrite (dieOf 1) (sectorGet digested 1) 1 digested).1 = some 98305 := by
  refine ⟨by decide +kernel, by decide +kernel, ?_, by decide +kernel⟩
  rw [digested, test_digest_content, test_digest_stored, beq_self_eq_true]

theorem test_padTo_length (n : Nat) (b : Bytes) : (padTo n b).length = n := by
  simp only [padTo, zeros, List.length_append, List.length_take, List.length_replicate]
  omega

theorem witness_IngotSectorsAreReadAndRepaired_repair :
    castOfSector digested 1 = some (63, 1) ∧ isSpare digested = false ∧ (∃ x ∈ (castGet digested 63).damaged, x.1 = 1) ∧
      (∀ x ∈ digested.ingot.remapDue, x.sector = 1 → x.repair = false) ∧ (padTo 49152 digestNodes).length = 49152 ∧
      pathOk digested 63 1 (padTo 49152 digestNodes) = true ∧
      (spareWrite (dieOf 1) (padTo 49152 digestNodes) 0 digested).1 = some 98304 := by
  refine ⟨by decide +kernel, by decide +kernel, by decide +kernel, by decide +kernel, test_padTo_length _ _, ?_, by decide +kernel⟩
  rw [pathOk, digested, test_digest_content, beq_self_eq_true]
  decide +kernel

/-- A part whose cast session in the first slot stands at a sector. -/
def casting (x : CastSession) (k : CastSlot) : State := { on with ingot := { on.ingot with casts := [(x.slot, k)], session := some x } }

theorem witness_CastSessionsRun :
    (gate on own oCastOpen (zeros 1024) = 0 ∧ (zeros 1024).length = 1024 ∧ on.ingot.session = none) ∧
    (let s := setO (casting ⟨0, 0, false⟩ {}) oCastStagingEntries 4;
      gate s own oCastStagingHead (natLe 4 4) = 0 ∧ s.ingot.session.isSome = true ∧
      (4 + 2 ^ 32 - getO s oCastStagingTail % 2 ^ 32) % 2 ^ 32 ≤ getO s oCastStagingEntries ∧
      (4 + 2 ^ 32 - getO s oCastStagingHead % 2 ^ 32) % 2 ^ 32 ≤ getO s oCastStagingEntries) ∧
    (let s := casting ⟨0, 1, false⟩ { manifest := someManifest 64, leaves := [zeros 32] };
      1 = dataSectors (mBlocks (castGet s 0).manifest) ∧
      merkleRoot (castGet s 0).leaves = mRoot (castGet s 0).manifest) ∧
    (let s := casting ⟨0, 1, false⟩ { manifest := someManifest 64, leaves := [natLe 32 1] };
      merkleRoot (castGet s 0).leaves ≠ mRoot (castGet s 0).manifest) ∧
    (let s := casting ⟨0, 0, true⟩ { state := 2 }; castReadsBack s 0 = true ∧ castRecipesOk s 0 = true) ∧
    gate (casting ⟨63, 0, true⟩ {}) own oCastAbort (natLe 1 63) = 0 ∧
    (let s := { casting ⟨63, 0, true⟩ { state := 3, manifest := someManifest 1 } with sec := { on.sec with ownerKey := some [] } };
      let v := form 128 [(0, 63)];
      gate s own oCastAdopt v = 0 ∧ s.sec.ownerKey = some [] ∧ byteAt v 0 < 64 ∧ allZero (sub v 1 31) = true ∧
      (castGet s (byteAt v 0)).state = 3 ∧ sub v 32 32 = mRoot (castGet s (byteAt v 0)).manifest) ∧
    (gate cooked own oCastDelete (natLe 1 63) = 0 ∧ (castsNamed cooked true).contains 63 = false ∧
      3 ≤ (castGet cooked 63).state ∧ (castGet cooked 63).state ≠ 6) ∧
    (gate cooked own (castPtrKey 63) (natLe 1 63) = 0 ∧ castPtrRule cooked 63 63 = 0 ∧ castPtrRule cooked 0 255 = 0) := by
  decide +kernel

/-- A staging entry of n zeros and its CRC, and a part whose staging region holds it. -/
def stagedEntry (n : Nat) : Bytes := zeros n ++ natLe 2 (crc16 (zeros n)).toNat

def staging : State :=
  let c := (crc16 (zeros 49214)).toNat
  setAll [(oDramLiveFrames, 1), (oCastStagingHead, 1)] { casting ⟨0, 0, false⟩ { state := 1, manifest := someManifest 64 } with
    dram := { on.dram with mem := [(49214, BitVec.ofNat 8 c), (49215, BitVec.ofNat 8 (c / 256))] } }

theorem test_sub_zeros (n o k : Nat) (t : Bytes) (h : o + k ≤ n) : sub (zeros n ++ t) o k = zeros k := by
  rw [sub, List.drop_append_of_le_length (by simp [zeros]; omega), List.take_append_of_le_length (by simp [zeros]; omega)]
  simp only [zeros, List.drop_replicate, List.take_replicate]
  congr 1
  omega

theorem test_two_cells (n : Nat) (x y : Byte) : memGet [(n, x), (n + 1, y)] 0 (n + 2) = zeros n ++ [x, y] := by
  apply List.ext_getElem
  · simp [memGet, zeros]
  · intro i h1 h2
    simp only [memGet, List.length_map, List.length_range] at h1
    simp only [memGet, List.getElem_map, List.getElem_range]
    rcases Nat.lt_or_ge i n with h | h
    · rw [List.getElem_append_left (by simpa [zeros] using h)]
      have h3 : ¬ n = i := by omega
      have h4 : ¬ n + 1 = i := by omega
      simp [sget, sfind, zeros, h3, h4]
    · rw [List.getElem_append_right (by simpa [zeros] using h)]
      obtain rfl | rfl : i = n ∨ i = n + 1 := by omega
      · simp [sget, sfind, zeros]
      · simp [sget, sfind, zeros]

theorem test_staged_crc (n : Nat) : (crc16 ((stagedEntry n).take n)).toNat = fld (stagedEntry n) n 2 := by
  have hc : (crc16 (zeros n)).toNat < 65536 := (crc16 (zeros n)).isLt
  rw [stagedEntry, List.take_left' (by simp [zeros]), fld, sub, List.drop_left' (by simp [zeros])]
  simp [natLe, leNat]
  omega

theorem test_staged_slot (n i : Nat) (h : i < n) : byteAt (stagedEntry n) i = 0 := by
  rw [byteAt, stagedEntry, List.getD_append _ _ _ _ (by simpa [zeros] using h)]
  simp [zeros, h]

theorem witness_CastSessionsRun_staging :
    staging.ingot.session = some ⟨0, 0, false⟩ ∧ getO staging oCastStagingHead ≠ getO staging oCastStagingTail ∧
      0 < dataSectors (mBlocks (castGet staging 0).manifest) ∧ stagingEntry staging = some (stagedEntry 49214) ∧
      entryOk ⟨0, 0, false⟩ (stagedEntry 49214) = true ∧
      tilesOk (castGet staging 0).manifest 0 (sectorContent (castGet staging 0).manifest 0 (stagedEntry 49214)) = true ∧
      (sectorWrite 0 (sectorContent (castGet staging 0).manifest 0 (stagedEntry 49214)) 0 staging).1 = true := by
  refine ⟨rfl, by decide +kernel, by decide +kernel, ?_, ?_, by decide +kernel, by decide +kernel⟩
  · have h : stagingBase staging + 49216 * (getO staging oCastStagingTail % max 1 (getO staging oCastStagingEntries)) = 0 := by
      decide +kernel
    have k : readFault staging 0 49216 = none := by decide +kernel
    have m : memGet staging.dram.mem 0 49216 = stagedEntry 49214 := test_two_cells 49214 _ _
    have g : (burstsOf 0 49216).any (ownFrames staging) = false := by decide +kernel
    rw [stagingEntry, h, memRead, k]
    simp only [devGet, g, Bool.false_eq_true, if_false, m]
  · rw [entryOk, test_staged_crc, test_staged_slot _ _ (by decide), beq_self_eq_true (fld (stagedEntry 49214) 49214 2), fld, stagedEntry,
      test_sub_zeros _ _ _ _ (by decide), test_sub_zeros _ _ _ _ (by decide), test_sub_zeros _ _ _ _ (by decide)]
    decide

/-- A part with a variant session over the cast. -/
def moulding (moulded : Bool) : State := { cooked with vars := { on.vars with
  slots := [(511, { state := 1, manifest := zeros 96 ++ sha256 [] ++ zeros 128, rebuilding := true })]
  session := some ⟨511, 0, none, moulded⟩ } }

theorem witness_VariantSessionsRun :
    (gate on own oVariantLoad (zeros 264) = 0 ∧ (zeros 264).length = 264 ∧ on.vars.session = none) ∧
    (let s := moulding false;
      let x : VarSession := ⟨511, 0, none, false⟩;
      let m := (varGet s 511).manifest;
      let b := listBytes s x (8 * vmTotal m);
      s.vars.session = some x ∧ castByRoot s (mRoot m) = some 63 ∧ sha256 b = vmSource m ∧ changesOk s 63 (changeList b) = true ∧
      firstGap (varPool s) (varBytes (buildSegments s 63 m (changeList b)) b) 0 (varRuns s) = some 0) ∧
    (let s := moulding true;
      s.vars.session = some ⟨511, 0, none, true⟩ ∧ castByRoot s (mRoot (varGet s 511).manifest) = some 63 ∧
      (varGet s 511).rebuilding = true ∧ gate s own oVariantAbort (natLe 1 1) = 0) ∧
    (let s := sifting none none;
      gate s own oVariantDelete (natLe 2 511) = 0 ∧ (varGet s 511).state ≠ 0 ∧ (varGet s 511).state ≠ 1 ∧
      varNamed s true 511 = false ∧ gate s own (varPtrKey 1023) (natLe 2 511) = 0 ∧ varPtrRule s 1023 511 = 0 ∧
      varPtrRule s 0 0xFFFF = 0) := by decide +kernel

theorem test_sget_all {α : Type} (d x : α) (l : List Nat) (i : Nat) (h : i ∈ l) : sget d (l.map (fun i => (i, x))) i = x := by
  induction l with
  | nil => cases h
  | cons a l ih =>
    by_cases e : a = i
    · simp [sget, sfind, e]
    · have m := ih (by rcases List.mem_cons.1 h with h | h; exact absurd h.symm e; exact h)
      simpa [sget, sfind, e] using m

/-- Parts whose cast slots and whose variant slots are all taken. -/
theorem witness_SessionSlots :
    freeCastSlot { on with ingot := { on.ingot with casts := (List.range 64).map (fun i => (i, { state := 4 })) } } = none ∧
    freeVarSlot { on with vars := { on.vars with slots := (List.range 512).map (fun i => (i, { state := 2 })) } } = none := by
  constructor
  · rw [freeCastSlot, List.find?_eq_none]
    intro i h
    rw [castGet, test_sget_all _ _ _ _ h]
    decide
  · rw [freeVarSlot, List.find?_eq_none]
    intro i h
    rw [varGet, test_sget_all _ _ _ _ h]
    decide

/-- A part with two frames of memory, no region in them. -/
def alight : State := setO on oDramLiveFrames 2

/-- Such a part with a mark on its last burst, under a region of a kind. -/
def marked (k : Nat) (m : BurstMark) : State := { setO alight oBuddyChipId 7 with dram := { on.dram with
  regions := if k = 0 then [] else [⟨k, 1, 1⟩], marks := [(65534, m)] } }

/-- A part with a channel flagged, whose map-out is under way or not. -/
def mappingOut (l : List Nat) (g : Option Migration) : State := { alight with dram := { on.dram with
  flagged := [(383, 0x010C)], map := l, migration := g } }

theorem witness_DramErrorsAreHandled :
    (liveRange alight 4194303 1 = true ∧ pantryHolds alight (4194303 / 64) = false ∧ sfind alight.dram.marks (4194303 / 64) = none) ∧
    (let s := setO { alight with dram := { on.dram with chans := [(383, { ues := [0, 0], retries := [0, 0] })] } } oChannelUeLimit 1;
      getO s oChannelUeLimit < recent (atT 0 s) (chanGet s 383).ues) ∧
    (let s := setAll [(oChannelUeLimit, 2), (oChannelRetryLimit, 1)]
        { alight with dram := { on.dram with chans := [(383, { ues := [0, 0], retries := [0, 0] })] } };
      recent (atT 0 s) (chanGet s 383).ues ≤ getO s oChannelUeLimit ∧
      getO s oChannelRetryLimit < recent (atT 0 s) (chanGet s 383).retries) ∧
    gate on own oChannelMapOut (natLe 2 383) = 0 ∧
    ((chanGet alight 383).st = 0 ∧ ∀ x ∈ alight.dram.flagged, x.1 ≠ 383) ∧
    (let s := setO (mappingOut [] none) oDramReserveLeft 1;
      s.dram.flagged.any (fun x => x.1 == 383) = true ∧ s.dram.migration = none ∧ s.dram.map.length < 16 ∧
      getO s oDramReserveLeft ≠ 0) ∧
    (let s := setO (mappingOut [] none) oDramReserveLeft 0;
      s.dram.flagged.any (fun x => x.1 == 383) = true ∧ s.dram.migration = none ∧ getO s oDramReserveLeft = 0) ∧
    (let s := mappingOut (List.range 16) none;
      s.dram.flagged.any (fun x => x.1 == 383) = true ∧ s.dram.migration = none ∧ 16 ≤ s.dram.map.length) ∧
    (let g : Migration := { channel := 0 };
      let s := mappingOut [0] (some g);
      s.dram.migration = some g ∧ ((pairing s 0)[nextSlice g (pairing s 0) none]?).isSome = true ∧ g.ahead = []) ∧
    (let s := mappingOut [3921920] (some { channel := 3921920 });
      s.dram.migration = some { channel := 3921920 } ∧ pairing s 3921920 = []) := by decide +kernel

theorem witness_DramErrorsAreHandled_marks :
    (sfind (marked 0 .lost).dram.marks (2 * (4194176 / 128)) = some .lost ∧ frameKind (marked 0 .lost) (frameOf 4194176) = 0) ∧
    (let s := { marked 0 .lost with dram := { (marked 0 .lost).dram with tenantFrames := [(1023, [(1, 1)])] } };
      sfind s.dram.marks (2 * (4194176 / 128)) = some .lost ∧ frameKind s (frameOf 4194176) = 2) ∧
    (∀ k ∈ [3, 4, 8], sfind (marked k .lost).dram.marks (2 * (4194176 / 128)) = some .lost ∧
      frameKind (marked k .lost) (frameOf 4194176) = k ∧ getO (marked k .lost) oBuddyChipId ≠ 0xFFFF) ∧
    (let s := withReq someRequest (marked 0 .dead);
      sfind s.dram.marks (4194176 / 64) = some .dead ∧ pantryHolds s (4194176 / 64) = false ∧ (reqGet s 0).isSome = true) := by
  decide +kernel

/-- A part whose tenant 1023 has its last frame. -/
def letOut : State := { alight with dram := { on.dram with tenantFrames := [(1023, [(1, 1)])] } }

theorem witness_PantryServesAccesses :
    (tagAllows letOut (.tenant 1023) 4194300 4 = true ∧ readFault letOut 4194300 4 = none ∧ liveRange letOut 4194300 4 = true ∧
      (burstsOf 4194300 4).any (ownFrames letOut) = false) ∧
    (tagAllows letOut (.tenant 1022) 4194300 4 = false ∧ (reqGet (withReq someRequest letOut) 0).isSome = true ∧
      tagAllows (withReq someRequest letOut) (.tenant 1022) 4194300 4 = false) ∧
    readFault letOut (128 * (4194300 / 128)) 128 = none ∧
    (let s := { alight with dram := { on.dram with pantry := [(setKey 63 2047, { lines := [⟨5, 15, false, true, none⟩] })] } };
      lineInWay (sget {} s.dram.pantry (setKey 63 2047)) 15 = some ⟨5, 15, false, true, none⟩) := by decide +kernel

theorem witness_AtomicsStoreTheirResult :
    (4194300 % 4 = 0 ∧ readFault alight 4194300 4 = none ∧ 4194296 % 8 = 0 ∧ readFault alight 4194296 8 = none ∧
      4194240 % 64 = 0 ∧ readFault alight 4194240 64 = none ∧ 4194302 % 2 = 0 ∧ readFault alight 4194302 2 = none) ∧
    (4194302 % 4 ≠ 0 ∧ readFault alight 4194304 4 ≠ none) ∧
    (let s := withReq someRequest alight; (reqGet s 0).isSome = true ∧ imageWaits s 0 = false) ∧
    (let s := withReq someRequest { alight with mirror := { on.mirror with imagesHeld := [(0, 9, false)] } };
      (reqGet s 0).isSome = true ∧ imageWaits s 0 = true) := by decide +kernel

/-- A part whose stack sensor 0 and whose last board sensor are enabled, the first without filtering. -/
def sensing : State := setAll [(oSensorConfig, 0x40), (oSensorConfig + 1, 0), (oSensorConfig + 63, 0x01000040)] on

theorem witness_SensorsAreSampled :
    (sensing.boot.porstN = true ∧ sensorOn sensing 0 = true ∧ sensorOn sensing 63 = true ∧ sensorOn sensing 1 = false ∧
      medianLen (sensorCfg sensing 0) = 1 ∧ (sget ({} : Sensor) sensing.pilot.sensors 0).seen = false) ∧
    (let s := { sensing with pilot := { on.pilot with sensors := [(0, { seen := true, value := 2000, y := 512000 })] } };
      (sget ({} : Sensor) s.pilot.sensors 0).seen = true ∧ s.pins.tripN = true ∧ 2000 ≤ sensorValue s 0) := by decide +kernel

theorem witness_PowerAndSupplies :
    ((phased .sealed).boot.porstN = true ∧ (phased .sealed).time.phase = .sealed ∧ (phased .late).time.phase ≠ .sealed ∧
      (phased .late).power.samples.length < 1000000) ∧
    (getO on oDroopThresholdMv < 50 ∧ getO on oDroopThresholdMv ≤ getO on oDroopThresholdMv ∧ 10000 ≤ 10000 ∧ 50 < 51) ∧
    ({ on with boot := { on.boot with running := true } } : State).boot.running = true ∧ on.boot.running = false := by
  decide +kernel

/-- A part that watches chip 9, last heard of in tick 2, now in tick n. -/
def watching (n : Nat) : State := setAll [(oWardChipId, 9), (oWardMissTicks, 3)] { on with
  mirror := { on.mirror with wardTick := some 2 }, time := { on.time with tickNo := n } }

theorem witness_TakeoverBegins :
    ((9 : Nat) ≠ 0xFFFF ∧ 9 = getO (watching 0) oWardChipId ∧ 8 ≠ getO (watching 0) oWardChipId ∧ alive (watching 0) = true ∧
      getO (watching 0) oTakeoverState = 0) ∧
    getO (setO (watching 0) oTakeoverState 1) oTakeoverState ≠ 0 ∧
    (let s := watching 6; s.mirror.wardTick = some 2 ∧ getO s oWardChipId ≠ 0xFFFF ∧ s.mirror.wardLost = false ∧
      s.mirror.probeAt = none ∧ alive s = true ∧ 2 + 1 + getO s oWardMissTicks ≤ s.time.tickNo) ∧
    (let s := watching 5; s.mirror.wardTick = some 2 ∧ s.time.tickNo < 2 + 1 + getO s oWardMissTicks) ∧
    (let s := watching 6;
      let s := { s with mirror := { s.mirror with probeAt := some 0 }, time := { s.time with now := 1000000 } };
      s.mirror.probeAt = some 0 ∧ 0 + 1000000 ≤ (atT 0 s).time.now ∧ s.mirror.wardLost = false ∧ alive s = true) ∧
    (let s := setO { on with mirror := { on.mirror with wakeNonce := some 5 } } oTakeoverState 1;
      s.mirror.wakeNonce = some 5 ∧ getO s oTakeoverState = 1) := by decide +kernel

theorem witness_WakeIsAnswered :
    (spareTo none .warmSpare).boot.chip = .warmSpare ∧ (spareTo none .coldSpare).boot.chip = .coldSpare ∧
    ({ on with boot := { on.boot with chip := .waking } } : State).boot.chip = .waking ∧
    (wakeVerifies on (newFrame on opWake 5) = false ∧ peerRight on 5 6 = false) ∧
    (let s := spareTo none .warmSpare;
      let s := { s with boot := { s.boot with wakeNonces := [77] } };
      s.boot.chip = .warmSpare ∧ ({ newFrame s opWake 5 with operand2 := 77 } : LinkFrame).operand2 ∈ s.boot.wakeNonces) ∧
    on.boot.chip = .active := by decide +kernel

/-- A spare on its way into the place of chip 9. -/
def succeeding (k : Nat) (restored begun : Bool) : State := setO { on with
  boot := { on.boot with chip := .waking, wakeFor := some 9 }
  mirror := { on.mirror with restored := restored, begun := begun, replaySet := [0] } } oTakeoverState k

theorem witness_SpareTakesTheWardsPlace :
    (let s := succeeding 2 false false; s.boot.chip = .waking ∧ s.boot.exitFrom = none ∧ s.boot.wakeFor = some 9 ∧
      getO s oTakeoverState = 2 ∧ s.mirror.restored = false) ∧
    on.boot.chip ≠ .waking ∧
    (let s := succeeding 2 true false; s.boot.wakeFor = some 9 ∧ s.mirror.restored = true ∧ getO s oTakeoverState = 2) ∧
    on.boot.wakeFor = none ∧
    (let s := succeeding 3 true true; getO s oTakeoverState = 3 ∧ s.mirror.begun = true ∧
      (∀ i ∈ s.mirror.replaySet, reqGet s i = none) ∧ alive s = true) ∧
    getO (succeeding 2 true true) oTakeoverState ≠ 3 := by decide +kernel

/-- A part with id 3 whose port 0 carries Byari frames and whose peer, chip 5, has every right. -/
def linked (p : Port) : State := setAll [(oChipId, 3), (oDramLiveFrames, 2), (256 * 0x1120 + 1 + 5, 0xFF)]
  { on with links := { on.links with ports := [(0, p)] } }

/-- A port UP with credit, at the last sequence number. -/
def upPort : Port := { st := 2, width := 4, rxSeq := 4095, txSeq := 4095, credits := List.replicate 8 4, ackDue := true }

/-- A frame that stands in a replay buffer. -/
def sentFrame : LinkFrame := { newFrame on opPut 5 with linkSeq := 4095 }

theorem witness_LinkHopsRetry :
    (linked upPort).faults.failed = false ∧
    (let s := linked { upPort with bad := [0] };
      (portGet s 0).st ≠ 0 ∧ (portGet s 0).st ≠ 4 ∧ 3 ∉ (portGet s 0).bad ∧ (portGet s 0).mode = 1) ∧
    (let s := linked { upPort with st := 1 }; (portGet s 0).st = 1 ∧ (portGet s 0).mode = 1) ∧
    7 < (portGet (linked upPort) 0).credits.length ∧
    (portGet (linked { upPort with replay := [(sentFrame, 0)] }) 0).replay ≠ [] ∧ (portGet (linked upPort) 0).replay = [] ∧
    carries (portGet (linked upPort) 0) opPut = true ∧ (portGet (linked upPort) 0).ackDue = true := by decide +kernel

theorem witness_FlowsAreReliable :
    (let s := linked upPort; s.faults.failed = false ∧ s.mirror.wardLost = false ∧ (txGet s (flowKey 4095 7)).stalled = []) ∧
    (let s := { linked upPort with faults := { on.faults with failed := true } }; s.faults.failed = true) ∧
    (let s := { linked upPort with links := { (linked upPort).links with rx := [(flowKey 5 4, ⟨0, true⟩)] } };
      let f := newFrame s opPut 3;
      let k := flowKey ({ f with srcChip := 5 } : LinkFrame).srcChip f.vc;
      0 = (rxGet s k).next ∧ (4294967295 ≠ (rxGet s k).next ∧ seqLe 4294967295 (rxGet s k).next = true) ∧
      (seqLe 1 (rxGet s k).next = false ∧ (rxGet s k).nakSent = true)) := by decide +kernel

/-- The bytes of a FLOW_ACK from chip 5. -/
def ackBytes : Bytes := frameBytes { newFrame on opFlowAck 3 with srcChip := 5, linkSeq := 4095 }

theorem witness_FramesAreReceived :
    (let s := linked upPort; (portGet s 0).mode = 1 ∧ (portGet s 0).st = 2 ∧ s.faults.failed = false ∧
      (frameDecode ackBytes).isSome = true ∧ frameDecode [] = none) ∧
    ((portGet (linked { upPort with mode := 2 }) 0).mode ≠ 1 ∧ (portGet (linked {}) 0).st = 0) ∧
    (portGet (linked { upPort with nakSent := true }) 0).nakSent = true ∧
    (opSequenced opPut = true ∧
      4095 = (portGet (drainAll 0 (giveCredit 0 0 0 (freeReplay 0 0 (linked upPort)))) 0).rxSeq ∧
      4094 ≠ (portGet (drainAll 0 (giveCredit 0 0 0 (freeReplay 0 0 (linked upPort)))) 0).rxSeq) ∧
    (let s := linked upPort; let f := newFrame s opFlowAck 7;
      opVc f.opcode = some f.vc ∧ getO s oChipId ≠ 0xFFFF ∧ (portGet s 0).st ≠ 4 ∧ f.destChip ≠ getO s oChipId) := by decide +kernel

/-- That part with a tenant's frame, its put window, and the last link window over all memory. -/
def open5 : State :=
  let s := setAll [(tkey oPutWindowBase 1023, 0), (tkey oPutWindowBytes 1023, 2097152)] (linked upPort)
  setS { s with dram := { s.dram with tenantFrames := [(1023, [(1, 1)])] } } (oLinkWindow + 15)
    (form 24 [(0, 0), (8, 4194304), (16, 0xFF)])

/-- A frame of chip 5 for this part in space 1 or 0. -/
def from5 (op space : Nat) : LinkFrame := { newFrame open5 op 3 with
  srcChip := 5
  space := space
  tenant := 1023
  address := 2097088
  payload := zeros 64 }

theorem witness_FramesActAtTheirDestination :
    (remoteAllowed open5 (from5 opPut 1) (from5 opPut 1).address (from5 opPut 1).payload.length = true ∧ (from5 opPut 1).space = 1) ∧
    (remoteAllowed open5 (from5 opPut 0) (from5 opPut 0).address (from5 opPut 0).payload.length = true ∧ (from5 opPut 0).space ≠ 1) ∧
    remoteAllowed on (from5 opPut 0) (from5 opPut 0).address (from5 opPut 0).payload.length = false ∧
    (let f := { from5 opGet 0 with operand := 64 }; getAllowed open5 f = true ∧ (getBytes f open5).1.isSome = true ∧
      getAllowed on f = false) ∧
    (let s := succeeding 2 false false; s.boot.chip = .waking ∧ getO s oTakeoverState = 2 ∧ s.mirror.restored = false ∧
      bits (from5 opGetData 0).operand2 63 1 = 0) ∧
    (let s := { on with ingot := { on.ingot with asks := [(5, default)] } };
      bits ({ from5 opGetData 0 with operand2 := 2 ^ 63 } : LinkFrame).operand2 63 1 = 1 ∧
      shas s.ingot.asks (({ from5 opGetData 0 with tag := 5120 } : LinkFrame).tag / 1024) = true) ∧
    on.boot.chip ≠ .waking ∧
    (∀ c ∈ [0, 1, 2, 3], let f := { from5 opAtomic 0 with operand2 := c };
      f.operand2 % 8 = c ∧ remoteAllowed open5 f f.address (atomicWidth c) = true ∧ targetOf open5 f f.address = some 2097088 ∧
      (atomicOp c false 2097088 f.operand 0 [] open5).1.isSome = true) ∧
    4 < 5 % 8 ∧
    (peerAllows open5 (from5 opMirrorKv 0) = true ∧ peerAllows on (from5 opMirrorKv 0) = false ∧
      (from5 opMirrorRecord 0).lastFrame = false) ∧
    (peerAllows open5 { from5 opDict 0 with operand := 2 ^ 24 } = true ∧
      bits ({ from5 opDict 0 with operand := 2 ^ 24 } : LinkFrame).operand 24 1 = 1 ∧ bits (from5 opDict 0).operand 24 1 ≠ 1) ∧
    (let s := { on with links := { on.links with gets := [(9, 5)] } };
      (({ from5 opDictResp 0 with tag := 9 } : LinkFrame).tag, 5) ∈ s.links.gets ∧ (9, 5) ∉ on.links.gets) := by decide +kernel

/-- That part with an open instance of group 7. -/
def collecting (done : Bool) : State := { open5 with links := { open5.links with
  insts := [⟨7, 65535, [(5, if done then 2097152 else 0)], [], 4, false⟩]
  lastInst := [(7, 3)] } }

/-- A contribution to an instance of that group. -/
def part5 (n : Nat) : LinkFrame := { from5 opReduce 0 with tag := 7 + 65536 * n }

/-- A datagram for channel 63. -/
def someDatagram : Datagram where
  port := 15
  source := zeros 16
  udpPort := getO on oIngestUdpPort
  payload := closed (form 30 [(0, 63), (1, 1), (8, 15)]) ++ closed (zeros 62)

/-- A part whose port 15 takes ingest, with its channel on or off. -/
def ingesting (en : Nat) : State :=
  let s := { open5 with links := { on.links with ports := [(15, { mode := 2, st := 2 })] } }
  setS s (oIngestChannel + 63) (form 48 [(0, 1023), (2, en), (8, 2096128), (16, 16), (24, 0)])

theorem witness_CollectivesAndIngest :
    reduceAllowed on (part5 9) = false ∧
    (reduceAllowed (collecting true) (part5 65535) = true ∧ reduceOld (collecting true) (part5 65535) = true ∧
      reduceOld (collecting true) (part5 3) = true) ∧
    (reduceAllowed (collecting false) (part5 65535) = true ∧ reduceOld (collecting false) (part5 65535) = false ∧
      (instOf (collecting false) (reduceKey (part5 65535))).isSome = true) ∧
    (reduceOld (collecting false) (part5 4) = false ∧ instOf (collecting false) (reduceKey (part5 4)) = none ∧
      (collecting false).links.insts.length < 256) ∧
    (let f := { part5 4 with payload := [], lastFrame := true }; f.payload = [] ∧ f.signal = false ∧ f.lastFrame = true) ∧
    (let s := { collecting false with time := { on.time with tickNo := 4 } };
      instOf s (7, 65535) = some ⟨7, 65535, [(5, 0)], [], 4, false⟩ ∧ 4 ≤ s.time.tickNo ∧ alive s = true ∧
      (collecting false).time.tickNo < 4) ∧
    (let s := ingesting 0; ingestPort s 15 = true ∧ someDatagram.udpPort = getO s oIngestUdpPort ∧ s.faults.failed = false ∧
      ingestOk s someDatagram = false) ∧
    (let s := ingesting 1; ingestOk s someDatagram = true ∧
      (translate s (fld (getS s (oIngestChannel + byteAt someDatagram.payload 0)) 0 2)
        (fld (getS s (oIngestChannel + byteAt someDatagram.payload 0)) 24 8)).isSome = true) ∧
    ingestPort on 15 = false := by decide +kernel

/-- A session of a client key, challenged at 0. -/
def someSession (accepted : Bool) : Session where
  clientKey := zeros 65
  nonceC := zeros 32
  nonceD := zeros 32
  clientEph := zeros 65
  ephIx := 0
  hash := zeros 32
  challengedAt := 0
  accepted := accepted
  who := .owner
  key := zeros 32
  rxSeq := 6
  txSeq := 0
  cache := []

/-- A part with that session. -/
def talking (accepted : Bool) : State := { on with sec := { on.sec with sessions := [(5, someSession accepted)] } }

/-- A message in it whose HMAC holds. -/
def someMsg (n : Nat) : ClientMsg where
  session := 5
  sequence := 7
  requestId := 9
  body := []
  mac := hmac (zeros 32) (msgHeader n 5 7 9 0)
  mgPort := 0
  time := 0
  nvFails := false

theorem witness_SessionsAndRequests :
    (on.boot.porstN = true ∧ (zeros 65).length = 65 ∧ (zeros 32).length = 32 ∧ on.sec.sessions.length < 8) ∧
    (let s := { on with sec := { on.sec with sessions := (List.range 8).map (fun i => (i, someSession true)) } };
      8 ≤ s.sec.sessions.length) ∧
    (let s := talking false; s.boot.porstN = true ∧ sessGet s 5 = some (someSession false) ∧ (someSession false).accepted = false ∧
      (atT 0 s).time.now ≤ (someSession false).challengedAt + 1000000000) ∧
    (let s := { talking false with time := { on.time with now := 1000000001 } }; sessGet s 5 = some (someSession false) ∧
      (someSession false).challengedAt + 1000000000 < (atT 0 s).time.now) ∧
    (sessGet (talking true) 5 = some (someSession true) ∧ (someSession true).accepted = true) ∧
    (let s := { on with dict := { on.dict with ctxs := [(AccessCtx.session 5, { xfer := some default })] } };
      ((ctxGet s (.session 5)).xfer).isSome = true) ∧
    mainOn on = true ∧ oServeEnable / 256 < 65536 := by decide +kernel

theorem witness_SessionsAndRequests_mac : authentic (talking true) 0x20 (someMsg 0x20) = some (someSession true) := by
  have h : sessGet (talking true) 5 = some (someSession true) := by decide +kernel
  simp [authentic, someMsg, h, someSession]

/-- The part with a write that reaches its boundary first, 1,024 times. -/
def crowded : State := { on with dict := { on.dict with
  pending := List.replicate 1024 ⟨oServeEnable, [1], .owner, .session 9, dueTick on, 0⟩ } }

/-- The installer's access. -/
def installer : Access := ⟨.installer, .session 1, false⟩

/-- A part with a key in its table, and the digest of that key. -/
def keyed : State := { on with sec := { on.sec with keys := [zeros 160] } }

theorem witness_SecurityWritesTakeEffect :
    ({ on with sec := { on.sec with ownerKey := some [] } } : State).sec.ownerKey.isSome = true ∧
    (on.sec.ownerKey = none ∧ gate on installer oOwnerInstall (zeros 129) = 0) ∧
    gate on own oKeyAuthorise (zeros 160) = 0 ∧ recSerial (zeros 160) ≤ on.sec.highSerial ∧
    ownerSigned on (sub (zeros 160) 0 96) (sub (zeros 160) 96 64) = false ∧
    (gate keyed own oKeyRevoke (keyDigest (zeros 65)) = 0 ∧ keyOfDigest keyed (keyDigest (zeros 65)) = some (zeros 65) ∧
      keyOfDigest on (keyDigest (zeros 65)) = none) ∧
    gate on own oFirmwareStage (zeros 128) = 0 ∧ gate on own oRollbackCommit (natLe 1 3) = 0 ∧
    (gate on own oAttestNonce (zeros 32) = 0 ∧ pendingRoom (withoutOwn own oAttestNonce on) (zeros 32) = true ∧
      gate crowded own oAttestNonce (zeros 32) = 0 ∧ pendingRoom (withoutOwn own oAttestNonce crowded) (zeros 32) = false) ∧
    (gate on own oStatsSnapshotRequest [1] = 0 ∧ pendingRoom (withoutOwn own oStatsSnapshotRequest on) [1] = true) ∧
    (let s := { on with kv := { on.kv with ctxs := [(5, { someCtx with frozen := true })] } };
      gate s own oShareGrant (form 6 [(2, 5), (4, 1023)]) = 0 ∧ shareGrantRule s (form 6 [(2, 5), (4, 1023)]) = 0 ∧
      gate on own oShareGrant (form 6 [(2, 5), (4, 1023)]) = 0 ∧ shareGrantRule on (form 6 [(2, 5), (4, 1023)]) ≠ 0) ∧
    gate on own oShareRevoke (zeros 6) = 0 ∧ gate on own oDictRestoreDefaults (natLe 1 1) = 0 ∧
    (let s := { on with dict := { on.dict with nvQueue := [(oServeEnable, [1])] } };
      s.dict.nvQueue.find? (fun e => e.1 == 256 * (oServeEnable / 256) + oServeEnable % 256) = some (oServeEnable, [1])) ∧
    (on.boot.porstN = true ∧ 2 ≤ (portGet (linked { upPort with mode := 2 }) 0).mode ∧ (portGet (linked { upPort with mode := 2 }) 0).st = 2) ∧
    State.reset.boot.porstN = false ∧ bootStopped on = false := by decide +kernel

theorem witness_TickAndTenantWrites :
    (let p := ((storedGrid on).i, (storedGrid on).n, (storedGrid on).d);
      gate on own (oTickPeriodNs + 1 - 1) (natLe 4 16666666) = 0 ∧ periodOk 16666666 p.2.1 p.2.2 = true ∧
      periodMarksOk on 16666666 p.2.1 = true ∧ gate on own (oTickPeriodNs + 3 - 1) (natLe 2 0) = 0 ∧ periodOk p.1 p.2.1 0 = false ∧
      gate on own (oTickPeriodNs + 2 - 1) (natLe 2 5) = 0) ∧
    (gate on own oTickRegridNo (natLe 8 2) = 0 ∧ on.time.pend = none ∧ on.time.tickNo + 1 < 2 ∧
      gate on own oTickRegridNo (natLe 8 1) = 0 ∧ 1 ≤ on.time.tickNo + 1 ∧ gate on own oTickRegridNo (natLe 8 0) = 0) ∧
    (gate on own (oSyncPinFunction + 3) [1] = 0 ∧ nextO (setO on (oSyncPinFunction + 2) 1) (oSyncPinFunction + 2) = 1 ∧
      gate (setO on (oSyncPinFunction + 2) 1) own (oSyncPinFunction + 3) [1] = 0 ∧ syncPinRule on 3 (leNat (natLe 1 1)) = 0) ∧
    (pendingRoom (withoutOwn own oTickRegridNo crowded) [0] = false ∧ pendingRoom (withoutOwn own oTickRegridNo on) [0] = true) ∧
    on.time.tickNo < 2 ^ 63 ∧
    (gate on own (tkey oTenantMemPages 1023) (natLe 4 0) = 0 ∧ memPagesRule on 1023 (leNat (natLe 4 0)) = 0) ∧
    (gate on own (tkey oTenantReset 1023) [1] = 0 ∧ (makePending own (tkey oTenantReset 1023) [1] on).1 = 0) ∧
    (gate on own (tkey oRingResume 1023) (natLe 1 15) = 0 ∧ gate on own (tkey oRingResume 1023) (natLe 1 16) = 0) := by decide +kernel

/-- Whisk 67's last frame, on a part in service: its lanes are idle, M0 clear. -/
def lastFrame : WhiskAt := ⟨67, 15, 0, false⟩

theorem witness_WhiskLanes : whiskAt on lastFrame = true ∧ whiskAt on ⟨68, 0, 0, false⟩ = false := by decide +kernel

theorem witness_WhiskIntegersClamp :
    (Lane.idle.res.length = Lane.idle.v.length ∧ Lane.idle.regOk 15 = true) ∧
    (∀ r, Lane.idle.regOk r = true) ∧ (∀ m, Lane.idle.maskOk m = true) := by
  refine ⟨by decide, fun r => ?_, fun m => ?_⟩
  · rcases Nat.lt_or_ge r 16 with h | h
    · exact (show ∀ r < 16, Lane.idle.regOk r = true by decide) r h
    · simp [Lane.regOk, Lane.reg, Lane.idle, Lane.load, nth, h, res3]
  · rcases Nat.lt_or_ge m 4 with h | h
    · exact (show ∀ m < 4, Lane.idle.maskOk m = true by decide) m h
    · obtain ⟨k, rfl⟩ : ∃ k, m = k + 4 := ⟨m - 4, by omega⟩
      rfl

theorem witness_WhiskReductionsFold : 3 < Frame.idle.slots.length ∧
    Frame.idle.lanes.filter (wLive lastFrame) = [] ∧
    ({ Frame.idle with lanes := [{ Lane.idle with m0 := true }] } : Frame).lanes.filter (wLive lastFrame) ≠ [] := by decide +kernel

theorem witness_EmptyReductionsGiveTheirIdentity :
    redOf lastFrame 9 3 15 .block = some (.meanL lastFrame 3 15 .block) ∧ whiskAt on lastFrame = true ∧
    whiskBad lastFrame (.meanL lastFrame 3 15 .block) (sget {} on.engine.whisks 67) = false ∧
    3 < (frameAt on lastFrame).slots.length ∧ (∀ l ∈ (frameAt on lastFrame).lanes, wLive lastFrame l = false) ∧
    redOf lastFrame 0 0 0 .row = some (.sumI lastFrame 0 0 .row) ∧
    (∀ fr ∈ [Frame.idle], (0 : Fin 4).val < fr.slots.length ∧ ∀ l ∈ fr.lanes, wLive lastFrame l = false) := by decide +kernel

theorem witness_MaskedLanesStay :
    (∀ fr ∈ [Frame.idle], fr.lanes.length = 240) ∧ [Frame.idle][0]? = some Frame.idle ∧
    Frame.idle.lanes[239]? = some Lane.idle ∧ Lane.idle.m0 = false := by decide +kernel

/-- A program header that packs register 0. -/
def someHeader : ProgHeader := progHeader (zeros 64)

theorem witness_MaskedLanesStay_packed :
    [laneOut someHeader Lane.idle][0]? = some (laneOut someHeader Lane.idle) ∧
    (∀ v ∈ [laneOut someHeader Lane.idle], ∃ k, v = laneOut someHeader k) ∧ ∀ j : Nat, (fun _ : Nat => 0) j < 2 ^ 64 :=
  ⟨rfl, fun _ h => ⟨Lane.idle, List.mem_singleton.1 h⟩, fun _ => by norm_num⟩

theorem witness_SplitAndSoftmax :
    (∀ c, some c ∈ [none, some 0xFFFF] → c = 0xFFFF) ∧ some 0x7FFF ∈ [none, some 0x7FFF] ∧
    some 0x7FFF ∉ [some 0, some 0xFFFF] ∧ ∃ c, some c ∈ [some 0, some 0xFFFF] ∧ c ≠ 0xFFFF := by
  refine ⟨fun c h => ?_, by decide, by decide, 0, by decide, by decide⟩
  simp at h
  exact h

/-- A command stands in a queue, and a command completes. -/
theorem witness_StepRunsFrontCommand :
    ({ on with pending := [.idleEnter, .idleEnter] } : State).pending = .idleEnter :: [.idleEnter] ∧ on.pending = [] ∧
    step { on with pending := [.idleEnter] } = exec .idleEnter on := ⟨rfl, rfl, rfl⟩

theorem witness_StepKeepsInvariants :
    MemoryCanonical serving ∧ LogsBounded serving ∧ serving.sec.ownerKey = none ∧
    ({ on with sec := { on.sec with ownerKey := some [] } } : State).sec.ownerKey = some [] ∧
    ∃ t, step serving = .next t := by
  refine ⟨?_, ?_, rfl, rfl, _, rfl⟩
  · show Memory.wf serving.dram.mem
    decide +kernel
  · show _ ∧ _ ∧ _ ∧ _
    decide +kernel

theorem witness_WhiskWordsReadBack :
    (whiskEncode (.iadd lastFrame 1 2 3)).length = 1 ∧ (whiskEncode (.iclt lastFrame 1 2 3)).length = 1 ∧
    (whiskEncode (.ltoi lastFrame 1 2 0 5 .nearest)).length = 1 ∧ (1 : Fin 4) ≠ 0 := by decide +kernel

theorem witness_FramesReadBack : (newFrame on opPut 5).wf = true := by decide +kernel

/-! ### Operands out of range -/

/-- A frame with every header field 0 and no payload. -/
def plainFrame : LinkFrame := ⟨0, 0, false, false, 0, 0, 0, 0, 0, 0, 0, 0, 0, 0, 0, 0, 0, 0, []⟩

/-- One command for each kind of bound, breaking it. -/
def illFormed : List Instr := [
  .railPowerGood 7, .dram [0, 384], .ingot [48], .links [64], .specResume 16384, .gateOffExpired (2 ^ 32),
  .thermalPersist 12, .ringSuspend 1024 0, .ringSuspend 0 4, .run 0 0 0 [], .mirrorAck (2 ^ 64),
  .snapshotAcknowledged 65536, .syncTickEdge 4 0, .ptpSync 2 ⟨.oneStep, 0, 0⟩ 0 0, .sourceLocked 3 0, .unitIssue 64, .matchBuildComplete 64 0, .sliceMove 384 ⟨none, []⟩,
  .hopperProducerWrite 0 16 ⟨zeros 64, 0⟩, .hopperProducerWrite 0 0 ⟨zeros 63, 0⟩, .resume 0 32768 0 0 0,
  .gateKnown 0 0 0 [65536], .stepFault ⟨65536, .none, 0, 0, 0, 0, 0⟩, .nop ⟨68, 0, 0, false⟩, .nop ⟨0, 16, 0, false⟩,
  .tileScrub 68 .clean 0, .sieveSwap 36 0 0, .sieveDecode 0 1024 ⟨0, 0⟩, .sieveTableBuild 0 0 ⟨2 ^ 32, 0⟩, .ingotRead 4831838208 (.corrected 0) none 0,
  .ingotRead 0 (.corrected 9) none 0, .patrol [(1024, .crcMismatch)] 0, .repairDataArrival 0 ⟨[], 0⟩, .channelFlag 384 0]

theorem test_out_of_range_refused : ∀ i ∈ illFormed, i.wf = false := by decide +kernel

/-- The rest of the bounds: memory, sensors, links, sessions and accesses. -/
def illFormed2 : List Instr := [
  .pantryAccess .device .normal 0 (.read 0) none, .pantryAccess .device .normal (2 ^ 64) (.read 1) none,
  .pantryStorageError 64 0 0 .clean 0, .pantryStorageError 0 2048 0 .clean 0, .pantryStorageError 0 0 16 .clean 0,
  .reduce false 0 ⟨[], none⟩, .reduce false 0 ⟨zeros 64, some ⟨0, 4096, 0, 0, none, false⟩⟩, .sensorSample 64 none 0,
  .setPointLower 48, .powerSample [] [], .droop 0 256 0, .takeoverStart 65536, .laneBad 16 ⟨0, .loss⟩ 0, .laneBad 0 ⟨4, .loss⟩ 0,
  .ack 0 4096 0 0, .ack 0 0 8 0, .put { plainFrame with hops := 32 }, .put { plainFrame with payload := [0] },
  .collectiveTimeout 64 0 0, .ingestDatagram ⟨0, [], 0, []⟩, .hello [] (zeros 32) (zeros 65) 0 0 0,
  .proof 0 0 [] 0 0, .read ⟨0, 0, 0, [], [], 0, 0, false⟩, .dictWrite ⟨.tenant 1024, .session 0, false⟩ 0 0 [],
  .dictWrite own 65536 0 [], .syncPinFunction own 4 0, .castPointer own 64 0, .variantPointer own 1024 0,
  .peerDelay 2 false 0, .neighbourDiscovery 0 [], .variantRebuildComplete 1024, .nvWriteComplete 0 256 true]

theorem test_out_of_range_refused_too : ∀ i ∈ illFormed2, i.wf = false := by decide +kernel

/-! ### The spec's worked examples -/

/-- R18's example: a 59.94 Hz grid reaches whole milliseconds after 3 and after 60,000 ticks. -/
theorem test_grid_times : Grid.t ⟨16683333, 1, 3, 0, 0⟩ 3 = 50050000 ∧ Grid.t ⟨16683333, 1, 3, 0, 0⟩ 60000 = 1001000000000 := by decide

/-- The late and check marks of a 60 Hz tick at 88 % and 94 % (R34). -/
theorem test_marks : lateMarkNs 16666667 8800 = 14666666 ∧ checkMarkNs 16666667 9400 = 15666666 := by decide

/-- Chapter 2's TP5 example. -/
theorem test_tp5 : tp5Byte [1, -1, 0, 0, 1] = 0x58 ∧ tp5Decode 0x8C = some [-1, 1, 0, -1, 1] ∧ tp5Decode 0xF3 = none := by decide

/-- Chapter 2's A8 to L16 example: 5.0 and −2.125. -/
theorem test_to_l16 : lambda 40 = 2725 ∧ toL16 40 (-3) = (0x44A5, false) ∧ toL16 (-17) (-3) = (0xC22D, false) := by decide +kernel

/-- Chapter 6's subtraction and addition of those numbers. -/
theorem test_l16_add : l16Sub 0x44A5 0x422D = (0x430C, false) ∧ l16Add 0x44A5 0x422D = (0x45AB, false) := by decide +kernel

/-- Chapter 6's finite SOFTMAX row. -/
theorem test_softmax : (softmaxOut [some 0x4000, some 0, some 0xFFFF, none]).1 = [0x3F19, 0x3C36, 0, 0] := by decide +kernel

/-- Chapter 6's masked and infinite SOFTMAX rows. -/
theorem test_softmax_edges : softmaxOut [none, none] = ([0, 0], { empty := true }) ∧
    (softmaxOut [some 0x7FFF, some 0x7FFF, some 0x4000]).1 = [0x3E00, 0x3E00, 0] := by decide +kernel

/-- A DB header's bytes (R79). -/
theorem test_db_header : dbHeaderBytes ⟨1, 7, 5, 0, 37, 12⟩ = [0x01, 0x07, 0x05, 0x00, 0x25, 0x00, 0x0C, 0x00] ∧
    dbRecordBytes ⟨1, 7, 5, 0, 37, 12⟩ = 16 := by decide

/-- Chapter 3's drained elements, and the clamp at ±127. -/
theorem test_drain : drainElem 127 8 (0xF0000000 * 2 ^ 32) 1282 = 5 ∧ drainElem 127 8 (0xF0000000 * 2 ^ 32) 20000 = 79 ∧
    drainElem 127 8 (0x01000000 * 2 ^ 32) (-1282) = -6 := by decide

/-- Chapter 6's draw of key 0 and counter 0. -/
theorem test_dither : dither64 0 0 = 0xCA537D3A02F99545 ∧ dither32 0 0 = 0xCA537D3A := by decide +kernel

/-- Chapter 3's check cells, at base 3. -/
theorem test_checksum : checkValue false [2, 3, -3, 2, 3, 5, 5, 0] = 5141 := by decide

/-- IADD R1, R2, R3 from R167's fields and R169's code 0x10; mask destination M0 is refused (R165). -/
theorem test_whisk_word : whiskWord 5 6 (0x10 + 1 * 2 ^ 7 + 2 * 2 ^ 11 + 3 * 2 ^ 15) = some (.iadd ⟨5, 6, 0, false⟩ 1 2 3) ∧
    whiskWord 5 6 (0x10 + 1 * 2 ^ 7 + 2 * 2 ^ 11 + 3 * 2 ^ 15 + 2 ^ 22) = none ∧
    whiskWord 5 6 0x58 = some (.split ⟨5, 6, 0, false⟩) := by decide +kernel

/-- The table gives no command a word, so no word spells one. -/
theorem test_no_words (n w : Nat) : decodeTableWord n w = none := rfl

end Sys2Proof.Tests
end

/-! ## Lanes out of a program (R165) and reductions in which no lane takes part (R187) -/

namespace Sys2Proof.Machine

open Sys2Proof

/-! ### What an instruction leaves of the lanes whose M0 is 0 (R165, R168) -/

/-- A lane before and after an instruction: M0 stays, and a lane whose M0 is 0 stays whole. -/
def MaskedLaneKept (l l' : Lane) : Prop := l'.m0 = l.m0 ∧ (l.m0 = false → l' = l)

/-- The same of every lane of a frame. -/
def MaskedLanesKept (fr fr' : Frame) : Prop := List.Forall₂ MaskedLaneKept fr.lanes fr'.lanes

theorem maskedLanesKept_of_lanes_eq {fr fr' : Frame} (h : fr'.lanes = fr.lanes) : MaskedLanesKept fr fr' := by
  rw [MaskedLanesKept, h]
  exact List.forall₂_same.2 fun l _ => ⟨rfl, fun _ => rfl⟩

@[simp] theorem maskedLanesKept_refl (fr : Frame) : MaskedLanesKept fr fr := maskedLanesKept_of_lanes_eq rfl

theorem maskedLanesKept_map {f : Frame → Frame} {frs : List Frame} (h : ∀ fr ∈ frs, MaskedLanesKept fr (f fr)) :
    List.Forall₂ MaskedLanesKept frs (frs.map f) :=
  List.forall₂_map_right_iff.2 (List.forall₂_same.2 h)

theorem setMask_m0 (l : Lane) (m : Nat) (b : Bool) : (l.setMask m b).m0 = l.m0 := by
  unfold Lane.setMask
  split <;> rfl

theorem wLive_of_masked (w : WhiskAt) {l : Lane} (h : l.m0 = false) : wLive w l = false := by simp [wLive, h]

/-- Lane work that leaves M0 of the lanes it writes keeps the masked ones: it writes live lanes alone. -/
theorem maskedLanesKept_wLanes (w : WhiskAt) {f : Nat → Lane → Lane × WStat} (hf : ∀ i l, (f i l).1.m0 = l.m0)
    (fr : Frame) : MaskedLanesKept fr (wLanes w f fr).1 := by
  refine List.forall₂_iff_get.2 ⟨by simp [wLanes], fun i h _ => ?_⟩
  simp only [wLanes, List.get_eq_getElem, List.getElem_map, List.getElem_mapIdx]
  split
  · next hlive => exact ⟨hf _ _, fun hm => by simp [wLive_of_masked w hm] at hlive⟩
  · exact ⟨rfl, fun _ => rfl⟩

@[simp] theorem maskedLanesKept_writeReg (w : WhiskAt) (d : Nat) (x : Nat → Lane → Word) (st : Nat → Lane → WStat)
    (fr : Frame) : MaskedLanesKept fr (wLanes w (fun i l => (l.setReg d (x i l), st i l)) fr).1 :=
  maskedLanesKept_wLanes w (fun _ _ => rfl) fr

@[simp] theorem maskedLanesKept_wReg (w : WhiskAt) (d : Fin 16) (f : Nat → Lane → Word) (fr : Frame) :
    MaskedLanesKept fr (wReg w d f fr).1 := maskedLanesKept_writeReg ..

@[simp] theorem maskedLanesKept_wInt (w : WhiskAt) (d : Fin 16) (f : Lane → Int) (fr : Frame) :
    MaskedLanesKept fr (wInt w d f fr).1 := maskedLanesKept_writeReg ..

@[simp] theorem maskedLanesKept_wL16 (w : WhiskAt) (d : Fin 16) (f : Lane → Nat × Bool) (fr : Frame) :
    MaskedLanesKept fr (wL16 w d f fr).1 := maskedLanesKept_writeReg ..

@[simp] theorem maskedLanesKept_wMask (w : WhiskAt) (m : Fin 4) (f : Lane → Bool) (fr : Frame) :
    MaskedLanesKept fr (wMask w m f fr).1 := maskedLanesKept_wLanes w (fun _ _ => setMask_m0 ..) fr

/-- Every lane instruction is NOP or one of the four shapes of lane work above. -/
theorem maskedLanesKept_whiskLane {env : WhiskEnv} {i : Instr} {f : Frame → Frame × WStat} (h : whiskLane env i = some f)
    (fr : Frame) : MaskedLanesKept fr (f fr).1 := by
  unfold whiskLane at h
  split at h <;> cases h <;> simp

theorem redRow_keeps (w : WhiskAt) (op : RedOp) (slot : Fin 4) (a : Fin 16) (sc : Scope) (frs : List Frame) :
    List.Forall₂ MaskedLanesKept frs (redRow w op slot a sc frs).1 := by
  cases sc with
  | block =>
    simp only [redRow, List.map_map]
    exact maskedLanesKept_map fun _ _ => maskedLanesKept_of_lanes_eq rfl
  | row => exact maskedLanesKept_map fun _ _ => maskedLanesKept_of_lanes_eq rfl

/-! ### SOFTMAX (R189) -/

theorem softmaxOut_length (xs : List (Option Nat)) : (softmaxOut xs).1.length = xs.length := by
  simp only [softmaxOut]
  split_ifs <;> simp

theorem softIns_flatMap_length (w : WhiskAt) (a : Fin 16) {frs : List Frame} (h : ∀ fr ∈ frs, fr.lanes.length = 240) :
    (frs.flatMap (softIns w a)).length = 240 * frs.length := by
  rw [List.length_flatMap, List.map_congr_left (g := fun _ => 240) (by simpa [softIns] using h)]
  simp [mul_comm]

/-- SOFTMAX's outputs go to lanes with M0 set; where there is one for each lane, no lane is cut off. -/
theorem maskedLanesKept_softWrite (d : Fin 16) {outs : List Nat} {fr : Frame} (h : fr.lanes.length ≤ outs.length) :
    MaskedLanesKept fr (softWrite d outs fr) := by
  refine List.forall₂_iff_get.2 ⟨by simp [softWrite, h], fun i _ _ => ?_⟩
  simp only [softWrite, List.get_eq_getElem, List.getElem_map, List.getElem_zip]
  split
  · next hm0 => exact ⟨rfl, fun hm => by simp [hm] at hm0⟩
  · exact ⟨rfl, fun _ => rfl⟩

theorem softmaxFrames_keeps (w : WhiskAt) (d a : Fin 16) {frs : List Frame} (h : ∀ fr ∈ frs, fr.lanes.length = 240) :
    List.Forall₂ MaskedLanesKept frs (softmaxFrames w d a frs).1 := by
  refine List.forall₂_iff_get.2 ⟨by simp [softmaxFrames], fun i hi _ => ?_⟩
  simp only [softmaxFrames, List.get_eq_getElem, List.getElem_mapIdx]
  refine maskedLanesKept_softWrite d ?_
  rw [h _ (List.getElem_mem hi), List.length_take, List.length_drop, softmaxOut_length, softIns_flatMap_length w a h]
  omega

theorem softmaxBlocks_keeps (w : WhiskAt) (d a : Fin 16) {frs : List Frame} (h : ∀ fr ∈ frs, fr.lanes.length = 240) :
    List.Forall₂ MaskedLanesKept frs (frs.flatMap fun fr => (softmaxFrames w d a [fr]).1) := by
  induction frs with
  | nil => exact .nil
  | cons fr frs ih =>
    obtain ⟨hfr, hfrs⟩ := List.forall_mem_cons.1 h
    exact List.rel_append (softmaxFrames_keeps w d a (List.forall_mem_singleton.2 hfr)) (ih hfrs)

/-- R165 for the frames of a row: whatever the instruction, each frame keeps its masked lanes. -/
theorem whiskRow_keeps (env : WhiskEnv) (i : Instr) {frs : List Frame} (h : ∀ fr ∈ frs, fr.lanes.length = 240) :
    List.Forall₂ MaskedLanesKept frs (whiskRow env i frs).1 := by
  unfold whiskRow
  split
  · exact maskedLanesKept_map fun _ _ => maskedLanesKept_of_lanes_eq rfl
  · exact softmaxFrames_keeps _ _ _ h
  · simpa only [List.flatMap_map] using softmaxBlocks_keeps _ _ _ h
  · split
    · exact redRow_keeps ..
    · split
      · next f hf =>
        simp only [List.map_map]
        exact maskedLanesKept_map fun fr _ => maskedLanesKept_whiskLane hf fr
      · exact List.forall₂_same.2 fun fr _ => maskedLanesKept_refl fr

/-- Entries of related lists at the same place are related. -/
theorem forall₂_getElem?_some {α β : Type} {R : α → β → Prop} {xs : List α} {ys : List β} (h : List.Forall₂ R xs ys)
    {n : Nat} {x : α} (hx : xs[n]? = some x) : ∃ y, ys[n]? = some y ∧ R x y := by
  obtain ⟨hn, rfl⟩ := List.getElem?_eq_some_iff.1 hx
  have hn' : n < ys.length := h.length_eq ▸ hn
  exact ⟨ys[n], List.getElem?_eq_getElem hn', h.get hn hn'⟩

/-! ### What a masked lane holds changes no reduction and no SOFTMAX (R165) -/

/-- A lane with other register contents where its M0 is 0. -/
def refill (v : List Word) (l : Lane) : Lane := if l.m0 then l else { l with v := v }

theorem refill_of_live {w : WhiskAt} {l : Lane} (v : List Word) (h : wLive w l = true) : refill v l = l := by
  simp only [wLive, Bool.and_eq_true] at h
  simp [refill, h.1]

@[simp] theorem wLive_refill (w : WhiskAt) (v : List Word) (l : Lane) : wLive w (refill v l) = wLive w l := by
  cases hm : l.m0
  · rw [wLive_of_masked w hm, wLive_of_masked w (by simp [refill, hm])]
  · simp [refill, hm]

theorem redFrame_refill (w : WhiskAt) (op : RedOp) (a : Fin 16) (sc : Scope) (fr : Frame) (x : Slot) (v : List Word) :
    redFrame w op a sc { fr with lanes := fr.lanes.map (refill v) } x = redFrame w op a sc fr x := by
  have hpairs : (fr.lanes.map (refill v)).mapIdx (fun i l => (i, l)) =
      (fr.lanes.mapIdx (fun i l => (i, l))).map (fun p => (p.1, refill v p.2)) := by
    exact List.ext_getElem (by simp) fun _ _ _ => by simp
  rw [redFrame, hpairs, List.foldl_map, redFrame]
  congr 1
  funext s p
  rw [wLive_refill]
  split
  · next hlive =>
    rw [refill_of_live v hlive]
    cases sc <;> rfl
  · rfl

theorem softIns_refill (w : WhiskAt) (a : Fin 16) (fr : Frame) (v : List Word) :
    softIns w a { fr with lanes := fr.lanes.map (refill v) } = softIns w a fr := by
  simp only [softIns, List.map_map]
  refine List.map_congr_left fun l _ => ?_
  simp only [Function.comp_apply, wLive_refill]
  split
  · next hlive => rw [refill_of_live v hlive]
  · rfl

/-! ### The packer writes 0 for a masked lane (R98, R165, R177) -/

/-- A draw of 64 bits rounds nothing into an element that is 0. -/
theorem drainElem_zero (q : Nat) (s : Int) {draw : Nat} (h : draw < 2 ^ 64) : drainElem q s draw 0 = 0 := by
  have hclamp : clamp (-(q : Int)) q 0 = 0 := by
    unfold clamp
    split_ifs <;> omega
  simp only [drainElem]
  split
  · rw [zero_mul, hclamp]
  · set k := s.toNat
    set v := if k ≤ 64 then draw / 2 ^ (64 - k) else draw * 2 ^ (k - 64) with hv
    have hlt : v < 2 ^ k := by
      rw [hv]
      split
      · next hk => rwa [Nat.div_lt_iff_lt_mul (by positivity), ← pow_add, Nat.add_sub_cancel' hk]
      · next hk =>
        calc draw * 2 ^ (k - 64) < 2 ^ 64 * 2 ^ (k - 64) := Nat.mul_lt_mul_of_pos_right h (by positivity)
          _ = 2 ^ k := by rw [← pow_add, Nat.add_sub_cancel' (by omega)]
    rw [zero_add, Int.fdiv_eq_ediv_of_nonneg _ (by positivity), Int.ediv_eq_zero_of_lt (by positivity) (by exact_mod_cast hlt),
      hclamp]

theorem drainGroup_elem_zero (q : Nat) (e : Int) {draw : Nat → Nat} (hd : ∀ j, draw j < 2 ^ 64) {accs : List Int} {n : Nat}
    (h : accs[n]? = some 0) : (drainGroup q e draw accs).elems[n]? = some 0 := by
  simp only [drainGroup]
  split
  · simp only [List.getElem?_map, h, Option.map_some]
  · simp only [List.getElem?_mapIdx, h, Option.map_some, drainElem_zero _ _ (hd n)]

theorem packInts_elem_zero (q : Nat) {draw : Nat → Nat} (hd : ∀ j, draw j < 2 ^ 64) {l : List (Int × Int)} {n : Nat} {e : Int}
    (h : l[n]? = some (0, e)) : (packInts q draw l).elems[n]? = some 0 :=
  drainGroup_elem_zero _ _ hd (by simp [h])

theorem packL16_elem_none (q : Nat) (draw : Nat → Nat) {cs : List (Option Nat)} {n : Nat} (h : cs[n]? = some none) :
    (packL16 q draw cs).elems[n]? = some 0 := by
  simp only [packL16]
  split
  · simp only [List.getElem?_map, h, Option.map_some]
  · simp only [List.getElem?_mapIdx, h, Option.map_some]

/-- All outputs of a program have its OutKind, so the packer takes the way of the masked lane's output, which holds nothing there. -/
theorem packVals_laneOut_masked (h : ProgHeader) {l : Lane} (q : Nat) {draw : Nat → Nat} {vs : List OutVal} {n : Nat}
    (hm : l.m0 = false) (hn : vs[n]? = some (laneOut h l)) (hvs : ∀ v ∈ vs, ∃ k, v = laneOut h k)
    (hd : ∀ j, draw j < 2 ^ 64) : (packVals q draw vs).elems[n]? = some 0 := by
  by_cases hk : h.outKind = 1
  · rw [packVals, if_pos (List.any_eq_true.2 ⟨_, List.mem_of_getElem? hn, by simp [laneOut, hk]⟩)]
    exact packL16_elem_none q draw (by simp [hn, laneOut, hk, hm])
  · rw [packVals, if_neg]
    · exact packInts_elem_zero q hd (e := l.xe + h.outShift) (by simp [hn, laneOut, hk, hm])
    · rw [List.any_eq_true]
      rintro ⟨v, hv, hlog⟩
      obtain ⟨k, rfl⟩ := hvs v hv
      simp [laneOut, hk] at hlog

/-- Settles O47: every instruction keeps the masked lanes of each frame of a row, by its kind; a masked lane is not live, so folds and
SOFTMAX inputs do not read its registers; its output is an integer 0 or no code, which both packers write as 0. -/
theorem maskedLanesStay : Obligations.MaskedLanesStay := by
  unfold Obligations.MaskedLanesStay
  refine ⟨fun env i frs h => ?_, fun w op a sc fr x v => ?_, ?_⟩
  · have hkept := whiskRow_keeps env i h
    refine ⟨hkept.length_eq.symm, fun n j fr l hfr hl => ?_⟩
    obtain ⟨fr', hfr', hlanes⟩ := forall₂_getElem?_some hkept hfr
    obtain ⟨l', hl', hm0, hstay⟩ := forall₂_getElem?_some hlanes hl
    exact ⟨fr', l', hfr', hl', hm0, hstay⟩
  · exact ⟨redFrame_refill w op a sc fr x v, softIns_refill w a fr v⟩
  · intro h l q draw vs n hm hn hvs hd
    exact packVals_laneOut_masked h q hm hn hvs hd

/-! ### Reductions in which no lane takes part (R187) -/

/-- The identity of each operation (R187). -/
def RedOp.identity : RedOp → Int
  | .sumI | .sumL | .count | .meanL => 0
  | .maxI => -0x80000000
  | .minI => 0x7FFFFFFF
  | .maxL => 0xFFFF
  | .minL => 0x7FFF
  | .argmaxI | .argmaxL => 0xFFFF

@[simp] theorem slotResult_redStart (op : RedOp) (row : Bool) : slotResult (redStart op row) = op.identity := by
  cases op <;> rfl

@[simp] theorem redStat_redStart_empty (op : RedOp) (row : Bool) : (redStat (redStart op row) true).empty = true := rfl

/-- A command of R185's table is the reduction of an operation whose identity R187's table gives. -/
theorem whiskRed_of_redOf {w : WhiskAt} {slot : Fin 4} {a : Fin 16} {sc : Scope} {n : Nat} {v : Int} {c : Instr}
    (hv : (n, v) ∈ [(0, 0), (1, 0), (2, -0x80000000), (3, 0xFFFF), (4, 0x7FFFFFFF), (5, 0x7FFF), (6, 0xFFFF),
      (7, 0xFFFF), (8, 0), (9, (0x0000 : Int))]) (hc : redOf w n slot a sc = some c) :
    ∃ op : RedOp, whiskRed c = some (w, op, slot, a, sc) ∧ op.identity = v := by
  unfold redOf at hc
  split at hc <;> cases hc
  all_goals
    refine ⟨_, rfl, ?_⟩
    simpa [RedOp.identity, eq_comm] using hv

/-- A reduction command of the machine is its Whisk's work. -/
theorem exec_redOf {w : WhiskAt} {slot : Fin 4} {a : Fin 16} {sc : Scope} {n : Nat} {c : Instr}
    (hc : redOf w n slot a sc = some c) (s : State) : exec c s = .next (whiskDo w c s) := by
  unfold redOf at hc
  split at hc <;> cases hc <;> rfl

theorem redFrame_of_no_live {w : WhiskAt} {fr : Frame} (h : ∀ l ∈ fr.lanes, wLive w l = false) (op : RedOp) (a : Fin 16)
    (sc : Scope) (s : Slot) : redFrame w op a sc fr s = s := by
  unfold redFrame
  refine List.foldlRecOn (motive := (· = s)) _ _ rfl fun t ht p hp => ?_
  obtain ⟨i, hi, rfl⟩ := List.mem_mapIdx.1 hp
  simp [h _ (List.getElem_mem hi), ht]

theorem redFrames_of_no_live {w : WhiskAt} {frs : List Frame} (h : ∀ fr ∈ frs, ∀ l ∈ fr.lanes, wLive w l = false)
    (op : RedOp) (a : Fin 16) (sc : Scope) (s : Slot) : frs.foldl (fun s fr => redFrame w op a sc fr s) s = s :=
  List.foldlRecOn (motive := (· = s)) _ _ rfl fun _ ht fr hfr => by rw [redFrame_of_no_live (h fr hfr), ht]

theorem opRed_block_of_no_live {w : WhiskAt} {fr : Frame} (h : ∀ l ∈ fr.lanes, wLive w l = false) (op : RedOp)
    (slot : Fin 4) (a : Fin 16) : opRed w op slot a .block fr =
      ({ fr with slots := fr.slots.set slot.val (redStart op false) }, redStat (redStart op false) true) := by
  simp only [opRed, redFrame_of_no_live h]

theorem redRow_row_of_no_live {w : WhiskAt} {frs : List Frame} (h : ∀ fr ∈ frs, ∀ l ∈ fr.lanes, wLive w l = false)
    (op : RedOp) (slot : Fin 4) (a : Fin 16) : redRow w op slot a .row frs =
      (shareSlot slot (redStart op true) frs, redStat (redStart op true) true) := by
  simp only [redRow, redFrames_of_no_live h]

theorem nth_set_same {α : Type} (d x : α) {l : List α} {i : Nat} (h : i < l.length) : nth d (l.set i x) i = x := by
  simp [nth, h]

/-- RED of BLOCK scope in a Whisk changes its frame and the status as `opRed` says. -/
theorem whiskOne_red_block {w u : WhiskAt} {c : Instr} {op : RedOp} {slot : Fin 4} {a : Fin 16}
    (hc : whiskRed c = some (u, op, slot, a, .block)) (k : Whisk) : whiskOne w c k =
      { k with
        frames := sput k.frames w.frame (opRed w op slot a .block (sget Frame.idle k.frames w.frame)).1
        status := k.status.or (opRed w op slot a .block (sget Frame.idle k.frames w.frame)).2 } := by
  unfold whiskOne
  split <;> simp_all [whiskRed]

theorem whiskRow_red {w : WhiskAt} {c : Instr} {op : RedOp} {slot : Fin 4} {a : Fin 16} {sc : Scope}
    (hc : whiskRed c = some (w, op, slot, a, sc)) (env : WhiskEnv) (frs : List Frame) :
    whiskRow env c frs = redRow w op slot a sc frs := by
  unfold whiskRow
  split <;> simp_all [whiskRed]

theorem whiskDo_checked {w : WhiskAt} {c : Instr} {s : State} (ha : whiskAt s w = true)
    (hb : whiskBad w c (sget {} s.engine.whisks w.whisk) = false) : whiskDo w c s = whiskMod w.whisk (whiskOne w c) s := by
  simp only [whiskDo, ha, hb, if_true, Bool.false_eq_true, if_false]

@[simp] theorem sget_whisks_whiskMod (n : Nat) (f : Whisk → Whisk) (s : State) :
    sget {} (whiskMod n f s).engine.whisks n = f (sget {} s.engine.whisks n) := by
  simp [whiskMod, supd]

/-- Settles O46: with no live lane the fold is the slot it starts from, whose count is 0 and whose result is the identity. -/
theorem emptyReductionsGiveTheirIdentity : Obligations.EmptyReductionsGiveTheirIdentity := by
  unfold Obligations.EmptyReductionsGiveTheirIdentity
  intro w slot a n v hv
  refine ⟨fun s c hc ha hb hslot hdead => ?_, fun c env frs hc hfrs => ?_⟩
  · obtain ⟨op, hred, rfl⟩ := whiskRed_of_redOf hv hc
    refine ⟨_, exec_redOf hc s, ?_⟩
    rw [whiskDo_checked ha hb, frameAt, sget_whisks_whiskMod, whiskOne_red_block hred]
    rw [sget_sput_same, ← frameAt, opRed_block_of_no_live hdead, nth_set_same _ _ hslot]
    exact ⟨slotResult_redStart op false, rfl, Bool.or_true _⟩
  · obtain ⟨op, hred, rfl⟩ := whiskRed_of_redOf hv hc
    rw [whiskRow_red hred, redRow_row_of_no_live fun fr hfr => (hfrs fr hfr).2]
    refine ⟨fun fr' hfr' => ?_, redStat_redStart_empty op true⟩
    obtain ⟨fr, hfr, rfl⟩ := List.mem_map.1 hfr'
    rw [nth_set_same _ _ (hfrs fr hfr).1]
    exact ⟨slotResult_redStart op true, rfl⟩

end Sys2Proof.Machine

/-! ## What every step keeps -/

namespace Sys2Proof.Machine

open Sys2Proof

/-- The commands that may move the tick in progress: power, the marks and the boundary, and what carries a dictionary write. -/
def movesTick : Instr → Bool
  | .porstNRise | .porstNFall | .alwaysOnRailLoss _ => true
  | .tickBoundary | .admitMark | .lateMark | .checkMark => true
  | .write _ | .dictWrite _ _ _ _ | .coreMailboxRequest _ _ _ | .dict _ | .frameReceive _ _ _ => true
  | _ => false

/-- A READ request of the dictionary moves no tick. -/
theorem kept_dictRequest_read {q : Bool} {s0 : State} (a : Access) (b : Bytes) (s : State) (hk : Kept q s0 s) :
    Kept q s0 (dictRequest a 0x10 b s).2 :=
  Kept.ite2 (kept_abort _ _ hk) (kept_readReq _ _ _ _ _ hk)

/-- A DESCRIBE request of the dictionary moves no tick. -/
theorem kept_dictRequest_describe {q : Bool} {s0 : State} (a : Access) (b : Bytes) (s : State) (hk : Kept q s0 s) :
    Kept q s0 (dictRequest a 0x12 b s).2 :=
  Kept.ite2 (kept_abort _ _ hk) (kept_describeReq _ _ _ hk)

/-- Every command answers a next state, and keeps what every operation keeps; the tick in progress too, unless it may move it. -/
theorem exec_kept (c : Instr) (s : State) : ∃ t, exec c s = .next t ∧ Kept (!movesTick c) s t := by
  cases c with
  | porstNRise => exact ⟨_, rfl, kept_doPorstNRise _ (Kept.refl _ _)⟩
  | railPowerGood => exact ⟨_, rfl, kept_doRailPowerGood _ _ (Kept.refl _ _)⟩
  | dram => exact ⟨_, rfl, kept_doDram _ _ (Kept.refl _ _)⟩
  | ingot => exact ⟨_, rfl, kept_doIngot _ _ (Kept.refl _ _)⟩
  | selfTest => exact ⟨_, rfl, kept_doSelfTest _ _ (Kept.refl _ _)⟩
  | links => exact ⟨_, rfl, kept_doLinks _ _ (Kept.refl _ _)⟩
  | porstNFall => exact ⟨_, rfl, kept_doPorstNFall _ (Kept.refl _ _)⟩
  | alwaysOnRailLoss => exact ⟨_, rfl, kept_doAlwaysOnLoss _ _ (Kept.refl _ _)⟩
  | tickBoundary => exact ⟨_, rfl, kept_doTickBoundary _ (Kept.refl _ _)⟩
  | specResume => exact ⟨_, rfl, kept_doSpecResume _ _ (Kept.refl _ _)⟩
  | gateOffExpired => exact ⟨_, rfl, kept_doGateOffExpired _ _ (Kept.refl _ _)⟩
  | budgetWindow => exact ⟨_, rfl, kept_doBudgetWindow _ (Kept.refl _ _)⟩
  | thermalPersist => exact ⟨_, rfl, kept_doThermalPersist _ _ (Kept.refl _ _)⟩
  | idleEnter => exact ⟨_, rfl, kept_doIdleEnter _ (Kept.refl _ _)⟩
  | admitMark => exact ⟨_, rfl, kept_doAdmitMark _ (Kept.refl _ _)⟩
  | ringSuspend => exact ⟨_, rfl, kept_doRingSuspend _ _ _ (Kept.refl _ _)⟩
  | run => exact ⟨_, rfl, kept_doTake _ _ _ _ _ _ (Kept.refl _ _)⟩
  | contextCreate => exact ⟨_, rfl, kept_doTake _ _ _ _ _ _ (Kept.refl _ _)⟩
  | contextDelete => exact ⟨_, rfl, kept_doTake _ _ _ _ _ _ (Kept.refl _ _)⟩
  | compact => exact ⟨_, rfl, kept_doTake _ _ _ _ _ _ (Kept.refl _ _)⟩
  | freeze => exact ⟨_, rfl, kept_doTake _ _ _ _ _ _ (Kept.refl _ _)⟩
  | lateMark => exact ⟨_, rfl, kept_doLateMark _ (Kept.refl _ _)⟩
  | checkMark => exact ⟨_, rfl, kept_doCheckMark _ (Kept.refl _ _)⟩
  | mirrorAck => exact ⟨_, rfl, kept_doMirrorAck _ _ (Kept.refl _ _)⟩
  | buddyLost => exact ⟨_, rfl, kept_doBuddyLost _ (Kept.refl _ _)⟩
  | snapshotAcknowledged => exact ⟨_, rfl, kept_doSnapshotAck _ _ (Kept.refl _ _)⟩
  | syncTickEdge => exact ⟨_, rfl, kept_doSyncTickEdge _ _ _ (Kept.refl _ _)⟩
  | syncMissed => exact ⟨_, rfl, kept_doSyncMissed _ (Kept.refl _ _)⟩
  | ptpSync => exact ⟨_, rfl, kept_doPtpSync _ _ _ _ _ _ _ (Kept.refl _ _)⟩
  | sourceLocked => exact ⟨_, rfl, kept_doSourceLocked _ _ _ (Kept.refl _ _)⟩
  | sourceLoss => exact ⟨_, rfl, kept_doSourceLoss _ _ (Kept.refl _ _)⟩
  | holdoverExpired => exact ⟨_, rfl, kept_doHoldoverExpired _ _ (Kept.refl _ _)⟩
  | unitIssue => exact ⟨_, rfl, kept_doUnitIssue _ _ (Kept.refl _ _)⟩
  | hopperBind => exact ⟨_, rfl, kept_doHopperBind _ _ (Kept.refl _ _)⟩
  | hopperUnbind => exact ⟨_, rfl, kept_doHopperUnbind _ _ (Kept.refl _ _)⟩
  | hopperProducerWrite => exact ⟨_, rfl, kept_doHopperWrite _ _ _ _ _ (Kept.refl _ _)⟩
  | hopperConsumerRead => exact ⟨_, rfl, kept_doHopperRead _ _ _ _ _ (Kept.refl _ _)⟩
  | passDrain => exact ⟨_, rfl, kept_loadWhisk _ _ (kept_doPassDrain _ _ _ (Kept.refl _ _))⟩
  | finalDrain => exact ⟨_, rfl, kept_doFinalDrain _ _ (Kept.refl _ _)⟩
  | pause => exact ⟨_, rfl, kept_doPause _ _ _ (Kept.refl _ _)⟩
  | resume => exact ⟨_, rfl, kept_doResume _ _ _ _ _ _ (Kept.refl _ _)⟩
  | liveReadyYield => exact ⟨_, rfl, kept_doLiveReadyYield _ _ _ (Kept.refl _ _)⟩
  | matchBuildComplete => exact ⟨_, rfl, kept_doMatchBuild _ _ (kept_atT _ _ (Kept.refl _ _))⟩
  | gateKnown => exact ⟨_, rfl, kept_doGateKnown _ _ _ _ _ (Kept.refl _ _)⟩
  | makeUpArrival => exact ⟨_, rfl, kept_doMakeUp _ _ _ _ _ (Kept.refl _ _)⟩
  | tokenSelect => exact ⟨_, rfl, kept_doTokenSelect _ _ _ (Kept.refl _ _)⟩
  | stepFault => exact ⟨_, rfl, kept_doStepFault _ _ (Kept.refl _ _)⟩
  | replayExhausted => exact ⟨_, rfl, kept_doReplayExhausted _ _ _ (Kept.refl _ _)⟩
  | unitFaultLimit => exact ⟨_, rfl, kept_doUnitFaultLimit _ _ _ _ (Kept.refl _ _)⟩
  | tileScrub => exact ⟨_, rfl, kept_doTileScrub _ _ _ _ (Kept.refl _ _)⟩
  | griddleSwap => exact ⟨_, rfl, kept_doGriddleSwap _ _ _ _ (Kept.refl _ _)⟩
  | sieveSwap => exact ⟨_, rfl, kept_doSieveSwap _ _ _ _ (Kept.refl _ _)⟩
  | selfTestSlice => exact ⟨_, rfl, kept_doSelfTestSlice _ _ _ (Kept.refl _ _)⟩
  | sieveTableBuild => exact ⟨_, rfl, kept_doSieveTable _ _ _ _ _ (Kept.refl _ _)⟩
  | sieveDecode => exact ⟨_, rfl, kept_doSieveDecode _ _ _ _ _ (Kept.refl _ _)⟩
  | ingotRead => exact ⟨_, rfl, kept_doIngotRead _ _ _ _ _ (Kept.refl _ _)⟩
  | patrol => exact ⟨_, rfl, kept_doPatrol _ _ _ (Kept.refl _ _)⟩
  | refresh => exact ⟨_, rfl, kept_doRefresh _ _ _ (Kept.refl _ _)⟩
  | repairDataArrival => exact ⟨_, rfl, kept_doRepairData _ _ _ _ (Kept.refl _ _)⟩
  | ingotLost => exact ⟨_, rfl, kept_doIngotLost _ _ _ (Kept.refl _ _)⟩
  | dramReadEcc => exact ⟨_, rfl, kept_doDramRead _ _ _ _ _ (Kept.refl _ _)⟩
  | dramParityRetry => exact ⟨_, rfl, kept_doParityRetry _ _ _ _ _ (Kept.refl _ _)⟩
  | dramScrub => exact ⟨_, rfl, kept_doDramScrub _ _ _ _ (Kept.refl _ _)⟩
  | channelFlag => exact ⟨_, rfl, kept_doChannelFlag _ _ _ (Kept.refl _ _)⟩
  | channelMapOut => exact ⟨_, rfl, kept_doChannelMapOut _ _ (Kept.refl _ _)⟩
  | sliceMove => exact ⟨_, rfl, kept_doSliceMove _ _ _ _ (Kept.refl _ _)⟩
  | lostLineRestore => exact ⟨_, rfl, kept_doLostRestore _ _ (Kept.refl _ _)⟩
  | dramDead => exact ⟨_, rfl, kept_doDramDead _ _ _ (Kept.refl _ _)⟩
  | pantryAccess => exact ⟨_, rfl, kept_doPantryAccess _ _ _ _ _ _ (Kept.refl _ _)⟩
  | last => exact ⟨_, rfl, kept_doLast _ _ _ (Kept.refl _ _)⟩
  | pantryStorageError => exact ⟨_, rfl, kept_doPantryError _ _ _ _ _ _ (Kept.refl _ _)⟩
  | addI32 => exact ⟨_, rfl, kept_doAtomic _ _ _ _ _ _ (Kept.refl _ _)⟩
  | max => exact ⟨_, rfl, kept_doAtomic _ _ _ _ _ _ (Kept.refl _ _)⟩
  | min => exact ⟨_, rfl, kept_doAtomic _ _ _ _ _ _ (Kept.refl _ _)⟩
  | swap => exact ⟨_, rfl, kept_doAtomicReturn _ _ _ _ _ _ (Kept.refl _ _)⟩
  | cas => exact ⟨_, rfl, kept_doAtomicReturn _ _ _ _ _ _ (Kept.refl _ _)⟩
  | reduce => exact ⟨_, rfl, kept_doPantryReduce _ _ _ _ _ (Kept.refl _ _)⟩
  | addL16 => exact ⟨_, rfl, kept_doAtomic _ _ _ _ _ _ (Kept.refl _ _)⟩
  | sensorSample => exact ⟨_, rfl, kept_doSensorSample _ _ _ _ (Kept.refl _ _)⟩
  | setPointLower => exact ⟨_, rfl, kept_doSetPointLower _ _ (Kept.refl _ _)⟩
  | powerSample => exact ⟨_, rfl, kept_doPowerSample _ _ _ (Kept.refl _ _)⟩
  | droop => exact ⟨_, rfl, kept_doDroop _ _ _ _ (Kept.refl _ _)⟩
  | supplyFault => exact ⟨_, rfl, kept_doSupplyFault _ _ _ (Kept.refl _ _)⟩
  | clockFault => exact ⟨_, rfl, kept_doClockFault _ _ (Kept.refl _ _)⟩
  | smbalert => exact ⟨_, rfl, kept_doSmbalert _ _ _ _ _ (Kept.refl _ _)⟩
  | expediterCheck => exact ⟨_, rfl, kept_doExpediterCheck _ _ (Kept.refl _ _)⟩
  | islandCheck => exact ⟨_, rfl, kept_doIslandCheck _ _ (Kept.refl _ _)⟩
  | boundaryReportMissed => exact ⟨_, rfl, kept_doReportMissed _ _ (Kept.refl _ _)⟩
  | failSilent => exact ⟨_, rfl, kept_doFailSilent _ (Kept.refl _ _)⟩
  | handOver => exact ⟨_, rfl, kept_doHandOver _ _ _ (Kept.refl _ _)⟩
  | handoverLast => exact ⟨_, rfl, kept_doHandoverLast _ (Kept.refl _ _)⟩
  | takeoverStart => exact ⟨_, rfl, kept_doTakeoverStart _ _ (Kept.refl _ _)⟩
  | wardMiss => exact ⟨_, rfl, kept_doWardMiss _ (Kept.refl _ _)⟩
  | wardLost => exact ⟨_, rfl, kept_doWardLost _ _ (Kept.refl _ _)⟩
  | spareNoAnswer => exact ⟨_, rfl, kept_doSpareNoAnswer _ (Kept.refl _ _)⟩
  | mirrorCopied => exact ⟨_, rfl, kept_doMirrorCopied _ (Kept.refl _ _)⟩
  | identityAssumed => exact ⟨_, rfl, kept_doIdentity _ (Kept.refl _ _)⟩
  | takeoverComplete => exact ⟨_, rfl, kept_doTakeoverComplete _ (Kept.refl _ _)⟩
  | laneBad => exact ⟨_, rfl, kept_doLaneBad _ _ _ _ _ (Kept.refl _ _)⟩
  | retrainComplete => exact ⟨_, rfl, kept_doRetrainComplete _ _ (Kept.refl _ _)⟩
  | ack => exact ⟨_, rfl, kept_doAck _ _ _ _ _ (Kept.refl _ _)⟩
  | nak => exact ⟨_, rfl, kept_doNak _ _ _ (Kept.refl _ _)⟩
  | hopTimeout => exact ⟨_, rfl, kept_doHopTimeout _ _ (Kept.refl _ _)⟩
  | ackTimer => exact ⟨_, rfl, kept_doAckTimer _ _ (Kept.refl _ _)⟩
  | flowAck => exact ⟨_, rfl, kept_doFlowAck _ _ _ _ (Kept.refl _ _)⟩
  | flowNak => exact ⟨_, rfl, kept_doFlowNak _ _ _ _ (Kept.refl _ _)⟩
  | flowTimeout => exact ⟨_, rfl, kept_doFlowTimeout _ _ _ (Kept.refl _ _)⟩
  | flowSync => exact ⟨_, rfl, kept_doFlowSync _ _ _ (Kept.refl _ _)⟩
  | frameReceive => exact ⟨_, rfl, kept_doFrameReceive _ _ _ _ (Kept.refl _ _)⟩
  | late => exact ⟨_, rfl, kept_doLate _ _ (Kept.refl _ _)⟩
  | wake => exact ⟨_, rfl, kept_doWake _ _ _ (Kept.refl _ _)⟩
  | put => exact ⟨_, rfl, kept_doPut _ _ (Kept.refl _ _)⟩
  | slotPut => exact ⟨_, rfl, kept_doSlotPut _ _ (Kept.refl _ _)⟩
  | get => exact ⟨_, rfl, kept_doGet _ _ (Kept.refl _ _)⟩
  | getData => exact ⟨_, rfl, kept_doGetData _ _ (Kept.refl _ _)⟩
  | reduceFrame => exact ⟨_, rfl, kept_doReduce _ _ (Kept.refl _ _)⟩
  | atomic => exact ⟨_, rfl, kept_doAtomicFrame _ _ (Kept.refl _ _)⟩
  | atomicResp => exact ⟨_, rfl, kept_doAtomicResp _ _ (Kept.refl _ _)⟩
  | mirrorKv => exact ⟨_, rfl, kept_doMirrorKv _ _ (Kept.refl _ _)⟩
  | mirrorRecord => exact ⟨_, rfl, kept_doMirrorRecord _ _ (Kept.refl _ _)⟩
  | notice => exact ⟨_, rfl, kept_doNotice _ _ (Kept.refl _ _)⟩
  | dict => exact ⟨_, rfl, kept_doDict _ _ (Kept.refl _ _)⟩
  | dictResp => exact ⟨_, rfl, kept_doDictResp _ _ (Kept.refl _ _)⟩
  | collectiveTimeout => exact ⟨_, rfl, kept_doCollectiveTimeout _ _ _ _ (Kept.refl _ _)⟩
  | ingestDatagram => exact ⟨_, rfl, kept_doIngest _ _ (Kept.refl _ _)⟩
  | hello => exact ⟨_, rfl, kept_doHello _ _ _ _ _ _ _ (Kept.refl _ _)⟩
  | proof => exact ⟨_, rfl, kept_doProof _ _ _ _ _ _ (Kept.refl _ _)⟩
  | proofTimeout => exact ⟨_, rfl, kept_doProofTimeout _ _ (Kept.refl _ _)⟩
  | read m =>
    exact ⟨_, rfl, kept_request _ m _ _ (fun a v hv => kept_dictRequest_read a m.body v hv) (Kept.refl _ _)⟩
  | write m =>
    exact ⟨_, rfl, kept_request _ m _ _ (fun a v hv => kept_dictRequest a _ m.body v hv) (Kept.refl _ _)⟩
  | describe m =>
    exact ⟨_, rfl, kept_request _ m _ _ (fun a v hv => kept_dictRequest_describe a m.body v hv) (Kept.refl _ _)⟩
  | keepalive => exact ⟨_, rfl, kept_request _ _ _ _ (fun _ _ hv => hv) (Kept.refl _ _)⟩
  | close => exact ⟨_, rfl, kept_doClose _ _ (Kept.refl _ _)⟩
  | sessionIdle => exact ⟨_, rfl, kept_doSessionIdle _ _ (Kept.refl _ _)⟩
  | transferTimeout => exact ⟨_, rfl, kept_doTransferTimeout _ _ (Kept.refl _ _)⟩
  | coreMailboxRequest => exact ⟨_, rfl, kept_doMailbox _ _ _ _ _ (Kept.refl _ _)⟩
  | dictWrite => exact ⟨_, rfl, kept_doDictWrite _ _ _ _ _ (Kept.refl _ _)⟩
  | tickPeriodWrite => exact ⟨_, rfl, kept_answerWrite _ (kept_doTickPeriod _ _ _ _ (Kept.refl _ _))⟩
  | tickRegridNo => exact ⟨_, rfl, kept_answerWrite _ (kept_doRegridNo _ _ _ (Kept.refl _ _))⟩
  | syncPinFunction => exact ⟨_, rfl, kept_answerWrite _ (kept_doSyncPin _ _ _ _ (Kept.refl _ _))⟩
  | castOpen => exact ⟨_, rfl, kept_answerWrite _ (kept_doCastOpen _ _ _ (Kept.refl _ _))⟩
  | castStagingHead => exact ⟨_, rfl, kept_answerWrite _ (kept_doStagingHead _ _ _ (Kept.refl _ _))⟩
  | stagingEntryConsumed => exact ⟨_, rfl, kept_doStagingEntry _ _ (Kept.refl _ _)⟩
  | castDataComplete => exact ⟨_, rfl, kept_doCastDataComplete _ (Kept.refl _ _)⟩
  | castVerifyComplete => exact ⟨_, rfl, kept_doCastVerify _ _ (Kept.refl _ _)⟩
  | castAbort => exact ⟨_, rfl, kept_answerWrite _ (kept_doCastAbort _ _ _ (Kept.refl _ _))⟩
  | castAdopt => exact ⟨_, rfl, kept_answerWrite _ (kept_doCastAdopt _ _ _ (Kept.refl _ _))⟩
  | castDelete => exact ⟨_, rfl, kept_answerWrite _ (kept_doCastDelete _ _ _ (Kept.refl _ _))⟩
  | castPointer => exact ⟨_, rfl, kept_answerWrite _ (kept_doCastPointer _ _ _ _ (Kept.refl _ _))⟩
  | variantLoad => exact ⟨_, rfl, kept_answerWrite _ (kept_doVariantLoad _ _ _ (Kept.refl _ _))⟩
  | mouldPassComplete => exact ⟨_, rfl, kept_doMouldPass _ (Kept.refl _ _)⟩
  | secondPassComplete => exact ⟨_, rfl, kept_doSecondPass _ _ (Kept.refl _ _)⟩
  | variantAbort => exact ⟨_, rfl, kept_answerWrite _ (kept_doVariantAbort _ _ _ (Kept.refl _ _))⟩
  | variantDelete => exact ⟨_, rfl, kept_answerWrite _ (kept_doVariantDelete _ _ _ (Kept.refl _ _))⟩
  | variantPointer => exact ⟨_, rfl, kept_answerWrite _ (kept_doVariantPointer _ _ _ _ (Kept.refl _ _))⟩
  | channelMapOutWrite => exact ⟨_, rfl, kept_answerWrite _ (kept_doMapOutWrite _ _ _ (Kept.refl _ _))⟩
  | tenantReset => exact ⟨_, rfl, kept_answerWrite _ (kept_doTenantReset _ _ _ _ (Kept.refl _ _))⟩
  | ringResume => exact ⟨_, rfl, kept_answerWrite _ (kept_doRingResume _ _ _ _ (Kept.refl _ _))⟩
  | handOverWrite => exact ⟨_, rfl, kept_answerWrite _ (kept_doHandOverWrite _ _ _ (Kept.refl _ _))⟩
  | chipStateRequest => exact ⟨_, rfl, kept_answerWrite _ (kept_doChipStateRequest _ _ _ (Kept.refl _ _))⟩
  | spareStateReached => exact ⟨_, rfl, kept_doSpareReached _ (Kept.refl _ _)⟩
  | wakeReady => exact ⟨_, rfl, kept_doWakeReady _ _ (Kept.refl _ _)⟩
  | chipReset => exact ⟨_, rfl, kept_answerWrite _ (kept_doChipReset _ _ _ (Kept.refl _ _))⟩
  | portReset => exact ⟨_, rfl, kept_answerWrite _ (kept_doPortReset _ _ _ (Kept.refl _ _))⟩
  | engineReset => exact ⟨_, rfl, kept_answerWrite _ (kept_doEngineReset _ _ _ _ (Kept.refl _ _))⟩
  | serveEnable => exact ⟨_, rfl, kept_answerWrite _ (kept_doServeEnable _ _ _ (Kept.refl _ _))⟩
  | ownerInstall => exact ⟨_, rfl, kept_answerWrite _ (kept_doOwnerInstall _ _ _ (Kept.refl _ _))⟩
  | keyAuthorise => exact ⟨_, rfl, kept_answerWrite _ (kept_nvAnswer _ _ _ (Kept.refl _ _) (kept_doKeyAuthorise _ _ _ (Kept.refl _ _)))⟩
  | keyRevoke => exact ⟨_, rfl, kept_answerWrite _ (kept_nvAnswer _ _ _ (Kept.refl _ _) (kept_doKeyRevoke _ _ _ (Kept.refl _ _)))⟩
  | firmwareStage => exact ⟨_, rfl, kept_answerWrite _ (kept_doFirmwareStage _ _ _ (Kept.refl _ _))⟩
  | rollbackCommit => exact ⟨_, rfl, kept_answerWrite _ (kept_nvAnswer _ _ _ (Kept.refl _ _) (kept_doRollbackCommit _ _ _ (Kept.refl _ _)))⟩
  | attestNonce => exact ⟨_, rfl, kept_answerWrite _ (kept_doAttestNonce _ _ _ (Kept.refl _ _))⟩
  | shareGrant => exact ⟨_, rfl, kept_answerWrite _ (kept_doShareGrant _ _ _ (Kept.refl _ _))⟩
  | shareRevoke => exact ⟨_, rfl, kept_answerWrite _ (kept_doShareRevoke _ _ _ (Kept.refl _ _))⟩
  | tenantMemPages => exact ⟨_, rfl, kept_answerWrite _ (kept_doMemPages _ _ _ _ (Kept.refl _ _))⟩
  | statsSnapshotRequest => exact ⟨_, rfl, kept_answerWrite _ (kept_doStatsRequest _ _ _ (Kept.refl _ _))⟩
  | dictRestoreDefaults => exact ⟨_, rfl, kept_answerWrite _ (kept_doRestoreDefaults _ _ _ (Kept.refl _ _))⟩
  | powerGoodMissed => exact ⟨_, rfl, kept_doPowerGoodMissed _ _ (Kept.refl _ _)⟩
  | peerDelay => exact ⟨_, rfl, kept_doPeerDelay _ _ _ _ (Kept.refl _ _)⟩
  | neighbourDiscovery => exact ⟨_, rfl, kept_doNeighbour _ _ _ (Kept.refl _ _)⟩
  | chipIdWrite => exact ⟨_, rfl, kept_answerWrite _ (kept_nvAnswer _ _ _ (Kept.refl _ _) (kept_doChipIdWrite _ _ _ (Kept.refl _ _)))⟩
  | jtagInstruction => exact ⟨_, rfl, kept_doJtag _ _ (Kept.refl _ _)⟩
  | variantRebuildComplete => exact ⟨_, rfl, kept_doVariantRebuild _ _ (Kept.refl _ _)⟩
  | nvWriteComplete => exact ⟨_, rfl, kept_doNvComplete _ _ _ (Kept.refl _ _)⟩
  | nop | mov | con | idx | sel | iadd | isub | ineg | iabs | imin | imax | shl | shr | shru | and | or | xor | iclt
  | iceq | inz | ladd | lsub | lmul | ldiv | lneg | labs | lmax | lmin | lscl | lexp | lclt | lceq | lcinf | itol
  | ltoi | tab | draw | mand | mor | mxor | mnot | sumI | sumL | maxI | maxL | minI | minL | argmaxI | argmaxL
  | count | meanL | bcast | split | softmax =>
    exact ⟨_, rfl, kept_whiskDo _ _ _ (Kept.refl _ _)⟩

theorem Kept.of_exec {c : Instr} {s t : State} (h : exec c s = .next t) : Kept (!movesTick c) s t := by
  obtain ⟨u, hu, hk⟩ := exec_kept c s
  rw [h] at hu
  cases hu
  exact hk

/-- A step keeps what its command keeps; the queue alone loses its front. -/
theorem Kept.of_step {s t : State} (h : step s = .next t) : ∃ rest, Kept false { s with pending := rest } t := by
  unfold step at h
  split at h
  · cases h
    exact ⟨s.pending, Kept.refl _ _⟩
  · exact ⟨_, (Kept.of_exec h).weaken⟩

/-- Settles O50: every arm of the dispatch answers a next state, which keeps the queue. -/
theorem everyCommandCompletes : Obligations.EveryCommandCompletes := by
  intro c s
  obtain ⟨t, ht, hk⟩ := exec_kept c s
  exact ⟨t, ht, hk.queue⟩

/-- Settles O51: every operation that stores to DRAM stores by `memPut`, which keeps the canonical form. -/
theorem memoryStaysCanonical : Obligations.MemoryStaysCanonical := by
  intro s t hs h
  obtain ⟨rest, hk⟩ := Kept.of_step h
  exact hk.mem hs

/-- Settles O52: every operation that adds to a bounded log keeps its last entries alone. -/
theorem logsStayBounded : Obligations.LogsStayBounded := by
  intro s t hs h
  obtain ⟨rest, hk⟩ := Kept.of_step h
  exact hk.logs hs

/-- Settles O53: no operation changes an owner key that is installed. -/
theorem ownerKeyIsPermanent : Obligations.OwnerKeyIsPermanent := by
  intro s t k hs h
  obtain ⟨rest, hk⟩ := Kept.of_step h
  exact hk.owner k hs

/-- Settles O54: outside the commands of `movesTick` the tick in progress stays the same tick. -/
theorem onlyTickCommandsMoveTheTick : Obligations.OnlyTickCommandsMoveTheTick := by
  intro c s t h
  have hk := Kept.of_exec h
  split
  case h_13 =>
    have ht := hk.tick (by simp [movesTick, *])
    exact ⟨ht.tickNo, ht.tickStart, ht.tickLen, ht.phase, ht.porstN, ht.now⟩
  all_goals trivial

end Sys2Proof.Machine


/-! ## The Whisk's instruction words read back (R167, R169, R185) -/

namespace Sys2Proof.Machine

open Sys2Proof

/-! ### The fields of a word -/

section
variable {op d a b imm : Nat} (w : WhiskAt)

@[simp] theorem wordOf_op (ho : op < 128) : wordOf op d a b w imm % 128 = op := by
  unfold wordOf; omega

@[simp] theorem wordOf_dst (ho : op < 128) (hd : d < 16) : wordOf op d a b w imm / 128 % 16 = d := by
  unfold wordOf; omega

@[simp] theorem wordOf_srcA (ho : op < 128) (hd : d < 16) (ha : a < 16) : wordOf op d a b w imm / 2048 % 16 = a := by
  unfold wordOf; omega

@[simp] theorem wordOf_srcB (ho : op < 128) (hd : d < 16) (ha : a < 16) (hb : b < 16) :
    wordOf op d a b w imm / 32768 % 16 = b := by
  unfold wordOf; omega

@[simp] theorem wordOf_predSel (ho : op < 128) (hd : d < 16) (ha : a < 16) (hb : b < 16) :
    wordOf op d a b w imm / 524288 % 4 = w.predSel.val := by
  unfold wordOf; omega

@[simp] theorem wordOf_predInv (ho : op < 128) (hd : d < 16) (ha : a < 16) (hb : b < 16) :
    wordOf op d a b w imm / 2097152 % 2 = if w.predInv then 1 else 0 := by
  unfold wordOf; split <;> omega

@[simp] theorem wordOf_imm (ho : op < 128) (hd : d < 16) (ha : a < 16) (hb : b < 16) (hi : imm < 1024) :
    wordOf op d a b w imm / 4194304 % 1024 = imm := by
  unfold wordOf; split <;> omega

@[simp] theorem wordOf_lt (ho : op < 128) (hd : d < 16) (ha : a < 16) (hb : b < 16) (hi : imm < 1024) :
    wordOf op d a b w imm < 4294967296 := by
  unfold wordOf; split <;> omega

end

/-! ### Operands read back from their fields -/

@[simp] theorem fin4_val (n : Fin 4) : fin4 n.val = n := Fin.ext (Nat.mod_eq_of_lt n.isLt)

@[simp] theorem reg16_val (n : Fin 16) : reg16 n.val = n := Fin.ext (Nat.mod_eq_of_lt n.isLt)

@[simp] theorem idxOf_idxCode (s : IdxSource) : idxOf (idxCode s) = some s := by cases s <;> rfl

theorem idxCode_lt (s : IdxSource) : idxCode s < 1024 := by cases s <;> decide

@[simp] theorem roundOf_roundCode (m : Rounding) : roundOf (roundCode m) = some m := by cases m <;> rfl

theorem roundCode_lt (m : Rounding) : roundCode m < 3 := by cases m <;> decide

@[simp] theorem scopeOf_scopeBit (c : Scope) : scopeOf (scopeBit c) = c := by cases c <;> rfl

theorem scopeBit_lt (c : Scope) : scopeBit c < 2 := by cases c <;> decide

theorem redCode_lt (op : RedOp) : redCode op < 10 := by cases op <;> decide

/-- A reduction is the one that its operation's code spells (R185). -/
theorem redOf_of_whiskRed {i : Instr} {w : WhiskAt} {op : RedOp} {slot : Fin 4} {a : Fin 16} {c : Scope}
    (h : whiskRed i = some (w, op, slot, a, c)) : redOf w (redCode op) slot a c = some i := by
  unfold whiskRed at h
  split at h <;> cases h <;> rfl

/-- A mask or slot field reads its low two bits. -/
theorem fin4_add (n : Fin 4) (k : Nat) : fin4 (n.val + 4 * k) = n :=
  Fin.ext ((Nat.add_mul_mod_self_left _ _ _).trans (Nat.mod_eq_of_lt n.isLt))

/-- A predicate whose inversion is set names a mask (R167). -/
theorem predicate_names_mask {w : WhiskAt} (h : w.predInv = false ∨ w.predSel ≠ 0) (hi : w.predInv = true) :
    ¬ w.predSel = 0 :=
  h.resolve_left (by simp [hi])

/-- A Whisk, a frame and a predicate read back. -/
@[simp] theorem whiskAt_of_fields (w : WhiskAt) :
    (⟨w.whisk, w.frame, w.predSel, (if w.predInv = true then 1 else 0) == 1⟩ : WhiskAt) = w := by
  obtain ⟨k, f, p, _ | _⟩ := w <;> rfl

/-! ### Words -/

theorem whiskWord_shiftWord {w : WhiskAt} (hp : w.predInv = true → ¬ w.predSel = 0) {d a : Fin 16} (n : ShiftBy)
    {op : Nat} {f : ShiftBy → Instr} (hf : (op, f) ∈ [(0x16, Instr.shl w d a), (0x17, .shr w d a), (0x18, .shru w d a)]) :
    whiskWord w.whisk w.frame (shiftWord op w d a n) = some (f n) := by
  simp only [List.mem_cons, Prod.mk.injEq, List.not_mem_nil, or_false] at hf
  cases n with
  | reg b => rcases hf with ⟨rfl, rfl⟩ | ⟨rfl, rfl⟩ | ⟨rfl, rfl⟩ <;> simpa [whiskWord, shiftWord, shiftOf] using hp
  | imm k =>
    have hk : 512 + k.val < 576 := by omega
    have hk' : 512 + k.val < 1024 := by omega
    rcases hf with ⟨rfl, rfl⟩ | ⟨rfl, rfl⟩ | ⟨rfl, rfl⟩ <;> simpa [whiskWord, shiftWord, shiftOf, hk, hk'] using hp

/-- The word of a reduction (R185). -/
theorem whiskWord_red {w : WhiskAt} (hp : w.predInv = true → ¬ w.predSel = 0) {i : Instr} {op : RedOp} {slot : Fin 4}
    {a : Fin 16} {c : Scope} (h : whiskRed i = some (w, op, slot, a, c)) :
    whiskWord w.whisk w.frame (wordOf 0x50 0 a.val 0 w (slot.val + 4 * redCode op + 64 * scopeBit c)) = some i := by
  have ho := redCode_lt op
  have hc := scopeBit_lt c
  have hs := slot.isLt
  have himm : slot.val + 4 * redCode op + 64 * scopeBit c < 128 := by omega
  have himm' : slot.val + 4 * redCode op + 64 * scopeBit c < 1024 := by omega
  have hop : (slot.val + 4 * redCode op + 64 * scopeBit c) / 4 % 16 = redCode op := by omega
  have hsc : (slot.val + 4 * redCode op + 64 * scopeBit c) / 64 = scopeBit c := by omega
  have hsl : fin4 (slot.val + 4 * redCode op + 64 * scopeBit c) = slot := by
    rw [show slot.val + 4 * redCode op + 64 * scopeBit c = slot.val + 4 * (redCode op + 16 * scopeBit c) by omega, fin4_add]
  simpa [whiskWord, himm, himm', hop, hsc, hsl, redOf_of_whiskRed h] using hp

/-- The word of BCAST, whose immediate holds the slot and whether its count is read (R169). -/
theorem whiskWord_bcast {w : WhiskAt} (hp : w.predInv = true → ¬ w.predSel = 0) {d : Fin 16} (slot : Fin 4) (counts : Bool) :
    whiskWord w.whisk w.frame (wordOf 0x51 d.val 0 0 w (slot.val + if counts then 4 else 0)) =
      some (.bcast w d slot counts) := by
  have hs := slot.isLt
  cases counts with
  | false =>
    have himm : slot.val < 8 := by omega
    simpa [whiskWord, ifOk, himm, Fin.val_lt_of_le, Nat.div_eq_of_lt] using hp
  | true =>
    have himm : slot.val + 4 < 8 := by omega
    have himm' : slot.val + 4 < 1024 := by omega
    have hc : (slot.val + 4) / 4 = 1 := by omega
    simpa [whiskWord, ifOk, himm, himm', hc, fin4_add slot 1] using hp

/-- The word of LTOI, whose immediate holds the exponent and the rounding (R176); a register is read for DITHER alone. -/
theorem whiskWord_ltoi {w : WhiskAt} (hp : w.predInv = true → ¬ w.predSel = 0) {d a b : Fin 16} (e : BitVec 8)
    {mode : Rounding} (hb : mode = .dither ∨ b = 0) : whiskWord w.whisk w.frame
      (wordOf 0x31 d.val a.val b.val w (e.toNat + 256 * roundCode mode)) = some (.ltoi w d a b e mode) := by
  have he := e.isLt
  have hm := roundCode_lt mode
  have himm : e.toNat + 256 * roundCode mode < 1024 := by omega
  have hr : (e.toNat + 256 * roundCode mode) / 256 = roundCode mode := by omega
  have hx : BitVec.ofNat 8 (e.toNat + 256 * roundCode mode) = e := BitVec.eq_of_toNat_eq (by simp; omega)
  have hb' : (mode == .dither || (b : Nat) == 0) = true := by
    rcases hb with rfl | rfl <;> simp
  simpa [whiskWord, ifOk, himm, hr, hx, hb'] using hp

/-- Settles O56: each operand is read back from its field of the word, and the operation code chooses the instruction. -/
theorem whiskWordsReadBack : Obligations.WhiskWordsReadBack := by
  intro i x xs h hp
  refine ⟨whiskAtOf i, ?_⟩
  cases i with
  | nop | mov | con | idx | sel | iadd | isub | ineg | iabs | imin | imax | and | or | xor | ladd | lsub | lmul | ldiv
  | lneg | labs | lmax | lmin | lexp | tab | split =>
    obtain ⟨rfl, -⟩ := List.cons.inj h
    simpa [whiskWord, whiskAtOf, ifOk, Fin.val_lt_of_le, idxCode_lt] using predicate_names_mask hp
  | lscl w d a imm | itol w d a imm | draw w d imm =>
    obtain ⟨rfl, -⟩ := List.cons.inj h
    have himm : imm.toNat < 1024 := imm.isLt
    simpa [whiskWord, whiskAtOf, ifOk, himm] using predicate_names_mask hp
  | bcast w d slot counts =>
    obtain ⟨rfl, -⟩ := List.cons.inj h
    exact whiskWord_bcast (predicate_names_mask hp) slot counts
  | softmax w d a c =>
    obtain ⟨rfl, -⟩ := List.cons.inj h
    cases c <;> simpa [whiskWord, whiskAtOf, ifOk, scopeBit, scopeOf] using predicate_names_mask hp
  | iclt | iceq | inz | lclt | lceq | mand | mor | mxor | mnot =>
    obtain ⟨rfl, -⟩ := List.cons.inj h
    obtain ⟨hm, hp⟩ := hp
    simpa [whiskWord, whiskAtOf, ifOk, Fin.val_lt_of_le, hm] using predicate_names_mask hp
  | lcinf w m a neg =>
    obtain ⟨rfl, -⟩ := List.cons.inj h
    obtain ⟨hm, hp⟩ := hp
    cases neg <;> simpa [whiskWord, whiskAtOf, ifOk, Fin.val_lt_of_le, hm] using predicate_names_mask hp
  | ltoi w d a b e mode =>
    obtain ⟨rfl, -⟩ := List.cons.inj h
    exact whiskWord_ltoi (predicate_names_mask hp.2) e hp.1
  | shl | shr | shru =>
    obtain ⟨rfl, -⟩ := List.cons.inj h
    exact whiskWord_shiftWord (predicate_names_mask hp) _ (by simp)
  | sumI | sumL | maxI | maxL | minI | minL | argmaxI | argmaxL | count | meanL =>
    obtain ⟨rfl, -⟩ := List.cons.inj h
    exact whiskWord_red (predicate_names_mask hp) rfl
  | _ => exact (List.cons_ne_nil _ _ h.symm).elim

end Sys2Proof.Machine


/-! ## Byte strings: what a field of a concatenation holds (R10) -/

namespace Sys2Proof.Machine

open Sys2Proof

@[simp] theorem natLe_length (n v : Nat) : (natLe n v).length = n := by
  induction n generalizing v with
  | zero => rfl
  | succ n ih => simp [natLe, ih]

@[simp] theorem zeros_length (n : Nat) : (zeros n).length = n := by simp [zeros]

/-- The bytes of a number spell it, within their width. -/
theorem leNat_natLe (n v : Nat) : leNat (natLe n v) = v % 256 ^ n := by
  induction n generalizing v with
  | zero => simp [natLe, leNat, Nat.mod_one]
  | succ n ih =>
    rw [natLe, leNat, ih, BitVec.toNat_ofNat, pow_succ' 256 n]
    exact Nat.mod_mul.symm

theorem byteAt_eq_fld (b : Bytes) (i : Nat) : byteAt b i = fld b i 1 := by
  unfold byteAt fld sub
  rcases hb : b.drop i with _ | ⟨x, xs⟩
  · have : b.length ≤ i := List.drop_eq_nil_iff.1 hb
    simp [leNat, List.getD, List.getElem?_eq_none this]
  · have : b[i]? = some x := by
      have := congrArg (fun l => l[0]?) hb
      simpa using this
    simp [leNat, List.getD, this]

/-- A string taken at its own place and length. -/
theorem sub_append_self (a r : Bytes) : sub (a ++ r) 0 a.length = a := by simp [sub]

theorem sub_append_skip {a : Bytes} {o : Nat} (h : a.length ≤ o) (r : Bytes) (n : Nat) :
    sub (a ++ r) o n = sub r (o - a.length) n := by
  simp [sub, List.drop_append, List.drop_eq_nil_of_le h]

/-- A field behind the string that begins a concatenation. -/
theorem fld_append_skip {a : Bytes} {o : Nat} (h : a.length ≤ o) (r : Bytes) (n : Nat) :
    fld (a ++ r) o n = fld r (o - a.length) n := by
  simp [fld, sub_append_skip h]

/-- A field within the string that begins a concatenation. -/
theorem fld_append_left {a : Bytes} {o n : Nat} (h : o + n ≤ a.length) (r : Bytes) : fld (a ++ r) o n = fld a o n := by
  rw [fld, fld, sub, sub, List.drop_append_of_le_length (by omega), List.take_append_of_le_length (by simp; omega)]

theorem fld_natLe_skip {k o : Nat} (h : k ≤ o) (v n : Nat) (r : Bytes) :
    fld (natLe k v ++ r) o n = fld r (o - k) n := by
  simpa using fld_append_skip (a := natLe k v) (by simpa using h) r n

/-- The field that begins a concatenation. -/
theorem fld_natLe_head (n v : Nat) (r : Bytes) : fld (natLe n v ++ r) 0 n = v % 256 ^ n := by
  rw [fld, ← leNat_natLe]
  congr 1
  simpa using sub_append_self (natLe n v) r

end Sys2Proof.Machine


/-! ## Byari frames read back (R392) -/

namespace Sys2Proof.Machine

open Sys2Proof

/-! ### The parts of a frame's bytes -/

@[simp] theorem headBytes_length (f : LinkFrame) : (headBytes f).length = 62 := by simp [headBytes]

@[simp] theorem trailer_length (f : LinkFrame) : (trailer f).length = 8 := by simp [trailer]

theorem take_frameBytes (f : LinkFrame) : (frameBytes f).take 62 = headBytes f := by
  rw [frameBytes, List.append_assoc, List.append_assoc, ← headBytes_length f, List.take_left]

theorem fld_frameBytes_crc (f : LinkFrame) : fld (frameBytes f) 62 2 = (crc16 (headBytes f)).toNat := by
  have h := fld_append_skip (a := headBytes f) (o := 62) (by simp)
    (natLe 2 (crc16 (headBytes f)).toNat ++ (f.payload ++ trailer f)) 2
  rw [headBytes_length, Nat.sub_self, fld_natLe_head, Nat.mod_eq_of_lt (show _ < 256 ^ 2 from (crc16 (headBytes f)).isLt)] at h
  simpa only [frameBytes, List.append_assoc] using h

theorem drop_frameBytes (f : LinkFrame) : (frameBytes f).drop 64 = f.payload ++ trailer f := by
  have hl : (headBytes f ++ natLe 2 (crc16 (headBytes f)).toNat).length = 64 := by simp
  rw [frameBytes, List.append_assoc, ← hl, List.drop_left]

/-- A field of the header's first 62 bytes. -/
theorem fld_frameBytes_head (f : LinkFrame) {o n : Nat} (h : o + n ≤ 62) :
    fld (frameBytes f) o n = fld (headBytes f) o n := by
  rw [frameBytes, List.append_assoc, List.append_assoc, fld_append_left (by simpa using h)]

/-! ### The fields of a header -/

/-- The flags byte holds the virtual channel and the two flags (R392). -/
theorem flagsByte_fields {vc : Nat} (h : vc < 8) (l s : Bool) :
    let v := vc + (if l then 8 else 0) + (if s then 16 else 0)
    v % 256 = v ∧ v % 8 = vc ∧ (bits v 3 1 == 1) = l ∧ (bits v 4 1 == 1) = s := by
  have hb : ∀ x, (x == 1) = decide (x = 1) := fun _ => rfl
  refine ⟨?_, ?_, ?_, ?_⟩ <;> cases l <;> cases s <;> simp [bits, hb] <;> omega

/-- The hop word holds the credit's channel, the hops, the space and the tenant (R392). -/
theorem hopWord_fields {vc hops space tenant : Nat} (hv : vc < 8) (hh : hops < 32) (hs : space < 4) (ht : tenant < 1024) :
    let c := vc + 8 * hops + 256 * space + 1024 * tenant
    c % 281474976710656 = c ∧ c % 8 = vc ∧ bits c 3 5 = hops ∧ bits c 8 2 = space ∧ bits c 10 10 = tenant := by
  unfold bits
  refine ⟨?_, ?_, ?_, ?_, ?_⟩ <;> omega

theorem fBursts_mul {f : LinkFrame} (h : f.payload.length % 64 = 0) : 64 * fBursts f = f.payload.length := by
  unfold fBursts; omega

theorem frameFields_frameBytes {f : LinkFrame} (h : f.wf = true) : frameFields (frameBytes f) = f := by
  simp only [LinkFrame.wf, Bool.and_eq_true, decide_eq_true_eq, beq_iff_eq, and_assoc, Nat.reducePow] at h
  obtain ⟨hop, hvc, hseq, hack, hdest, hsrc, hflow, hbursts, hcvc, hhops, hspace, htenant, haddr, hopd, hopd2, htag, hmod,
    hlen⟩ := h
  obtain ⟨hf0, hf1, hf2, hf3⟩ := flagsByte_fields hvc f.lastFrame f.signal
  obtain ⟨hw0, hw1, hw2, hw3, hw4⟩ := hopWord_fields hcvc hhops hspace htenant
  have hb : fBursts f < 65536 := by unfold fBursts; omega
  have hseq' : f.linkSeq < 65536 := by omega
  have hack' : f.linkAck < 65536 := by omega
  have hp : sub (frameBytes f) 64 (64 * fBursts f) = f.payload := by
    rw [sub, drop_frameBytes, fBursts_mul hmod, List.take_left]
  unfold frameFields
  simp only [byteAt_eq_fld, fld_frameBytes_head, headBytes, List.append_assoc, Nat.reduceAdd, Nat.reduceLeDiff]
  simp only [fld_natLe_skip, fld_natLe_head, Nat.reduceSub, Nat.reduceLeDiff, Nat.reducePow, Nat.mod_eq_of_lt, *]

theorem fld_frameBytes_bursts {f : LinkFrame} (h : f.payload.length ≤ 4096) : fld (frameBytes f) 2 2 = fBursts f := by
  have hb : fBursts f < 65536 := by unfold fBursts; omega
  rw [fld_frameBytes_head f (by omega)]
  simp only [headBytes, List.append_assoc, fld_natLe_skip, fld_natLe_head, Nat.reduceSub, Nat.reduceLeDiff, Nat.reducePow,
    Nat.mod_eq_of_lt hb]

/-- Settles O57: every field is read back from its place, so the trailer formed again is the one that was sent. -/
theorem framesReadBack : Obligations.FramesReadBack := by
  intro f h
  have hf := frameFields_frameBytes h
  simp only [LinkFrame.wf, Bool.and_eq_true, decide_eq_true_eq, beq_iff_eq] at h
  obtain ⟨⟨-, hmod⟩, hlen⟩ := h
  have hb := fld_frameBytes_bursts hlen
  have hm := fBursts_mul hmod
  have hlength : (frameBytes f).length = 72 + f.payload.length := by simp [frameBytes]; omega
  have htrailer : (frameBytes f).drop (64 + f.payload.length) = trailer f := by
    rw [← List.drop_drop, drop_frameBytes, List.drop_left]
  have hcrc : headCrcOk (frameBytes f) = true := by
    rw [headCrcOk, take_frameBytes, fld_frameBytes_crc, beq_self_eq_true]
  simp only [frameDecode, hf, hb, hm, hlength, htrailer, hcrc]
  rw [if_pos ⟨by omega, by omega, trivial, trivial, trivial⟩]

end Sys2Proof.Machine


/-! ## Raising a fault (R411 to R413, R416, R425, R426) -/

namespace Sys2Proof.Machine

open Sys2Proof

theorem getLast?_drop_append_singleton {α : Type} (l : List α) (a : α) (n : Nat) (hn : 0 < n) :
    ((l ++ [a]).drop ((l ++ [a]).length - n)).getLast? = some a := by
  rw [List.getLast?_drop, if_neg (by simp; omega), List.getLast?_concat]

theorem faultActs_faults (cls code : Nat) (s : State) : faultActs cls code s = { s with faults := { s.faults with
    silent := s.faults.silent || cls == 3
    planned := if cls = 2 ∧ s.faults.planned = none then some code else s.faults.planned } } := by
  unfold faultActs
  split
  · simp
  · cases s.faults.planned <;> simp
  · next h3 h2 =>
    rw [beq_false_of_ne h3, if_neg fun h => h2 h.1, Bool.or_false]

theorem raiseFault_faults (code : Nat) (kind : UnitKind) (idx : Nat) (req : Option Nat) (d : Nat) (s : State) :
    raiseFault code kind idx req d s = { s with faults := { s.faults with
      log := (s.faults.log ++ [faultEntry s code kind idx req d]).drop
        ((s.faults.log ++ [faultEntry s code kind idx req d]).length - 256)
      silent := s.faults.silent || faultClass code kind == 3
      planned := if faultClass code kind = 2 ∧ s.faults.planned = none then some code else s.faults.planned
      charges := if faultCharges code kind then
        s.faults.charges.filter (fun c => within s c.2.2 1000000000) ++ [(chargedKind kind, idx, s.time.now)]
        else s.faults.charges } } := by
  simp only [raiseFault, faultActs_faults, logFault]
  cases faultCharges code kind <;> simp [chargeUnit, within]

/-- Settles O7: the log keeps its last 256, which the new entry ends; the other fields follow the fault's class and charge. -/
theorem raisedFaultIsLogged : Obligations.RaisedFaultIsLogged := by
  intro code kind idx req d s
  simp only [raiseFault_faults]
  refine ⟨trivial, getLast?_drop_append_singleton _ _ _ (by omega), trivial, trivial, fun h => ?_, fun h => ?_, trivial⟩ <;>
    simp [h]

end Sys2Proof.Machine


/-! ## The tick grid (R18) -/

namespace Sys2Proof.Machine

open Sys2Proof

/-- The denominator of a grid's period. -/
def Grid.den (g : Grid) : Int := (max g.d 1 : Nat)

/-- A grid's period in parts of its denominator: T(n) is the epoch and the floor of n periods. -/
def Grid.per (g : Grid) : Int := (g.i * (max g.d 1) + g.n : Nat)

theorem Grid.den_pos (g : Grid) : 0 < g.den := by unfold Grid.den; omega

theorem Grid.per_eq (g : Grid) : g.per = g.i * g.den + g.n := by unfold Grid.per Grid.den; push_cast; rfl

theorem Grid.t_eq (g : Grid) (n : Int) : g.t n = g.e + (n * g.per) / g.den := by
  have hd := g.den_pos
  rw [Grid.per_eq, mul_add, ← mul_assoc, add_comm (n * g.i * g.den), Int.add_mul_ediv_right _ _ hd.ne', Grid.t,
    Int.fdiv_eq_ediv_of_nonneg _ (by omega)]
  unfold Grid.den
  push_cast
  ring

theorem Grid.den_le_per {g : Grid} (hi : 1 ≤ g.i) : g.den ≤ g.per := by
  have hd := g.den_pos
  rw [Grid.per_eq]
  nlinarith

/-- A tick begins by an instant just when its index is at most the instant's. -/
theorem Grid.t_le_iff {g : Grid} (hi : 1 ≤ g.i) (n t : Int) : g.t n ≤ t ↔ n ≤ g.index t := by
  have hd := g.den_pos
  have hp : 0 < g.per := hd.trans_le (Grid.den_le_per hi)
  have hix : g.index t = ((t - g.e + 1) * g.den - 1) / g.per := Int.fdiv_eq_ediv_of_nonneg _ hp.le
  rw [hix, Int.le_ediv_iff_mul_le hp, Grid.t_eq]
  calc g.e + n * g.per / g.den ≤ t ↔ n * g.per / g.den < t - g.e + 1 := by omega
    _ ↔ n * g.per < (t - g.e + 1) * g.den := Int.ediv_lt_iff_lt_mul hd
    _ ↔ n * g.per ≤ (t - g.e + 1) * g.den - 1 := by omega

theorem Grid.t_lt_succ {g : Grid} (hi : 1 ≤ g.i) (n : Int) : g.t n < g.t (n + 1) := by
  have hd := g.den_pos
  have h : n * g.per / g.den + 1 ≤ (n + 1) * g.per / g.den := by
    rw [← Int.add_mul_ediv_right _ _ hd.ne']
    exact Int.ediv_le_ediv hd (by linarith [Grid.den_le_per hi])
  rw [Grid.t_eq, Grid.t_eq]
  omega

/-- Settles O12: T(n) ≤ t holds just for the n up to the index of t. -/
theorem gridIndexIsTheTickThatHoldsAnInstant : Obligations.GridIndexIsTheTickThatHoldsAnInstant := by
  intro g t hi
  have h := fun n => Grid.t_le_iff hi n t
  refine ⟨(h _).2 le_rfl, ?_, fun n h1 h2 => ?_, Grid.t_lt_succ hi⟩
  · rw [← not_le, h]
    omega
  · rw [← not_le, h] at h2
    rw [h] at h1
    omega

end Sys2Proof.Machine


/-! ## The tick boundary (R41, R451) -/

namespace Sys2Proof.Machine

open Sys2Proof

/-- The boundary's steps before the grid moves on: the commit set, generations, and what comes into force (R41 steps 1 to 4). -/
def beforeGrid (r : State) : State :=
  applyStep (tokenIds r r.time.tickNo)
    (freeStep (snapshots ((r.time.tickNo + 1) % 2 ^ 64) (commitStep r.time.tickNo r)))

theorem kept_beforeGrid (r : State) : Kept true r (beforeGrid r) :=
  kept_applyStep _ _ (kept_freeStep _ (kept_snapshots _ _ (kept_commitStep _ _ (Kept.refl _ _))))

/-- The attestation nonces that a boundary takes up (R490). -/
def dueNonces (r : State) : List Pending := (r.dict.pending.filter (dueNow r)).filter (fun p => p.key == oAttestNonce)

/-- A boundary of a part that runs: the grid moves on between the steps before it and the start of the new tick. -/
theorem doTickBoundary_running {s : State} (hp : s.boot.porstN = true) (hph : s.time.phase = .sealed)
    (hc : s.boot.chip ≠ .tripped) : doTickBoundary s =
      reports (dueNonces (reachBoundary s)) (beginTick (tickStep (beforeGrid (reachBoundary s)))) := by
  rw [doTickBoundary, if_neg (by simp [hp, hph]), if_neg hc]
  rfl

theorem regrid_of_no_period {s : State} (h : s.time.pend = none) : regrid s = s := by simp only [regrid, h]

theorem switchSource_of_none {s : State} (h : s.time.switchDue = none) : switchSource s = s := by
  simp only [switchSource, h]

/-- A boundary at which nothing places the grid leaves what the next tick has. -/
theorem placeIfDue_of_none {s : State} (h : s.time.placeDue = false) (hp : s.time.ptpStepDue = false)
    (hs : s.time.stepDue = none) : placeIfDue s = s := by
  have hd : ¬ (s.time.placeDue ∨ stepIsDue s) := by simp [h, stepIsDue, hp, hs]
  rw [placeIfDue, if_neg hd]
  simp only [← hp, ← hs, ite_self]

/-- Settles O15: the steps on both sides of the grid's keep the tick in progress. -/
theorem tickBoundaryBeginsATick : Obligations.TickBoundaryBeginsATick := by
  refine ⟨fun s hp hph hc => ?_, fun u hpend hplace hptp hstep hsw => ?_, fun s hp hph hc => ?_⟩
  · intro r c u
    have hu : u = beforeGrid r := rfl
    have hk : Kept true s u := hu ▸ (kept_reachBoundary s (Kept.refl true s)).trans (kept_beforeGrid r)
    have hb : doTickBoundary s = reports (dueNonces r) (beginTick (tickStep u)) := hu ▸ doTickBoundary_running hp hph hc
    clear_value u
    have hr : Kept true (tickStep u) (doTickBoundary s) := hb ▸ kept_reports _ _ (kept_beginTick _ (Kept.refl _ _))
    have hs := hk.tick rfl
    have ht := hr.tick rfl
    exact ⟨hs.tickNo, hs.tickStart, hs.tickLen, doTickBoundary s, rfl, ht.tickNo, ht.tickStart, ht.tickLen, ht.phase,
      ((kept_tickStep _ hk.weaken).trans hr.weaken).queue⟩
  · have ht : tickStep u = nextTick u := by
      rw [tickStep, regrid_of_no_period hpend, placeIfDue_of_none (s := nextTick u) hplace hptp hstep,
        switchSource_of_none (s := nextTick u) hsw]
    rw [ht, nextTick]
    exact ⟨rfl, rfl, rfl, rfl, rfl⟩
  · show Host.Outcome.next (doTickBoundary s) = _
    rw [doTickBoundary, if_neg (by simp [hp, hph]), if_pos hc, heldBoundary, nextBoundary]

end Sys2Proof.Machine


/-! ## Sealed tick records (R48, R49) -/

namespace Sys2Proof.Machine

open Sys2Proof

@[simp] theorem padTo_length (n : Nat) (b : Bytes) : (padTo n b).length = n := by
  simp only [padTo, List.length_append, List.length_take, zeros_length]
  omega

/-- A block leaves eight words. -/
theorem shaBlock_length (h : List Word) (b : Bytes) : (shaBlock h b).length = 8 := rfl

/-- A digest has 32 bytes. -/
@[simp] theorem sha256_length (m : Bytes) : (sha256 m).length = 32 := by
  have h8 : ∀ (l : List Nat) (h : List Word), h.length = 8 →
      (l.foldl (fun h i => shaBlock h (sub (shaPad m) (64 * i) 64)) h).length = 8 := by
    intro l h hh
    exact List.foldlRecOn (motive := fun h : List Word => h.length = 8) _ _ hh fun _ _ _ _ => shaBlock_length _ _
  simp [sha256, natBe, List.length_flatMap, h8 _ shaH0 rfl]

theorem sealRecord_open {s : State} (h : s.record.sealedNow = false) (hs : isSpare s = false) :
    sealRecord s = { s with record := { s.record with
      sealedNow := true
      ring := (s.record.ring ++ [(s.time.tickNo, recordBytes s)]).drop
        ((s.record.ring ++ [(s.time.tickNo, recordBytes s)]).length - 64)
      prevDigest := sub (recordBytes s) 24 8
      entries := []
      flags := 0 } } := by
  rw [sealRecord, if_neg (by simp [h]), if_neg (by simp [hs])]

/-- A record's header, field by field (R48). -/
theorem recordBytes_eq (s : State) : recordBytes s = natLe 8 s.time.tickNo ++ (natLe 4 s.record.lengthNs ++
    (natLe 1 s.record.srcState ++ (natLe 1 s.record.flags ++ (natLe 1 s.record.limit ++ (natLe 1 0 ++
    (natLe 4 s.record.entries.length ++ (natLe 4 (64 + s.record.entries.flatten.length) ++
    (sha256 s.record.entries.flatten ++ (padTo 8 s.record.prevDigest ++ s.record.entries.flatten))))))))) := by
  simp only [recordBytes, List.append_assoc]
  rfl

theorem recordBytes_length (s : State) : (recordBytes s).length = 64 + s.record.entries.flatten.length := by
  simp [recordBytes_eq]; omega

theorem sub_natLe_skip {k o : Nat} (h : k ≤ o) (v n : Nat) (r : Bytes) :
    sub (natLe k v ++ r) o n = sub r (o - k) n := by
  simpa using sub_append_skip (a := natLe k v) (by simpa using h) r n

theorem recordBytes_digest (s : State) : sub (recordBytes s) 24 32 = sha256 s.record.entries.flatten := by
  simp only [recordBytes_eq, sub_natLe_skip, Nat.reduceSub, Nat.reduceLeDiff]
  simpa using sub_append_self (sha256 s.record.entries.flatten) _

theorem recordBytes_prevDigest (s : State) : sub (recordBytes s) 56 8 = padTo 8 s.record.prevDigest := by
  simp only [recordBytes_eq, sub_natLe_skip, Nat.reduceSub, Nat.reduceLeDiff]
  rw [sub_append_skip (by simp), sha256_length]
  simpa using sub_append_self (padTo 8 s.record.prevDigest) _

theorem recordBytes_body (s : State) : (recordBytes s).drop 64 = s.record.entries.flatten := by
  simp [recordBytes_eq, List.drop_append, List.drop_eq_nil_of_le]

/-- Settles O17: each field of the header is read back from its place in the record's bytes. -/
theorem sealedRecordsChain : Obligations.SealedRecordsChain := by
  intro s h hs
  refine ⟨recordBytes s, ?_⟩
  rw [sealRecord_open h hs]
  have hl : fld (recordBytes s) 20 4 = (recordBytes s).length % 2 ^ 32 := by
    rw [recordBytes_length, recordBytes_eq]
    simp only [fld_natLe_skip, fld_natLe_head, Nat.reduceSub, Nat.reduceLeDiff, Nat.reducePow]
  refine ⟨getLast?_drop_append_singleton _ _ _ (by omega), drop_bound _ _, rfl, ?_, ?_, ?_, ?_, hl, recordBytes_digest s,
    recordBytes_prevDigest s, recordBytes_body s, rfl⟩
  all_goals simp [byteAt_eq_fld, recordBytes_eq, fld_natLe_skip, fld_natLe_head]

end Sys2Proof.Machine


/-! ## A dispatch and a pause (R111, R128, R376, R384, R471) -/

namespace Sys2Proof.Machine

open Sys2Proof

/-! ### Requests, units and what changes them -/

@[simp] theorem reqGet_reqMod_same (i : Nat) (f : Request → Request) (s : State) :
    reqGet (reqMod i f s) i = (reqGet s i).map f := sfind_smod_same _ _ _

/-- The unit of a step stands first among the units of its number. -/
theorem find?_map_unit (l : List UnitSt) (step unit : Nat) {f : UnitSt → UnitSt}
    (hf : ∀ u, (f u).step = u.step ∧ (f u).unit = u.unit) :
    (l.map (fun u => if u.step = step ∧ u.unit = unit then f u else u)).find? (fun u => u.step == step && u.unit == unit) =
      (l.find? (fun u => u.step == step && u.unit == unit)).map f := by
  induction l with
  | nil => rfl
  | cons u l ih =>
    by_cases hu : u.step = step ∧ u.unit = unit
    · simp [hu, hf]
    · have hb : (u.step == step && u.unit == unit) = false := by simpa using hu
      simp only [List.map_cons, if_neg hu, List.find?_cons, hb, ih]

theorem unitGet_unitMod_same (i step unit : Nat) {f : UnitSt → UnitSt} (s : State)
    (hf : ∀ u, (f u).step = u.step ∧ (f u).unit = u.unit) :
    unitGet (unitMod i step unit f s) i step unit = (unitGet s i step unit).map f := by
  rw [unitGet, unitMod, reqGet_reqMod_same, unitGet]
  cases reqGet s i with
  | none => rfl
  | some r => exact find?_map_unit r.units step unit hf

theorem unitGet_of_reqs {s t : State} (h : t.sched.reqs = s.sched.reqs) (i step unit : Nat) :
    unitGet t i step unit = unitGet s i step unit := by
  simp only [unitGet, reqGet, h]

theorem unitGet_stepMod (i k : Nat) (f : StepSt → StepSt) (s : State) (step unit : Nat) :
    unitGet (stepMod i k f s) i step unit = unitGet s i step unit := by
  rw [unitGet, stepMod, reqGet_reqMod_same, unitGet]
  cases reqGet s i <;> rfl

/-! ### A dispatch -/

/-- A dispatch wakes an IDLE chip (R471). -/
def wakeIdle (s : State) : State :=
  if s.boot.chip = .idle then { s with boot := { s.boot with chip := .active, idleBoundaries := 0, engineGated := false } }
  else s

/-- The RESUME entry of a unit that stood paused (R384). -/
def resumeNote (i : Nat) (u : UnitSt) (s : State) : State :=
  if u.phase = .paused then addEntry (pauseEntry 0x04 i u 0 0 0xFFFF 0 (offsetNs s) 0) s else s

theorem wakeIdle_eq (s : State) : wakeIdle s = { s with boot := (wakeIdle s).boot } := by
  unfold wakeIdle; split <;> rfl

theorem resumeNote_eq (i : Nat) (u : UnitSt) (s : State) :
    resumeNote i u s = { s with record := (resumeNote i u s).record } := by
  unfold resumeNote
  split
  · unfold addEntry; split <;> rfl
  · rfl

/-- A dispatch wakes the chip, notes a resume, fixes the step's format, and lets the unit run. -/
theorem dispatch_eq (i : Nat) (r : Request) (u : UnitSt) (s : State) : ∃ f late again,
    (u.phase ≠ .paused → again = u.again) ∧
    let t := if isCompact r then resumeNote i u (wakeIdle s) else stepMod i u.step f (resumeNote i u (wakeIdle s))
    dispatch i r u s = unitMod i u.step u.unit (fun u => { u with phase := .running, again := again })
      { t with sched := { t.sched with lateHeld := late } } :=
  ⟨_, _, if u.phase = .paused ∧ ¬ isCompact r then _ else u.again, fun h => if_neg fun k => h k.1, rfl⟩

theorem addEntry_record_of_eq {s t : State} (h : t.record = s.record) (e : Bytes) :
    (addEntry e t).record = (addEntry e s).record := by
  rw [addEntry_record, addEntry_record, h]

section
variable (i : Nat) (r : Request) (u : UnitSt) (s : State)

theorem dispatch_record : (dispatch i r u s).record = (resumeNote i u s).record := by
  obtain ⟨f, late, again, -, h⟩ := dispatch_eq i r u s
  have hn : offsetNs (wakeIdle s) = offsetNs s := by rw [wakeIdle_eq]; rfl
  have hs : (wakeIdle s).record = s.record := by rw [wakeIdle_eq]
  have hw : (resumeNote i u (wakeIdle s)).record = (resumeNote i u s).record := by
    rw [resumeNote, resumeNote, hn]
    split
    exacts [addEntry_record_of_eq hs _, hs]
  rw [h, ← hw]
  dsimp only [unitMod, reqMod]
  split <;> rfl

theorem dispatch_frame : (dispatch i r u s).boot = (wakeIdle s).boot ∧ (dispatch i r u s).time = s.time ∧
    (dispatch i r u s).dram = s.dram := by
  obtain ⟨f, late, again, -, h⟩ := dispatch_eq i r u s
  rw [h, resumeNote_eq, wakeIdle_eq]
  dsimp only [unitMod, reqMod]
  split <;> exact ⟨rfl, rfl, rfl⟩

theorem dispatch_unit {v : UnitSt} (hv : unitGet s i u.step u.unit = some v) : ∃ a,
    unitGet (dispatch i r u s) i u.step u.unit = some { v with phase := .running, again := a } ∧
      (u.phase ≠ .paused → a = u.again) := by
  obtain ⟨f, late, again, ha, h⟩ := dispatch_eq i r u s
  refine ⟨again, ?_, ha⟩
  have hw : unitGet (resumeNote i u (wakeIdle s)) i u.step u.unit = some v := by
    rw [← hv]
    exact unitGet_of_reqs (by rw [resumeNote_eq, wakeIdle_eq]) _ _ _
  have ht : unitGet (if isCompact r then resumeNote i u (wakeIdle s) else
      stepMod i u.step f (resumeNote i u (wakeIdle s))) i u.step u.unit = some v := by
    split
    · exact hw
    · rw [unitGet_stepMod, hw]
  rw [h]
  refine (unitGet_unitMod_same _ _ _ _ (by exact fun _ => ⟨rfl, rfl⟩)).trans ?_
  exact congrArg (Option.map _) ((unitGet_of_reqs rfl _ _ _).trans ht)

end

/-! ### A pause -/

/-- A change of the engines and the Sieves alone. -/
structure EnginesOnly (s t : State) : Prop where
  eq : t = { s with engine := t.engine, vars := t.vars }

theorem EnginesOnly.refl (s : State) : EnginesOnly s s := ⟨rfl⟩

theorem EnginesOnly.trans {s t u : State} (h : EnginesOnly s t) (k : EnginesOnly t u) : EnginesOnly s u := by
  obtain ⟨h⟩ := h
  obtain ⟨k⟩ := k
  rw [h] at k
  exact ⟨k⟩

theorem dropBanks_enginesOnly (g : Nat) (s : State) : EnginesOnly s (dropBanks g s) := by
  unfold dropBanks
  split <;> exact ⟨rfl⟩

theorem unbindStep_enginesOnly (p i k : Nat) (s : State) : EnginesOnly s (unbindStep p i k s) := by
  unfold unbindStep
  split <;> exact ⟨rfl⟩

theorem dropSets_enginesOnly (f : TableSet → Bool) (s : State) : EnginesOnly s (dropSets f s) := ⟨rfl⟩

theorem flushSieve_enginesOnly (n : Nat) (s : State) : EnginesOnly s (flushSieve n s) := ⟨rfl⟩

/-- A pause takes the step's Hoppers off the Griddle that stands behind its number. -/
def pauseUnbind (g i k : Nat) (s : State) : State :=
  match physGriddle s g with
  | some p => unbindStep p i k s
  | none => s

/-- A pause of a request with a Variant flushes the Sieve of its Griddle. -/
def pauseFlush (g i : Nat) (s : State) : State :=
  match reqGet s i with
  | some r => if r.var.isSome then flushSieve (sieveOf s g) s else s
  | none => s

theorem pauseUnbind_enginesOnly (g i k : Nat) (s : State) : EnginesOnly s (pauseUnbind g i k s) := by
  unfold pauseUnbind
  split
  exacts [unbindStep_enginesOnly _ _ _ _, .refl _]

theorem pauseFlush_enginesOnly (g i : Nat) (s : State) : EnginesOnly s (pauseFlush g i s) := by
  unfold pauseFlush
  split
  · split
    exacts [flushSieve_enginesOnly _ _, .refl _]
  · exact .refl _

/-- A pause changes its unit, the engines and the Sieves, and writes its entry. -/
theorem pausedAt_eq (point cause block g i : Nat) (u : UnitSt) (s : State) : ∃ t,
    EnginesOnly (unitMod i u.step u.unit (fun u => { u with phase := .paused }) s) t ∧
    pausedAt point cause block g i u s = addEntry (pauseEntry 0x03 i u point cause
      (if point = 2 then u.saveSlot.getD 0xFFFF else 0xFFFF) block (offsetNs t) (remaining u)) t := by
  have hb := dropBanks_enginesOnly g (unitMod i u.step u.unit (fun u => { u with phase := .paused }) s)
  have hd := hb.trans (dropSets_enginesOnly (fun t => t.request == i && t.step == u.step) _)
  exact ⟨pauseFlush g i (pauseUnbind g i u.step _),
    (hd.trans (pauseUnbind_enginesOnly g i u.step _)).trans (pauseFlush_enginesOnly g i _), rfl⟩

/-- Settles O21: a dispatch and a pause each change their unit's phase and write at most one entry. -/
theorem dispatchAndPauseAreRecorded : Obligations.DispatchAndPauseAreRecorded := by
  refine ⟨fun i r u s => ?_, fun point cause block g i u s => ?_⟩
  · obtain ⟨hb, ht, hd⟩ := dispatch_frame i r u s
    refine ⟨fun h => ?_, fun h => ?_, fun h => ?_, fun h => ?_, ht, hd, fun v hv => dispatch_unit i r u s hv⟩
    · rw [dispatch_record, resumeNote, if_pos h]
    · rw [dispatch_record, resumeNote, if_neg h]
    · rw [hb, wakeIdle, if_pos h]
    · rw [hb, wakeIdle, if_neg h]
  · obtain ⟨t, ⟨ht⟩, h⟩ := pausedAt_eq point cause block g i u s
    have hr : t.record = s.record := by rw [ht]; rfl
    have hn : t.time = s.time := by rw [ht]; rfl
    have hd : t.dram = s.dram := by rw [ht]; rfl
    have ho : offsetNs t = offsetNs s := by rw [offsetNs, hn, offsetNs]
    dsimp only
    rw [h, ho]
    refine ⟨addEntry_record_of_eq hr _, by rw [addEntry_time, hn], by rw [addEntry_dram, hd], fun w hw => ?_⟩
    have hu : unitGet t i u.step u.unit = some { w with phase := .paused } := by
      rw [ht]
      refine (unitGet_of_reqs rfl _ _ _).trans ((unitGet_unitMod_same _ _ _ s (by exact fun _ => ⟨rfl, rfl⟩)).trans ?_)
      rw [hw]
      rfl
    exact (unitGet_of_reqs (by rw [addEntry_sched]) _ _ _).trans hu

end Sys2Proof.Machine


/-! ## Device memory reads back (R304, R305) -/

namespace Sys2Proof.Machine

open Sys2Proof

/-- The listed cells of bytes hold each of them at its address. -/
theorem sget_memCells (a : Nat) (bs : Bytes) (i : Nat) (h : i < bs.length) : sget 0 (memCells a bs) (a + i) = bs[i] := by
  induction bs generalizing a i with
  | nil => simp at h
  | cons b bs ih =>
    have hhead : sget 0 (memCells (a + 1) bs) a = 0 := by
      rw [sget, sfind_none _ _ fun e he => by have := (memCells_keys _ _ e he).1; omega]
      rfl
    cases i with
    | zero =>
      rw [memCells]
      split
      · next hb => simpa [hb] using hhead
      · simp [sget, sfind]
    | succ i =>
      have hi := ih (a + 1) i (by simpa using h)
      rw [Nat.add_assoc, Nat.add_comm 1 i] at hi
      rw [memCells]
      split
      · exact hi
      · rw [sget, sfind, if_neg (by omega)]
        exact hi

/-- A byte stored reads back. -/
theorem memByte_memPut_inside (m : List Host.Cell) (a : Nat) (bs : Bytes) (i : Nat) (h : i < bs.length) :
    memByte (memPut m a bs) (a + i) = bs[i] := by
  rw [← sget_memCells a bs i h, memByte, memPut, sget, sget, sfind_append, sfind_append,
    sfind_none (m.filter _) _ fun e he => by have := (List.mem_filter.1 he).2; simp at this; omega,
    sfind_none (m.filter fun c => decide (a + bs.length ≤ c.1)) _ fun e he => by
      have := (List.mem_filter.1 he).2; simp at this; omega]
  simp

/-- A read gives the bytes of its addresses. -/
theorem memGet_eq (m : List Host.Cell) (a n : Nat) : memGet m a n = (List.range n).map (fun i => memByte m (a + i)) := by
  refine List.map_congr_left fun i hi => ?_
  have hi := List.mem_range.1 hi
  rw [sget, sfind_filter m (a + i) (fun x => a ≤ x && x < a + n) (by simp; omega), memByte, sget]

/-- Settles O30: the stored cells stand at their addresses, between the cells below and above them. -/
theorem memoryReadsBack : Obligations.MemoryReadsBack := by
  refine fun m a bs => ⟨?_, fun x hx => memByte_memPut_outside m a bs x hx, fun h => memPut_wf h a bs⟩
  rw [memGet_eq]
  refine List.ext_getElem (by simp) fun i hi hb => ?_
  rw [List.getElem_map, List.getElem_range, memByte_memPut_inside m a bs i hb]

end Sys2Proof.Machine


/-! ## What an access through the Pantry changes (R305, R309, R323 to R325) -/

namespace Sys2Proof.Machine

open Sys2Proof

/-- A change of the Pantry's sets, of the marks of bursts, of the hit and miss counts and of the energy model alone. -/
structure PantryOnly (s t : State) : Prop where
  eq : t = { s with
    dram := { s.dram with pantry := t.dram.pantry, marks := t.dram.marks }, dict := t.dict, power := t.power }
  obj : ∀ k, k ≠ oPantryHitCount → k ≠ oPantryMissCount → getO t k = getO s k

theorem PantryOnly.refl (s : State) : PantryOnly s s := ⟨rfl, fun _ _ _ => rfl⟩

theorem PantryOnly.trans {s t u : State} (h : PantryOnly s t) (k : PantryOnly t u) : PantryOnly s u := by
  obtain ⟨h, hg⟩ := h
  obtain ⟨k, kg⟩ := k
  rw [h] at k
  exact ⟨k, fun j hj hm => (kg j hj hm).trans (hg j hj hm)⟩

theorem PantryOnly.foldl {α : Type} {f : State → α → State} (hf : ∀ s x, PantryOnly s (f s x)) (l : List α) (s : State) :
    PantryOnly s (l.foldl f s) := by
  induction l generalizing s with
  | nil => exact .refl s
  | cons x l ih => exact (hf s x).trans (ih _)

/-- The energy of an access counts in the activity model alone. -/
theorem modelEnergy_pantryOnly (u c n : Nat) (s : State) : PantryOnly s (modelEnergy u c n s) := by
  refine ⟨?_, fun k _ _ => getO_of_vals (by rw [modelEnergy_dict]) k⟩
  unfold modelEnergy
  split <;> rfl

theorem sets_pantryOnly (s : State) (p : SMap PSet) (m : SMap BurstMark) :
    PantryOnly s { s with dram := { s.dram with pantry := p, marks := m } } := ⟨rfl, fun _ _ _ => rfl⟩

theorem bump_hit_pantryOnly (s : State) : PantryOnly s (bump s oPantryHitCount) :=
  ⟨rfl, fun _ h _ => getO_bump_other s h⟩

theorem bump_miss_pantryOnly (s : State) : PantryOnly s (bump s oPantryMissCount) :=
  ⟨rfl, fun _ _ h => getO_bump_other s h⟩

theorem touchLine_pantryOnly (h : Hint) (w : Bool) (l : Nat) (s : State) : PantryOnly s (touchLine h w l s) := by
  refine (modelEnergy_pantryOnly (modelUnit 5 (pantrySlice (l * 128))) 4 1 s).trans ?_
  unfold touchLine
  dsimp only
  split
  · exact (sets_pantryOnly _ _ _).trans (bump_hit_pantryOnly _)
  · split
    · exact bump_miss_pantryOnly _
    · exact (bump_miss_pantryOnly _).trans (sets_pantryOnly _ _ _)

theorem killLine_pantryOnly (l : Nat) (s : State) : PantryOnly s (killLine l s) := sets_pantryOnly _ _ _

/-! ### A write to bursts that can be read -/

/-- A burst that a read can have: it bears no mark, or the Pantry holds its line. -/
def Readable (s : State) (b : Nat) : Prop := sfind s.dram.marks b = none ∨ pantryHolds s b = true

theorem readable_of_readFault {s : State} {a n : Nat} (h : readFault s a n = none) : ∀ b ∈ burstsOf a n, Readable s b := by
  intro b hb
  rw [readFault] at h
  split at h
  · exact absurd h (by simp)
  · have hs := List.findSome?_eq_none_iff.1 h b hb
    cases hm : sfind s.dram.marks b with
    | none => exact .inl hm
    | some k =>
      rw [hm] at hs
      cases hp : pantryHolds s b with
      | true => exact .inr hp
      | false => cases k <;> simp [hp] at hs

theorem liveRange_of_readFault {s : State} {a n : Nat} (h : readFault s a n = none) : liveRange s a n = true := by
  rw [readFault] at h
  split at h
  · exact absurd h (by simp)
  · next hl => simpa using hl

/-- The state with other marks. -/
def withMarks (m : SMap BurstMark) (s : State) : State := { s with dram := { s.dram with marks := m } }

/-- A write clears the marks of bursts that can be read, and stores nothing there. -/
theorem unmark_readable (l : List Nat) (s : State) (h : ∀ b ∈ l, Readable s b) :
    ∃ m, l.foldl (fun s b => unmark b s) s = withMarks m s := by
  induction l generalizing s with
  | nil => exact ⟨s.dram.marks, rfl⟩
  | cons b l ih =>
    have hl : ∀ c ∈ l, Readable s c := fun c hc => h c (by simp [hc])
    rw [List.foldl_cons, unmark]
    split
    · next k hk =>
      have hp : pantryHolds s b = true := (h b (by simp)).resolve_left (by simp [hk])
      rw [if_pos hp]
      obtain ⟨m, hm⟩ := ih (withMarks (sdel s.dram.marks b) s) fun c hc => by
        refine (hl c hc).imp (fun hn => ?_) id
        by_cases hcb : c = b
        · rw [hcb]
          exact sfind_sdel_same _ _
        · exact (sfind_sdel_other _ hcb).trans hn
      exact ⟨m, hm⟩
    · exact ih s hl

/-- What a store to device addresses changes: device memory, and the KV pages that stand there. -/
theorem devPut_eq (a : Nat) (d : Bytes) (s : State) :
    devPut a d s = { s with dram := { s.dram with mem := (devPut a d s).dram.mem }, kv := (devPut a d s).kv } := by
  have hf : ∀ (l : List Nat) (g : Nat → Nat) (k : Nat → Bytes) (s : State),
      let t := l.foldl (fun s b => ownPut s (g b) (k b)) s
      t = { s with dram := { s.dram with mem := t.dram.mem }, kv := t.kv } := by
    intro l g k
    induction l with
    | nil => exact fun s => rfl
    | cons b l ih =>
      intro s
      have ho : ownPut s (g b) (k b) = { s with
          dram := { s.dram with mem := (ownPut s (g b) (k b)).dram.mem }, kv := (ownPut s (g b) (k b)).kv } := by
        unfold ownPut
        split <;> dsimp only <;> split <;> rfl
      have ht := ih (ownPut s (g b) (k b))
      dsimp only [List.foldl_cons] at ht ⊢
      rw [ho] at ht ⊢
      exact ht
  rw [devPut]
  split
  · exact hf _ (fun b => max a (64 * b)) _ s
  · rfl

/-- A store does not depend on the marks. -/
theorem devPut_withMarks (a : Nat) (d : Bytes) (m : SMap BurstMark) (s : State) :
    devPut a d (withMarks m s) = withMarks m (devPut a d s) := by
  have ho : ∀ (x : Nat) (y : Bytes) (s : State), ownPut (withMarks m s) x y = withMarks m (ownPut s x y) := by
    intro x y s
    have hk : frameKind (withMarks m s) (frameOf x) = frameKind s (frameOf x) := rfl
    unfold ownPut
    rw [hk]
    split
    · dsimp only
      rw [apply_ite (withMarks m)]
      rfl
    · dsimp only
      rw [apply_ite (withMarks m)]
      rfl
  have hf : ∀ (l : List Nat) (g : Nat → Nat) (k : Nat → Bytes) (s : State),
      l.foldl (fun s b => ownPut s (g b) (k b)) (withMarks m s) = withMarks m (l.foldl (fun s b => ownPut s (g b) (k b)) s) := by
    intro l g k
    induction l with
    | nil => exact fun s => rfl
    | cons b l ih =>
      intro s
      rw [List.foldl_cons, List.foldl_cons, ho, ih]
  have hown : (burstsOf a d.length).any (ownFrames (withMarks m s)) = (burstsOf a d.length).any (ownFrames s) := rfl
  rw [devPut, devPut, hown]
  split
  · exact hf _ (fun b => max a (64 * b)) _ s
  · rfl

/-- A write to addresses that can be read stores its bytes, and touches the Pantry. -/
theorem memWrite_readable (h : Hint) {a : Nat} {d : Bytes} {s : State} (hd : d ≠ [])
    (hr : readFault s a d.length = none) : PantryOnly (devPut a d s) (memWrite h a d s) := by
  obtain ⟨m, hm⟩ := unmark_readable _ s (readable_of_readFault hr)
  rw [memWrite, if_neg (by simp [hd, liveRange_of_readFault hr])]
  dsimp only
  rw [hm, devPut_withMarks]
  exact (sets_pantryOnly _ _ m).trans (.foldl (fun s l => touchLine_pantryOnly _ true l s) _ _)

end Sys2Proof.Machine


/-! ## The Pantry's operations (R328, R429) -/

namespace Sys2Proof.Machine

open Sys2Proof

/-- The counter of an operation: REDUCE has its own. -/
def atomicCounter (code : Nat) : Nat := if code = 5 then oPantryReduceCount else oPantryAtomicCount

/-- What an operation finds at its target. -/
def atomicOld (code a : Nat) (s : State) : Bytes := devGet s a (atomicWidth code)

/-- What an operation stores at its target. -/
def atomicNew (code a v cmp : Nat) (burst : Bytes) (s : State) : Bytes :=
  atomicValue code (leNat (atomicOld code a s)) v cmp burst (atomicOld code a s)

/-- An operation stored at its target: DRAM and KV hold what the store leaves, and the counter counts. -/
structure Stored (code : Nat) (s w t : State) : Prop where
  mem : t.dram.mem = w.dram.mem
  kv : t.kv = w.kv
  count : getO t (atomicCounter code) = (getO s (atomicCounter code) + 1) % 2 ^ 64
  sched : t.sched = s.sched
  time : t.time = s.time
  out : t.out = s.out

theorem sixteen_words_length (f : Nat → Nat) : ((List.range 16).map (fun i => natLe 4 (f i))).flatten.length = 64 := by
  simp [List.length_flatten, natLe_length, Function.comp_def]

/-- An operation stores as many bytes as its operand takes. -/
theorem atomicValue_length {code : Nat} (h : code < 7) (o v cmp : Nat) (burst old : Bytes) :
    (atomicValue code o v cmp burst old).length = atomicWidth code := by
  match code, h with
  | 0, _ => exact natLe_length _ _
  | 1, _ => exact natLe_length _ _
  | 2, _ => exact natLe_length _ _
  | 3, _ => exact natLe_length _ _
  | 4, _ =>
    show (if o = cmp then natLe 8 v else natLe 8 o).length = 8
    split <;> exact natLe_length _ _
  | 5, _ => exact sixteen_words_length _
  | 6, _ => exact natLe_length _ _

theorem atomicWidth_pos (code : Nat) : 0 < atomicWidth code := by
  unfold atomicWidth
  split <;> decide

section
variable {code a : Nat} (keep : Bool) (v cmp : Nat) (burst : Bytes) {s : State}

/-- An operation on an aligned target that can be read stores its value, counts once and gives the old value. -/
theorem atomicOp_stores (hc : code < 7) (ha : a % atomicWidth code = 0) (hr : readFault s a (atomicWidth code) = none) :
    ∃ t, atomicOp code keep a v cmp burst s = (some (leNat (atomicOld code a s)), t) ∧
      Stored code s (devPut a (atomicNew code a v cmp burst s) s) t := by
  have hl : (atomicNew code a v cmp burst s).length = atomicWidth code := atomicValue_length hc _ _ _ _ _
  have hn : atomicNew code a v cmp burst s ≠ [] := fun h => by
    have := atomicWidth_pos code
    rw [← hl, h] at this
    exact absurd this (by decide)
  obtain ⟨he, ho⟩ := memWrite_readable (if keep then .keep else .normal) hn (hl ▸ hr)
  have hcount : getO (memWrite (if keep then .keep else .normal) a (atomicNew code a v cmp burst s) s) (atomicCounter code) =
      getO s (atomicCounter code) := by
    rw [ho _ (by unfold atomicCounter; split <;> decide) (by unfold atomicCounter; split <;> decide), devPut_eq]
    rfl
  refine ⟨bump (memWrite (if keep then .keep else .normal) a (atomicNew code a v cmp burst s) s) (atomicCounter code),
    by rw [atomicOp]; simp only [ha, hr]; rfl, ?_⟩
  generalize memWrite (if keep then .keep else .normal) a (atomicNew code a v cmp burst s) s = t at he hcount ⊢
  refine ⟨by rw [bump_dram, he], by rw [bump_kv, he], by rw [getO_bump_same, hcount], ?_, ?_, ?_⟩
  · rw [bump_sched, he, devPut_eq]
  · rw [bump_time, he, devPut_eq]
  · rw [bump_out, he, devPut_eq]

/-- An operation without a return stores its value. -/
theorem doAtomic_stores (hc : code < 7) (ha : a % atomicWidth code = 0) (hr : readFault s a (atomicWidth code) = none) :
    Stored code s (devPut a (atomicNew code a v 0 burst s) s) (doAtomic code keep a v burst s) := by
  obtain ⟨t, ht, hs⟩ := atomicOp_stores keep v 0 burst hc ha hr
  rw [doAtomic, ht]
  exact hs

/-- An operation with a return stores its value and gives the old one. -/
theorem doAtomicReturn_stores (hc : code < 7) (ha : a % atomicWidth code = 0)
    (hr : readFault s a (atomicWidth code) = none) : ∃ t, Stored code s (devPut a (atomicNew code a v cmp [] s) s) t ∧
      doAtomicReturn code keep a v cmp s = emit (.atomicResult (leNat (atomicOld code a s))) t := by
  obtain ⟨t, ht, hs⟩ := atomicOp_stores keep v cmp [] hc ha hr
  exact ⟨t, hs, by rw [doAtomicReturn, ht]⟩

/-- An operation on a misaligned target, or on one that cannot be read, does nothing. -/
theorem atomicOp_refused (h : a % atomicWidth code ≠ 0 ∨ readFault s a (atomicWidth code) ≠ none) :
    atomicOp code keep a v cmp burst s = (none, s) := by
  rw [atomicOp]
  by_cases ha : a % atomicWidth code = 0
  · cases hf : readFault s a (atomicWidth code) with
    | none => exact absurd hf (h.resolve_left (not_not.2 ha))
    | some f => exact if_neg (not_not.2 ha)
  · exact if_pos ha

theorem doAtomic_refused (h : a % atomicWidth code ≠ 0 ∨ readFault s a (atomicWidth code) ≠ none) :
    doAtomic code keep a v burst s = atomicFault code a s := by
  rw [doAtomic, atomicOp_refused keep v 0 burst h]

theorem doAtomicReturn_refused (h : a % atomicWidth code ≠ 0 ∨ readFault s a (atomicWidth code) ≠ none) :
    doAtomicReturn code keep a v cmp s = atomicFault code a s := by
  rw [doAtomicReturn, atomicOp_refused keep v cmp [] h]

end

/-- A request's contribution to another chip goes out once its image is acknowledged. -/
theorem contribute_eq {p : Contribution} {a : Nat} (b : Bytes) {s : State} (ha : a % 64 = 0)
    (hp : (reqGet s p.request).isSome = true) : contribute p a b s = if imageWaits s p.request then
      { s with mirror := { s.mirror with partsHeld := s.mirror.partsHeld ++ [(p.request, reduceFrameOf s p a b)] } }
      else flowSend (reduceFrameOf s p a b) s :=
  if_neg (by rw [Option.isNone_eq_false_iff.2 hp]; simp [ha])

/-- Settles O29: each operation stores its rule's value through the Pantry, and a refused one changes nothing. -/
theorem atomicsStoreTheirResult : Obligations.AtomicsStoreTheirResult := by
  refine ⟨fun s keep a v f c ha hr hc => ?_, fun s keep a v ha hr => ?_, fun s keep a c v ha hr => ?_,
    fun s keep a b ha hr => ?_, fun s keep a b p ha hp => ⟨fun hi => ?_, fun hi => ?_⟩, fun s keep a v ha hr => ?_,
    fun s keep a v h => ⟨congrArg _ (doAtomic_refused (code := 0) keep _ [] h),
      congrArg _ (doAtomicReturn_refused (code := 3) keep _ 0 h)⟩⟩
  · simp only [List.mem_cons, Prod.mk.injEq, List.not_mem_nil, or_false] at hc
    rcases hc with ⟨rfl, rfl⟩ | ⟨rfl, rfl⟩ | ⟨rfl, rfl⟩
    · obtain ⟨hm, hk, hn, hs, ht, ho⟩ := doAtomic_stores (code := 0) keep v.toNat [] (by decide) ha hr
      exact ⟨_, rfl, hm, hk, hn, hs, ht, ho⟩
    · obtain ⟨hm, hk, hn, hs, ht, ho⟩ := doAtomic_stores (code := 1) keep v.toNat [] (by decide) ha hr
      exact ⟨_, rfl, hm, hk, hn, hs, ht, ho⟩
    · obtain ⟨hm, hk, hn, hs, ht, ho⟩ := doAtomic_stores (code := 2) keep v.toNat [] (by decide) ha hr
      exact ⟨_, rfl, hm, hk, hn, hs, ht, ho⟩
  · obtain ⟨t, ⟨hm, hk, -, hs, ht, ho⟩, he⟩ := doAtomicReturn_stores (code := 3) keep v.toNat 0 (by decide) ha hr
    exact ⟨_, congrArg Host.Outcome.next he, hm, hk, congrArg (· ++ _) ho, hs, ht⟩
  · obtain ⟨t, ⟨hm, hk, -, hs, ht, ho⟩, he⟩ := doAtomicReturn_stores (code := 4) keep v.toNat c.toNat (by decide) ha hr
    have hv : atomicNew 4 a v.toNat c.toNat [] s =
        natLe 8 (if leNat (devGet s a 8) = c.toNat then v.toNat else leNat (devGet s a 8)) := (apply_ite (natLe 8) _ _ _).symm
    rw [hv] at hm hk
    exact ⟨_, congrArg Host.Outcome.next he, hm, hk, congrArg (· ++ _) ho, hs, ht⟩
  · obtain ⟨hm, hk, hn, hs, ht, -⟩ := doAtomic_stores (code := 5) keep 0 b (by decide) ha hr
    exact ⟨_, rfl, hm, hk, hn, hs, ht⟩
  · exact congrArg _ ((contribute_eq b ha hp).trans (if_neg (by simp [hi])))
  · exact congrArg _ ((contribute_eq b ha hp).trans (if_pos hi))
  · obtain ⟨hm, hk, hn, hs, ht, -⟩ := doAtomic_stores (code := 6) keep v.toNat [] (by decide) ha hr
    exact ⟨_, rfl, hm, hk, hn, hs, ht⟩

end Sys2Proof.Machine


/-! ## Lane instructions of a Whisk (R168, R169, R195) -/

namespace Sys2Proof.Machine

open Sys2Proof

/-! ### The status of a frame -/

/-- A status bit: the status that sets it where a condition holds, and joins as the condition does. -/
structure StatusBit (mk : Bool → WStat) : Prop where
  off : mk false = {}
  or : ∀ a b, (mk a).or (mk b) = mk (a || b)

theorem statusBit_none : StatusBit (fun _ => {}) := ⟨rfl, fun _ _ => rfl⟩

theorem statusBit_clip : StatusBit (fun b => { clip := b }) := ⟨rfl, fun _ _ => rfl⟩

theorem statusBit_tabEdge : StatusBit (fun b => { tabEdge := b }) := ⟨rfl, fun _ _ => rfl⟩

/-- The joined status of a list has the bit where some entry's condition holds. -/
theorem StatusBit.foldl {mk : Bool → WStat} (h : StatusBit mk) {α : Type} (b : α → Bool) (l : List α) :
    (l.map (fun x => mk (b x))).foldl WStat.or {} = mk (l.any b) := by
  have hc : ∀ c, (l.map (fun x => mk (b x))).foldl WStat.or (mk c) = mk (c || l.any b) := by
    induction l with
    | nil => simp
    | cons x l ih => intro c; simp [h.or, ih, Bool.or_assoc]
  rw [← h.off, hc, Bool.false_or]

section
variable (w : WhiskAt) (fr : Frame)

theorem wLanes_fst (f : Nat → Lane → Lane × WStat) : (wLanes w f fr).1 =
    { fr with lanes := fr.lanes.mapIdx (fun i l => if wLive w l then (f i l).1 else l) } := by
  have hl : (fr.lanes.mapIdx (fun i l => if wLive w l then f i l else (l, {}))).map (·.1) =
      fr.lanes.mapIdx (fun i l => if wLive w l then (f i l).1 else l) := by
    refine List.ext_getElem (by simp) fun i _ _ => ?_
    simp only [List.getElem_map, List.getElem_mapIdx]
    exact apply_ite Prod.fst _ _ _
  exact congrArg (fun x => { fr with lanes := x }) hl

/-- The status of lane work: a bit, where the condition holds on some live lane. -/
theorem wLanes_snd {mk : Bool → WStat} (h : StatusBit mk) {f : Nat → Lane → Lane × WStat} {b : Lane → Bool}
    (hf : ∀ i l, (f i l).2 = mk (b l)) : (wLanes w f fr).2 = mk (fr.lanes.any (fun l => wLive w l && b l)) := by
  have hs : (fr.lanes.mapIdx (fun i l => if wLive w l then f i l else (l, {}))).map (·.2) =
      fr.lanes.map (fun l => mk (wLive w l && b l)) := by
    refine List.ext_getElem (by simp) fun i _ _ => ?_
    simp only [List.getElem_map, List.getElem_mapIdx]
    split <;> next hl => simp [hl, hf, h.off]
  rw [← h.foldl, ← hs, List.foldl_map]
  rfl

end

/-! ### A lane instruction on the machine -/

/-- A command that works on a frame's lanes completes as that work, on the frame it names. -/
theorem lanesDo_of_lanes {c : Instr} {w : WhiskAt} {f : Whisk → Frame → Nat → Lane → Lane × WStat}
    {st : Whisk → Frame → WStat} (he : ∀ s, exec c s = .next (whiskDo w c s))
    (ho : ∀ k, whiskOne w c k = { k with
      frames := sput k.frames w.frame (wLanes w (f k (sget Frame.idle k.frames w.frame)) (sget Frame.idle k.frames w.frame)).1
      status := k.status.or (wLanes w (f k (sget Frame.idle k.frames w.frame)) (sget Frame.idle k.frames w.frame)).2 })
    (hst : ∀ k fr, (wLanes w (f k fr) fr).2 = st k fr) : LanesDo c w (fun k fr j l => (f k fr j l).1) st := by
  intro s ha
  have hw : whiskOne w c = fun k => { k with
      frames := sput k.frames w.frame { sget Frame.idle k.frames w.frame with
        lanes := (sget Frame.idle k.frames w.frame).lanes.mapIdx (fun i l =>
          if wLive w l then (f k (sget Frame.idle k.frames w.frame) i l).1 else l) }
      status := k.status.or (st k (sget Frame.idle k.frames w.frame)) } :=
    funext fun k => by rw [ho, wLanes_fst, hst]
  rw [he, whiskDo, if_pos ha, hw]
  rfl

section
variable {c : Instr} {w : WhiskAt} {d : Fin 16} (he : ∀ s, exec c s = .next (whiskDo w c s))
include he

/-- A command that writes a register with a word. -/
theorem lanesDo_reg (x : Whisk → Frame → Nat → Lane → Word)
    (ho : ∀ k, whiskOne w c k = { k with
      frames := sput k.frames w.frame (wReg w d (x k (sget Frame.idle k.frames w.frame)) (sget Frame.idle k.frames w.frame)).1
      status := k.status.or (wReg w d (x k (sget Frame.idle k.frames w.frame)) (sget Frame.idle k.frames w.frame)).2 }) :
    LanesDo c w (fun k fr j l => l.setReg d.val (x k fr j l)) (fun _ _ => {}) :=
  lanesDo_of_lanes (f := fun k fr j l => (l.setReg d.val (x k fr j l), {})) he ho
    fun _ fr => wLanes_snd w fr statusBit_none (b := fun _ => false) fun _ _ => rfl

/-- A command that writes a register with a clamped integer. -/
theorem lanesDo_int (x : Lane → Int)
    (ho : ∀ k, whiskOne w c k = { k with
      frames := sput k.frames w.frame (wInt w d x (sget Frame.idle k.frames w.frame)).1
      status := k.status.or (wInt w d x (sget Frame.idle k.frames w.frame)).2 }) :
    LanesDo c w (fun _ _ _ l => l.setReg d.val (BitVec.ofInt 32 (clampBits 32 (x l))))
      (fun _ fr => { clip := fr.lanes.any (fun l => wLive w l && x l != clampBits 32 (x l)) }) :=
  lanesDo_of_lanes (f := fun _ _ _ l => (l.setReg d.val (BitVec.ofInt 32 (clampBits 32 (x l))),
    { clip := x l != clampBits 32 (x l) })) he ho fun _ fr => wLanes_snd w fr statusBit_clip fun _ _ => rfl

/-- A command that writes a mask. -/
theorem lanesDo_mask {m : Fin 4} (x : Lane → Bool)
    (ho : ∀ k, whiskOne w c k = { k with
      frames := sput k.frames w.frame (wMask w m x (sget Frame.idle k.frames w.frame)).1
      status := k.status.or (wMask w m x (sget Frame.idle k.frames w.frame)).2 }) :
    LanesDo c w (fun _ _ _ l => l.setMask m.val (x l)) (fun _ _ => {}) :=
  lanesDo_of_lanes (f := fun _ _ _ l => (l.setMask m.val (x l), {})) he ho
    fun _ fr => wLanes_snd w fr statusBit_none (b := fun _ => false) fun _ _ => rfl

/-- A command that writes a register with an L16 code. -/
theorem lanesDo_l16 (x : Lane → Nat × Bool)
    (ho : ∀ k, whiskOne w c k = { k with
      frames := sput k.frames w.frame (wL16 w d x (sget Frame.idle k.frames w.frame)).1
      status := k.status.or (wL16 w d x (sget Frame.idle k.frames w.frame)).2 }) :
    LanesDo c w (fun _ _ _ l => l.setReg d.val (BitVec.ofNat 32 (x l).1))
      (fun _ fr => { clip := fr.lanes.any (fun l => wLive w l && (x l).2) }) :=
  lanesDo_of_lanes (f := fun _ _ _ l => (l.setReg d.val (BitVec.ofNat 32 (x l).1), { clip := (x l).2 })) he ho
    fun _ fr => wLanes_snd w fr statusBit_clip fun _ _ => rfl

end

end Sys2Proof.Machine


/-! ## What the lane instructions write (R168, R169, R171 to R176, R179, R181) -/

namespace Sys2Proof.Machine

open Sys2Proof

theorem clampBits_32 (x : Int) : clampBits 32 x = max (-2147483648) (min 2147483647 x) := by
  rw [clampBits, clamp]
  norm_num only
  split
  · omega
  · split <;> omega

/-- A logical shift of 32 or more leaves nothing. -/
theorem shruVal_eq (a : Word) (n : Nat) : shruVal a n = a >>> n := by
  rw [shruVal]
  split
  · next h => exact (BitVec.ushiftRight_eq_zero h).symm
  · rfl

theorem toInt_beq (x y : Word) : (x.toInt == y.toInt) = (x == y) := by
  rw [Bool.eq_iff_iff, beq_iff_eq, beq_iff_eq, BitVec.toInt_inj]

/-- A write of a mask leaves M0, and sets its residue. -/
theorem setMask_eq (l : Lane) (m : Fin 4) (b : Bool) : l.setMask m.val b =
    if m = 0 then l else if m = 1 then { l with m1 := b, mres := l.mres.set m.val (if b = true then 1 else 0) } else
      if m = 2 then { l with m2 := b, mres := l.mres.set m.val (if b = true then 1 else 0) }
      else { l with m3 := b, mres := l.mres.set m.val (if b = true then 1 else 0) } :=
  match m with
  | 0 | 1 | 2 | 3 => rfl

/-- Lane work of a frame that keeps every lane is no work. -/
theorem lanesDo_nop (w : WhiskAt) : LanesDo (.nop w) w (fun _ _ _ l => l) (fun _ _ => {}) := by
  intro s ha
  have hw : ∀ k : Whisk, whiskOne w (.nop w) k = { k with
      frames := sput k.frames w.frame { sget Frame.idle k.frames w.frame with
        lanes := (sget Frame.idle k.frames w.frame).lanes.mapIdx (fun _ l => if wLive w l then l else l) }
      status := k.status.or {} } := by
    intro k
    have hl : (sget Frame.idle k.frames w.frame).lanes.mapIdx (fun _ l => if wLive w l then l else l) =
        (sget Frame.idle k.frames w.frame).lanes :=
      List.ext_getElem (by simp) fun i _ _ => by simp
    rw [hl]
    rfl
  show Host.Outcome.next (whiskDo w (.nop w) s) = _
  rw [whiskDo, if_pos ha, funext hw]
  rfl

/-- Settles O42: each is `wReg` of the value its rule gives. -/
theorem whiskMovesAndBits : Obligations.WhiskMovesAndBits := by
  refine ⟨fun w d a b m k n g i x h => ?_, lanesDo_nop⟩
  simp only [← shruVal_eq, List.mem_cons, Prod.mk.injEq, List.not_mem_nil, or_false] at h
  rcases h with ⟨rfl, rfl⟩ | ⟨rfl, rfl⟩ | ⟨rfl, rfl⟩ | ⟨rfl, rfl⟩ | ⟨rfl, rfl⟩ | ⟨rfl, rfl⟩ | ⟨rfl, rfl⟩ | ⟨rfl, rfl⟩ |
    ⟨rfl, rfl⟩ | ⟨rfl, rfl⟩ | ⟨rfl, rfl⟩ | ⟨rfl, rfl⟩ | ⟨rfl, rfl⟩
  all_goals exact lanesDo_reg (fun _ => rfl) _ fun _ => rfl

/-- Settles O43: each is `wMask` of the comparison its rule gives. -/
theorem whiskMasksAreWritten : Obligations.WhiskMasksAreWritten := by
  intro w m a b p q neg i x h
  have hx : LanesDo i w (fun _ _ _ l => l.setMask m.val (x l)) (fun _ _ => {}) := by
    have hn (l : Lane) : (l.int a.val != 0) = (l.reg a.val != 0) := congrArg (!·) (toInt_beq (l.reg a.val) 0)
    have hq (l : Lane) : (l.int a.val == l.int b.val) = (l.reg a.val == l.reg b.val) := toInt_beq _ _
    simp only [hn, hq, List.mem_cons, Prod.mk.injEq, List.not_mem_nil, or_false] at h
    rcases h with ⟨rfl, rfl⟩ | ⟨rfl, rfl⟩ | ⟨rfl, rfl⟩ | ⟨rfl, rfl⟩ | ⟨rfl, rfl⟩ | ⟨rfl, rfl⟩ | ⟨rfl, rfl⟩ | ⟨rfl, rfl⟩ |
      ⟨rfl, rfl⟩ | ⟨rfl, rfl⟩
    all_goals exact lanesDo_mask (fun _ => rfl) _ fun _ => rfl
  simp only [setMask_eq] at hx
  exact hx

/-- Settles O44: each is lane work with the value and the status that its rule gives. -/
theorem whiskLogarithms : Obligations.WhiskLogarithms := by
  refine ⟨fun w d a b j i x h => ?_, fun w d a b e mode => ?_, fun w d a n => ?_, fun w d n => ?_, fun w d n => ?_⟩
  · simp only [List.mem_cons, Prod.mk.injEq, List.not_mem_nil, or_false] at h
    rcases h with ⟨rfl, rfl⟩ | ⟨rfl, rfl⟩ | ⟨rfl, rfl⟩ | ⟨rfl, rfl⟩ | ⟨rfl, rfl⟩ | ⟨rfl, rfl⟩ | ⟨rfl, rfl⟩ | ⟨rfl, rfl⟩ |
      ⟨rfl, rfl⟩ | ⟨rfl, rfl⟩ | ⟨rfl, rfl⟩
    all_goals exact lanesDo_l16 (fun _ => rfl) _ fun _ => rfl
  · exact lanesDo_of_lanes (f := fun _ _ _ l =>
      let r := ltoiAt (l.l16 a.val) e.toInt (roundCode mode) (l.reg b.val).toNat
      (l.setReg d.val (BitVec.ofInt 32 r.1), { clip := r.2 })) (fun _ => rfl) (fun _ => rfl)
      fun _ fr => wLanes_snd w fr statusBit_clip fun _ _ => rfl
  · exact lanesDo_of_lanes (f := fun k _ _ l =>
      let r := tabVal (nth {} k.env.cfg n.val) (nth [] k.env.tables n.val) (l.l16 a.val)
      (l.setReg d.val (BitVec.ofNat 32 r.1), { tabEdge := r.2 })) (fun _ => rfl) (fun _ => rfl)
      fun _ fr => wLanes_snd w fr statusBit_tabEdge fun _ _ => rfl
  · simp only [← clampBits_32]
    exact lanesDo_of_lanes (f := fun _ fr _ l =>
      let r := bcastVal (nth {} fr.slots n.val) false
      (l.setReg d.val r.1, { clip := r.2 })) (fun _ => rfl) (fun _ => rfl)
      fun _ fr => wLanes_snd w fr statusBit_clip (b := fun _ => (bcastVal (nth {} fr.slots n.val) false).2) fun _ _ => rfl
  · exact lanesDo_of_lanes (f := fun _ fr _ l =>
      let r := bcastVal (nth {} fr.slots n.val) true
      (l.setReg d.val r.1, { clip := r.2 })) (fun _ => rfl) (fun _ => rfl)
      fun _ fr => wLanes_snd w fr statusBit_none (b := fun _ => false) fun _ _ => rfl

end Sys2Proof.Machine


/-! ## The Whisk's integer instructions and the residue check (R168, R169, R171, R192) -/

namespace Sys2Proof.Machine

open Sys2Proof

/-! ### Exact results -/

theorem lane_int_bounds (l : Lane) (r : Nat) : -2147483648 ≤ l.int r ∧ l.int r < 2147483648 :=
  ⟨BitVec.le_toInt (l.reg r), BitVec.toInt_lt (x := l.reg r)⟩

/-- A right shift rounds towards minus infinity for every amount. -/
theorem shrVal_eq (l : Lane) (r n : Nat) : shrVal (l.int r) n = (l.int r).fdiv (2 ^ n) := by
  rw [shrVal]
  split
  · next hn =>
    obtain ⟨hlo, hhi⟩ := lane_int_bounds l r
    have hp : (2 : Int) ^ 32 ≤ 2 ^ n := pow_le_pow_right₀ (by decide) hn
    rw [Int.fdiv_eq_ediv_of_nonneg _ (by omega)]
    split
    · exact (Int.ediv_eq_neg_one_of_neg_of_le (by omega) (by omega)).symm
    · exact (Int.ediv_eq_zero_of_lt (by omega) (by omega)).symm
  · rfl

/-! ### Residues -/

/-- A register's entry written has the residue written with it. -/
theorem regOk_setReg {l : Lane} (d : Nat) (x : Word) {r : Nat} (hl : l.res.length = l.v.length) (h : l.regOk r = true) :
    (l.setReg d x).regOk r = true := by
  simp only [Lane.regOk, Lane.reg, Lane.setReg, nth, List.getD_eq_getElem?_getD, beq_iff_eq, List.getElem?_set] at h ⊢
  by_cases hd : d = r
  · subst hd
    by_cases hd : d < l.v.length <;> simp [hl, hd, res3]
  · simpa [hd] using h

/-- Where the entry has its residue, the signed residue is the signed value's. -/
theorem signedRes_modEq {l : Lane} {r : Nat} (h : l.regOk r = true) : (l.signedRes r : Int) ≡ l.int r [ZMOD 3] := by
  have hr : nth 0 l.res r = (l.reg r).toNat % 3 := by simpa [Lane.regOk, res3] using h
  have hi : l.int r = if 2 * (l.reg r).toNat < 2 ^ 32 then ((l.reg r).toNat : Int) else (l.reg r).toNat - 2 ^ 32 :=
    BitVec.toInt_eq_toNat_cond (l.reg r)
  have hb := (l.reg r).isLt
  rw [Lane.signedRes, hr, hi, Int.ModEq]
  split <;> split <;> omega

/-- A power of two is its own inverse modulo 3. -/
theorem pow_mul_pow_modEq_one (n : Nat) : (2 : Int) ^ n * 2 ^ n ≡ 1 [ZMOD 3] := by
  rw [← mul_pow]
  simpa using (show (2 * 2 : Int) ≡ 1 [ZMOD 3] from rfl).pow n

/-- The prediction of a right shift, from its quotient and the bits shifted out. -/
theorem shift_predict_modEq {r a q : Int} (n : Nat) (h : r ≡ a [ZMOD 3]) :
    (r + 2 * ((a - q * 2 ^ n) % 3)) * 2 ^ n ≡ q [ZMOD 3] := by
  have ho : 2 * ((a - q * 2 ^ n) % 3) ≡ 2 * (a - q * 2 ^ n) [ZMOD 3] := (Int.mod_modEq _ _).mul_left 2
  calc (r + 2 * ((a - q * 2 ^ n) % 3)) * 2 ^ n
      ≡ (a + 2 * (a - q * 2 ^ n)) * 2 ^ n [ZMOD 3] := (h.add ho).mul_right _
    _ = q * (2 ^ n * 2 ^ n) + 3 * ((a - q * 2 ^ n) * 2 ^ n) := by ring
    _ ≡ q * 1 + 0 [ZMOD 3] := ((pow_mul_pow_modEq_one n).mul_left q).add (Int.modEq_zero_iff_dvd.2 ⟨_, rfl⟩)
    _ = q := by ring

/-- Where every entry has its residue, the predicted residue of an exact result is its own. -/
theorem whiskPredict_modEq {i : Instr} {l : Lane} {p : Nat × Int} (h : ∀ r, l.regOk r = true)
    (hp : whiskPredict i l = some p) : (p.1 : Int) ≡ p.2 [ZMOD 3] := by
  have hs (r : Nat) := signedRes_modEq (h r)
  have hd (r : Nat) : ((2 * l.signedRes r : Nat) : Int) ≡ -l.int r [ZMOD 3] := by
    have h3 : (2 : Int) ≡ -1 [ZMOD 3] := rfl
    simpa using h3.mul (hs r)
  unfold whiskPredict at hp
  split at hp
  case h_12 => exact absurd hp (by simp)
  all_goals obtain rfl := Option.some.inj hp
  · exact hs _
  · exact hs _
  · push_cast
    exact (hs _).add (hs _)
  · push_cast
    simpa [sub_eq_add_neg] using (hs _).add (hd _)
  · push_cast
    exact hd _
  · dsimp only
    split
    · next hn => push_cast; rw [abs_of_neg hn]; exact hd _
    · next hn => push_cast; rw [abs_of_nonneg (not_lt.1 hn)]; exact hs _
  · dsimp only
    split
    · next hle => rw [min_eq_left hle]; exact hs _
    · next hle => rw [min_eq_right (le_of_not_ge hle)]; exact hs _
  · dsimp only
    split
    · next hle => rw [max_eq_left hle]; exact hs _
    · next hle => rw [max_eq_right (le_of_not_ge hle)]; exact hs _
  · push_cast
    exact (hs _).mul_right _
  · push_cast
    rw [Int.toNat_of_nonneg (Int.emod_nonneg _ (by decide))]
    exact shift_predict_modEq _ (hs _)
  · rename_i a n
    have hle : (shruVal (l.reg a.val) (shiftAmt n l)).toNat * 2 ^ shiftAmt n l ≤ (l.reg a.val).toNat := by
      rw [shruVal_eq, BitVec.toNat_ushiftRight, Nat.shiftRight_eq_div_pow]
      exact Nat.div_mul_le_self _ _
    have hr : ((nth 0 l.res a.val : Nat) : Int) ≡ (l.reg a.val).toNat [ZMOD 3] := by
      have he : nth 0 l.res a.val = (l.reg a.val).toNat % 3 := by simpa [Lane.regOk, res3] using h a.val
      rw [he]
      push_cast
      exact Int.mod_modEq _ _
    have hp := shift_predict_modEq (q := (shruVal (l.reg a.val) (shiftAmt n l)).toNat) (shiftAmt n l) hr
    push_cast [Nat.cast_sub hle]
    exact hp

/-- Settles O41: each is `wInt` of its exact result, and what the residues predict is congruent to it. -/
theorem whiskIntegersClamp : Obligations.WhiskIntegersClamp := by
  refine ⟨fun w d a b n i x h => ?_, fun l d x r hl h => regOk_setReg d x hl h, fun env i l hr hm ht => ?_⟩
  · simp only [← shrVal_eq, Int.abs_eq_natAbs, List.mem_cons, Prod.mk.injEq, List.not_mem_nil, or_false] at h
    simp only [← clampBits_32]
    rcases h with ⟨rfl, rfl⟩ | ⟨rfl, rfl⟩ | ⟨rfl, rfl⟩ | ⟨rfl, rfl⟩ | ⟨rfl, rfl⟩ | ⟨rfl, rfl⟩ | ⟨rfl, rfl⟩ | ⟨rfl, rfl⟩
    all_goals exact lanesDo_int (fun _ => rfl) _ fun _ => rfl
  · have hp (p : Nat × Int) (h : whiskPredict i l = some p) : (p.1 % 3 != (p.2 % 3).toNat) = false := by
      have hc : ((p.1 % 3 : Nat) : Int) = p.2 % 3 := by
        push_cast
        exact whiskPredict_modEq hr h
      rw [← hc, Int.toNat_natCast, bne_self_eq_false]
    unfold laneBad
    simp only [hr, hm, ht]
    split
    · next p h => rw [hp p h]; split <;> simp
    · split <;> simp

end Sys2Proof.Machine


/-! ## The Whisk's reductions, SPLIT and SOFTMAX (R185, R186, R189) -/

namespace Sys2Proof.Machine

open Sys2Proof

/-! ### A Whisk command on the machine -/

/-- A Whisk command on a part that runs changes its Whisk, and what a failed check does follows. -/
theorem exec_whisk_eq {c : Instr} {w : WhiskAt} {f : Whisk → Whisk} {s : State} (ha : whiskAt s w = true)
    (he : exec c s = .next (whiskDo w c s)) (ho : ∀ k, whiskOne w c k = f k) :
    exec c s = .next (afterCheck c w s (whiskMod w.whisk f s)) := by
  rw [he, whiskDo, if_pos ha, funext ho]
  rfl

/-- RED of ROW scope changes its frame, and gives its slot to every frame of the row. -/
theorem whiskOne_red_row {w u : WhiskAt} {c : Instr} {op : RedOp} {slot : Fin 4} {a : Fin 16}
    (hc : whiskRed c = some (u, op, slot, a, .row)) (k : Whisk) : whiskOne w c k =
      { k with
        frames := (rowFrames k w.frame).foldl (fun m e => sput m e.1 { e.2 with
            slots := e.2.slots.set slot.val (nth {} (opRed w op slot a .row (sget Frame.idle k.frames w.frame)).1.slots slot.val) })
          (sput k.frames w.frame (opRed w op slot a .row (sget Frame.idle k.frames w.frame)).1)
        status := k.status.or (opRed w op slot a .row (sget Frame.idle k.frames w.frame)).2 } := by
  unfold whiskOne
  split <;> simp_all [whiskRed, List.foldl_map, shareSlot]

/-! ### What a fold leaves in its slot -/

/-- The live lanes of a frame with their numbers, in lane order. -/
def liveLanes (w : WhiskAt) (fr : Frame) : List (Nat × Lane) := (fr.lanes.mapIdx Prod.mk).filter (fun x => wLive w x.2)

/-- Fold numbered lanes into a slot. -/
def foldLanes (op : RedOp) (a : Fin 16) (l : List (Nat × Lane)) (s : Slot) : Slot :=
  l.foldl (fun s x => redFold op s x.1 (x.2.reg a.val)) s

theorem redFrame_block (w : WhiskAt) (op : RedOp) (a : Fin 16) (fr : Frame) (s : Slot) :
    redFrame w op a .block fr s = foldLanes op a (liveLanes w fr) s :=
  List.foldl_filter.symm

theorem liveLanes_lanes (w : WhiskAt) (fr : Frame) : (liveLanes w fr).map (·.2) = fr.lanes.filter (wLive w) := by
  have hm : (fr.lanes.mapIdx Prod.mk).map (·.2) = fr.lanes := List.ext_getElem (by simp) fun i _ _ => by simp
  conv_rhs => rw [← hm]
  rw [List.filter_map]
  rfl

theorem mem_liveLanes {w : WhiskAt} {fr : Frame} {n : Nat} {l : Lane} :
    (n, l) ∈ liveLanes w fr ↔ fr.lanes[n]? = some l ∧ wLive w l = true := by
  rw [liveLanes, List.mem_filter, List.mem_mapIdx]
  refine and_congr_left fun _ => ⟨?_, fun h => ?_⟩
  · rintro ⟨i, hi, he⟩
    obtain ⟨rfl, rfl⟩ := Prod.mk.inj he
    exact List.getElem?_eq_getElem hi
  · obtain ⟨hi, rfl⟩ := List.getElem?_eq_some_iff.1 h
    exact ⟨n, hi, rfl⟩

/-- Lane numbers rise. -/
theorem liveLanes_pairwise (w : WhiskAt) (fr : Frame) : (liveLanes w fr).Pairwise (fun x y => x.1 < y.1) := by
  refine List.Pairwise.filter _ (List.pairwise_iff_getElem.2 fun i j hi hj hij => ?_)
  simpa using hij

section
variable (op : RedOp) (a : Fin 16) (l : List (Nat × Lane)) (s : Slot)

theorem foldLanes_append (x : Nat × Lane) :
    foldLanes op a (l ++ [x]) s = redFold op (foldLanes op a l s) x.1 (x.2.reg a.val) := List.foldl_append

theorem redFold_count (ix : Nat) (x : Word) : (redFold op s ix x).count = s.count + 1 := by
  cases op <;> simp only [redFold] <;> split <;> rfl

theorem redFold_op (ix : Nat) (x : Word) : (redFold op s ix x).op = s.op := by
  cases op <;> simp only [redFold] <;> split <;> rfl

theorem foldLanes_count : (foldLanes op a l s).count = s.count + l.length := by
  induction l using List.reverseRecOn with
  | nil => rfl
  | append_singleton l x ih => rw [foldLanes_append, redFold_count, ih, List.length_append]; rfl

theorem foldLanes_op : (foldLanes op a l s).op = s.op := by
  induction l using List.reverseRecOn with
  | nil => rfl
  | append_singleton l x ih => rw [foldLanes_append, redFold_op, ih]

theorem foldLanes_sumI : (foldLanes .sumI a l s).value = s.value + (l.map (fun x => x.2.int a.val)).sum := by
  induction l using List.reverseRecOn with
  | nil => simp [foldLanes]
  | append_singleton l x ih => rw [foldLanes_append]; simp [redFold, ih, Lane.int, add_assoc]

theorem foldLanes_sumL (v : Nat) (h : s.value = v) : (foldLanes .sumL a l s).value =
    ((l.map (fun x => x.2.l16 a.val)).foldl (fun u c => (l16Add u c).1) v : Nat) := by
  induction l using List.reverseRecOn with
  | nil => exact h
  | append_singleton l x ih => rw [foldLanes_append]; simp [redFold, ih, Lane.l16]

end

/-- A fold that keeps what is extreme by a key ends with the key's extreme. -/
theorem foldLanes_extreme {op : RedOp} {a : Fin 16} {key : Int → Int} {s : Slot} (hs : s.count = 0)
    (hf : ∀ s ix x, (redFold op s ix x).value = if s.count = 0 ∨ key s.value < key x.toInt then x.toInt else s.value)
    (l : List (Nat × Lane)) (hl : l ≠ []) : (∃ p ∈ l, (foldLanes op a l s).value = p.2.int a.val) ∧
      ∀ p ∈ l, key (p.2.int a.val) ≤ key (foldLanes op a l s).value := by
  induction l using List.reverseRecOn with
  | nil => exact absurd rfl hl
  | append_singleton l x ih =>
    rw [foldLanes_append, hf, foldLanes_count, hs, show (x.2.reg a.val).toInt = x.2.int a.val from rfl]
    cases l with
    | nil => simp [Lane.int]
    | cons y l =>
      obtain ⟨⟨p, hp, hv⟩, hle⟩ := ih (by simp)
      split
      · next hx =>
        have hlt : key (foldLanes op a (y :: l) s).value < key (x.2.int a.val) := by simpa using hx
        refine ⟨⟨x, by simp, rfl⟩, fun q hq => ?_⟩
        rcases List.mem_append.1 hq with hq | hq
        · exact (hle q hq).trans hlt.le
        · rw [List.mem_singleton.1 hq]
      · next hx =>
        have hge : key (x.2.int a.val) ≤ key (foldLanes op a (y :: l) s).value := by simpa using hx
        refine ⟨⟨p, List.mem_append_left _ hp, hv⟩, fun q hq => ?_⟩
        rcases List.mem_append.1 hq with hq | hq
        · exact hle q hq
        · rw [List.mem_singleton.1 hq]; exact hge

/-- ARGMAX takes a lane above the maximum so far. -/
theorem redFold_argmaxI {s : Slot} (h : s.count ≠ 0) (ix : Nat) (x : Word) :
    (redFold .argmaxI s ix x).value = (if s.value < x.toInt then x.toInt else s.value) ∧
    (redFold .argmaxI s ix x).index = if s.value < x.toInt then ix else s.index := by
  simp only [redFold, Nat.add_eq_right, h, false_or, gt_iff_lt]
  split <;> exact ⟨rfl, rfl⟩

/-- ARGMAX ends with the lowest lane that holds the maximum. -/
theorem foldLanes_argmaxI {a : Fin 16} {s : Slot} (hs : s.count = 0) {l : List (Nat × Lane)} (hl : l ≠ [])
    (hp : l.Pairwise (fun x y => x.1 < y.1)) : ∃ p ∈ l, (foldLanes .argmaxI a l s).index = p.1 ∧
      (foldLanes .argmaxI a l s).value = p.2.int a.val ∧
      ∀ q ∈ l, q.2.int a.val ≤ p.2.int a.val ∧ (q.1 < p.1 → q.2.int a.val < p.2.int a.val) := by
  induction l using List.reverseRecOn with
  | nil => exact absurd rfl hl
  | append_singleton l x ih =>
    obtain ⟨hpl, -, hpx⟩ := List.pairwise_append.1 hp
    have hlast (q) (hq : q ∈ l) : q.1 < x.1 := hpx q hq x (by simp)
    rw [foldLanes_append]
    cases l with
    | nil => exact ⟨x, by simp, by simp [redFold, foldLanes, hs], by simp [redFold, foldLanes, hs, Lane.int], by simp⟩
    | cons y l =>
      obtain ⟨p, hpm, hi, hv, hle⟩ := ih (by simp) hpl
      have hc : (foldLanes .argmaxI a (y :: l) s).count ≠ 0 := by rw [foldLanes_count]; simp
      obtain ⟨hiv, hii⟩ := redFold_argmaxI hc x.1 (x.2.reg a.val)
      rw [hiv, hii, hv, hi, show (x.2.reg a.val).toInt = x.2.int a.val from rfl]
      split
      · next hx =>
        refine ⟨x, by simp, rfl, rfl, fun q hq => ?_⟩
        rcases List.mem_append.1 hq with hq | hq
        · exact ⟨((hle q hq).1.trans_lt hx).le, fun _ => (hle q hq).1.trans_lt hx⟩
        · rw [List.mem_singleton.1 hq]; exact ⟨le_rfl, fun h => absurd h (lt_irrefl _)⟩
      · next hx =>
        refine ⟨p, List.mem_append_left _ hpm, rfl, rfl, fun q hq => ?_⟩
        rcases List.mem_append.1 hq with hq | hq
        · exact hle q hq
        · rw [List.mem_singleton.1 hq]
          exact ⟨not_lt.1 hx, fun h => absurd (hlast p hpm) (not_lt.2 h.le)⟩

/-- The result of a slot that some lane took part in, where it is the fold itself. -/
theorem slotResult_of_count {s : Slot} (hc : s.count ≠ 0) (ho : s.op ∈ [RedOp.sumI, .sumL, .maxI, .minI]) :
    slotResult s = s.value := by
  rw [slotResult, if_neg hc]
  split <;> simp_all

theorem slotResult_argmaxI {s : Slot} (hc : s.count ≠ 0) (ho : s.op = .argmaxI) : slotResult s = s.index := by
  rw [slotResult, if_neg hc, ho]

/-- The result of a fold of lanes from a fresh slot, where it is the fold itself. -/
theorem slotResult_foldLanes {op : RedOp} (a : Fin 16) {l : List (Nat × Lane)} (b : Bool) (hl : l ≠ [])
    (ho : op ∈ [RedOp.sumI, .sumL, .maxI, .minI]) :
    slotResult (foldLanes op a l (redStart op b)) = (foldLanes op a l (redStart op b)).value :=
  slotResult_of_count (by simpa [foldLanes_count, redStart] using hl) (by rwa [foldLanes_op])

/-- Settles O45: a RED's slot is the fold of its live lanes, in lane order. -/
theorem whiskReductionsFold : Obligations.WhiskReductionsFold := by
  refine ⟨fun s w slot a sc c op ha h => ?_, fun w op slot a fr hs => ?_⟩
  · have hc : whiskRed c = some (w, op, slot, a, sc) ∧ exec c s = .next (whiskDo w c s) := by
      simp only [List.mem_cons, Prod.mk.injEq, List.not_mem_nil, or_false] at h
      rcases h with ⟨rfl, rfl⟩ | ⟨rfl, rfl⟩ | ⟨rfl, rfl⟩ | ⟨rfl, rfl⟩ | ⟨rfl, rfl⟩ | ⟨rfl, rfl⟩ | ⟨rfl, rfl⟩ |
        ⟨rfl, rfl⟩ | ⟨rfl, rfl⟩ | ⟨rfl, rfl⟩
      all_goals exact ⟨rfl, rfl⟩
    obtain ⟨hr, he⟩ := hc
    cases sc with
    | block => exact exec_whisk_eq ha he (whiskOne_red_block hr)
    | row => exact exec_whisk_eq ha he (whiskOne_red_row hr)
  · have hx : nth {} (opRed w op slot a .block fr).1.slots slot.val =
        foldLanes op a (liveLanes w fr) (redStart op false) := by
      rw [← redFrame_block]
      exact nth_set_same _ _ hs
    have hcount : (foldLanes op a (liveLanes w fr) (redStart op false)).count = (fr.lanes.filter (wLive w)).length := by
      rw [foldLanes_count, ← liveLanes_lanes, List.length_map]
      exact Nat.zero_add _
    have hne (h : fr.lanes.filter (wLive w) ≠ []) : liveLanes w fr ≠ [] := fun h0 => h (by rw [← liveLanes_lanes, h0]; rfl)
    dsimp only
    rw [hx]
    refine ⟨rfl, hcount, fun n hn => List.getElem?_set_ne (Ne.symm hn), ?_, ?_, ?_, ?_, ?_⟩
    · rintro rfl
      rw [← liveLanes_lanes, List.map_map]
      rcases eq_or_ne (liveLanes w fr) [] with h0 | h0
      · rw [h0]; rfl
      · rw [slotResult_foldLanes a false h0 (by decide), foldLanes_sumI]
        exact zero_add _
    · rintro rfl
      rw [← liveLanes_lanes, List.map_map]
      rcases eq_or_ne (liveLanes w fr) [] with h0 | h0
      · rw [h0]; rfl
      · rw [slotResult_foldLanes a false h0 (by decide), foldLanes_sumL _ _ _ 0 rfl]
        rfl
    · rintro rfl h
      obtain ⟨⟨p, hp, hv⟩, hle⟩ := foldLanes_extreme (op := .maxI) (key := id) (a := a) (s := redStart .maxI false) rfl
        (fun s ix x => by simp only [redFold]; split <;> simp_all) _ (hne h)
      rw [slotResult_foldLanes a false (hne h) (by decide)]
      refine ⟨⟨p.2, ?_, hv⟩, fun l hl => ?_⟩
      · rw [← liveLanes_lanes]; exact List.mem_map_of_mem hp
      · rw [← liveLanes_lanes] at hl
        obtain ⟨q, hq, rfl⟩ := List.mem_map.1 hl
        exact hle q hq
    · rintro rfl h
      obtain ⟨⟨p, hp, hv⟩, hle⟩ := foldLanes_extreme (op := .minI) (key := Neg.neg) (a := a) (s := redStart .minI false) rfl
        (fun s ix x => by simp only [redFold]; split <;> simp_all) _ (hne h)
      rw [slotResult_foldLanes a false (hne h) (by decide)]
      refine ⟨⟨p.2, ?_, hv⟩, fun l hl => ?_⟩
      · rw [← liveLanes_lanes]; exact List.mem_map_of_mem hp
      · rw [← liveLanes_lanes] at hl
        obtain ⟨q, hq, rfl⟩ := List.mem_map.1 hl
        exact neg_le_neg_iff.1 (hle q hq)
    · rintro rfl h
      obtain ⟨p, hp, hi, -, hle⟩ := foldLanes_argmaxI (a := a) (s := redStart .argmaxI false) rfl (hne h)
        (liveLanes_pairwise w fr)
      obtain ⟨hn, hlive⟩ := mem_liveLanes.1 hp
      refine ⟨p.1, p.2, ?_, hn, hlive, fun j k hj hk => hle (j, k) (mem_liveLanes.2 ⟨hj, hk⟩)⟩
      rw [slotResult_argmaxI (by simpa [foldLanes_count, redStart] using hne h) (foldLanes_op _ _ _ _), hi]

end Sys2Proof.Machine


/-! ## SPLIT and SOFTMAX (R168, R169, R189) -/

namespace Sys2Proof.Machine

open Sys2Proof

@[simp] theorem WStat.empty_or (s : WStat) : WStat.or {} s = s := rfl

/-- SPLIT begins the next phase of each frame of the row. -/
theorem whiskOne_split (w : WhiskAt) (k : Whisk) : whiskOne w (.split w) k = { k with
    frames := ((rowFrames k w.frame).map (fun e => (e.1, { e.2 with phase := e.2.phase + 1 }))).foldl
      (fun m e => sput m e.1 e.2) k.frames
    status := k.status.or {} } := by
  have hz : ((rowFrames k w.frame).map (·.1)).zip (((rowFrames k w.frame).map (·.2)).map
      (fun fr => { fr with phase := fr.phase + 1 })) =
      (rowFrames k w.frame).map (fun e => (e.1, { e.2 with phase := e.2.phase + 1 })) := by
    rw [List.map_map, List.zip_map']
    rfl
  rw [← hz]
  rfl

/-- SOFTMAX of BLOCK scope writes its frame's own outputs. -/
theorem whiskOne_softmax_block (w : WhiskAt) (d a : Fin 16) (k : Whisk) : whiskOne w (.softmax w d a .block) k = { k with
    frames := sput k.frames w.frame
      (softWrite d ((softmaxOut (softIns w a (sget Frame.idle k.frames w.frame))).1.take 240) (sget Frame.idle k.frames w.frame))
    status := k.status.or (softmaxOut (softIns w a (sget Frame.idle k.frames w.frame))).2 } := by
  have hs : softmaxFrames w d a [sget Frame.idle k.frames w.frame] =
      ([softWrite d ((softmaxOut (softIns w a (sget Frame.idle k.frames w.frame))).1.take 240)
        (sget Frame.idle k.frames w.frame)], (softmaxOut (softIns w a (sget Frame.idle k.frames w.frame))).2) := by
    simp [softmaxFrames]
  simp only [whiskOne, whiskRow, List.map_cons, List.map_nil, hs]
  simp

/-! ### The outputs of SOFTMAX -/

theorem filterMap_id_filter (xs : List (Option Nat)) (p : Nat → Bool) :
    ((xs.filterMap id).filter p).length = (xs.filter (fun x => x.any p)).length := by
  induction xs with
  | nil => rfl
  | cons x xs ih => cases x with
    | none => simpa using ih
    | some c => by_cases h : p c <;> simpa [h] using ih

/-- With nothing live above minus infinity the outputs are 0. -/
theorem softmaxOut_of_no_live {xs : List (Option Nat)} (h : ∀ c, some c ∈ xs → c = 0xFFFF) :
    softmaxOut xs = (xs.map (fun _ => 0), { empty := true }) := by
  have hn : ((xs.filterMap id).filter (· != l16NegInf)).length = 0 := by
    simpa [l16NegInf] using h
  simp only [softmaxOut, hn, if_true]

theorem softmaxOut_live_ne_zero {xs : List (Option Nat)} {c : Nat} (hc : some c ∈ xs) (h : c ≠ 0xFFFF) :
    ((xs.filterMap id).filter (· != l16NegInf)).length ≠ 0 := by
  rw [ne_eq, List.length_eq_zero_iff, List.filter_eq_nil_iff]
  exact fun k => absurd (k c (List.mem_filterMap.2 ⟨_, hc, rfl⟩)) (by simpa [l16NegInf] using h)

theorem posInf_count (xs : List (Option Nat)) :
    ((xs.filterMap id).filter (· == l16PosInf)).length = (xs.filter (· == some 0x7FFF)).length := by
  rw [filterMap_id_filter]
  refine congrArg List.length (List.filter_congr fun x _ => ?_)
  cases x <;> rfl

/-- Entries at plus infinity take equal shares. -/
theorem softmaxOut_of_posInf {xs : List (Option Nat)} (h : some 0x7FFF ∈ xs) : softmaxOut xs =
    (xs.map (fun x => if x = some 0x7FFF then
      (l16Div 0x4000 (itolAt ((xs.filter (· == some 0x7FFF)).length : Nat) 0).1).1 else 0), {}) := by
  have hk : 0 < (xs.filter (· == some 0x7FFF)).length := List.length_pos_of_mem (List.mem_filter.2 ⟨h, by simp⟩)
  simp only [softmaxOut, if_neg (softmaxOut_live_ne_zero h (by decide)), posInf_count, gt_iff_lt, hk, if_true]
  rfl

/-- The greatest live entry of a scope. -/
def softMaximum (xs : List (Option Nat)) : Nat := (xs.filterMap id).foldl l16Max 0xFFFF

/-- An entry's exponential below the greatest one, with its clip. -/
def softExp (mx : Nat) : Option Nat → Nat × Bool
  | none => (0, false)
  | some c => ((l16Exp (l16Sub c mx).1).1, (l16Sub c mx).2 || (l16Exp (l16Sub c mx).1).2)

/-- Each live entry's value over the sum of all. -/
def softShares (e : Option Nat → Nat) (xs : List (Option Nat)) : List Nat :=
  xs.map (fun x => if x = none then 0 else (l16Div (e x) (xs.foldl (fun u x => (l16Add u (e x)).1) 0)).1)

/-- SOFTMAX where some entry is above minus infinity, and none is plus infinity. -/
theorem softmaxOut_finite_eq {xs : List (Option Nat)} (hn : ((xs.filterMap id).filter (· != l16NegInf)).length ≠ 0)
    (hk : ¬ 0 < ((xs.filterMap id).filter (· == l16PosInf)).length) :
    let es := xs.map (softExp (softMaximum xs))
    let s := es.foldl (fun (s : Nat × Bool) e => ((l16Add s.1 e.1).1, s.2 || (l16Add s.1 e.1).2)) (0, false)
    let out := (xs.zip es).map (fun p => if p.1 = none then ((0 : Nat), false) else l16Div p.2.1 s.1)
    softmaxOut xs = (out.map (·.1), { clip := s.2 || es.any (·.2) || out.any (·.2) }) := by
  have he : (fun x : Option Nat => match x with
      | none => ((0 : Nat), false)
      | some c => ((l16Exp (l16Sub c (softMaximum xs)).1).1,
          (l16Sub c (softMaximum xs)).2 || (l16Exp (l16Sub c (softMaximum xs)).1).2)) = softExp (softMaximum xs) := by
    funext x
    cases x <;> rfl
  have ho (t : Nat) : (fun p : Option Nat × Nat × Bool => if p.1 = none then ((0 : Nat), false) else l16Div p.2.1 t) =
      fun p => match p.1 with
      | none => ((0 : Nat), false)
      | some _ => l16Div p.2.1 t := by
    funext p
    cases p.1 <;> rfl
  dsimp only
  rw [← he, ho]
  exact (if_neg hn).trans (if_neg hk)

/-- Each live lane takes its exponential over their sum. -/
theorem softmaxOut_of_finite {xs : List (Option Nat)} (h : some 0x7FFF ∉ xs) {c : Nat} (hc : some c ∈ xs) (hn : c ≠ 0xFFFF) :
    (softmaxOut xs).1 = softShares (fun x => (softExp (softMaximum xs) x).1) xs ∧ (softmaxOut xs).2.empty = false := by
  have hk : ¬ 0 < (xs.filter (· == some 0x7FFF)).length := by
    rw [List.length_pos_iff, not_not, List.filter_eq_nil_iff]
    intro x hx
    have : x ≠ some 0x7FFF := fun e => h (e ▸ hx)
    simpa using this
  have hs : ((xs.map (softExp (softMaximum xs))).foldl
      (fun (s : Nat × Bool) e => ((l16Add s.1 e.1).1, s.2 || (l16Add s.1 e.1).2)) (0, false)).1 =
      xs.foldl (fun u x => (l16Add u (softExp (softMaximum xs) x).1).1) 0 := by
    rw [List.foldl_map]
    exact (List.foldl_hom Prod.fst (fun _ _ => rfl)).symm
  rw [softmaxOut_finite_eq (softmaxOut_live_ne_zero hc hn) (posInf_count xs ▸ hk), hs]
  refine ⟨List.ext_getElem (by simp [softShares]) fun i _ _ => ?_, rfl⟩
  simp only [softShares, List.getElem_map, List.getElem_zip]
  exact apply_ite Prod.fst _ _ _

/-- Settles O48: SPLIT, and SOFTMAX of either scope, whose outputs are those of its three cases. -/
theorem splitAndSoftmax : Obligations.SplitAndSoftmax := by
  refine ⟨fun s w ha => exec_whisk_eq ha rfl (whiskOne_split w), fun s w d a ha => exec_whisk_eq ha rfl fun _ => rfl,
    fun s w d a ha => exec_whisk_eq ha rfl (whiskOne_softmax_block w d a), fun xs h => softmaxOut_of_no_live h,
    fun xs h => softmaxOut_of_posInf h, fun xs h => ?_⟩
  rintro ⟨c, hc, hn⟩
  have he : (fun x : Option Nat => (softExp (softMaximum xs) x).1) = fun x => match x with
      | none => 0
      | some c => (l16Exp (l16Sub c (softMaximum xs)).1).1 := by
    funext x
    cases x <;> rfl
  obtain ⟨hv, hempty⟩ := softmaxOut_of_finite h hc hn
  exact ⟨hv.trans (congrArg (softShares · xs) he), hempty⟩

end Sys2Proof.Machine


/-! ## Start-up and the loss of power (R22, R524 to R533) -/

namespace Sys2Proof.Machine

open Sys2Proof

/-- An alert cause set holds PILOT_ALERT_N low. -/
theorem alertN_setAlert_true (bit : Nat) (s : State) : alertN (setAlert bit true s) = false := by
  have hp : 0 < 2 ^ bit := Nat.two_pow_pos bit
  have hz : ∀ v : Nat, v / 2 ^ bit % 2 = 1 → v ≠ 0 := fun v h hv => by simp [hv] at h
  simp only [alertN, setAlert, Bool.true_and, Bool.not_true, Bool.false_and, beq_eq_false_iff_ne]
  split
  · omega
  · next h => exact hz _ (by simpa using h)

theorem alertN_bootFault (code : Nat) (s : State) : alertN (bootFault code s) = false := alertN_setAlert_true _ _

theorem getO_bootFault_same (code : Nat) (s : State) : getO (bootFault code s) oBootFault = code :=
  (getO_of_vals rfl _).trans (getO_setO_same _ _ _)

theorem getO_bootFault_other {k : Nat} (code : Nat) (s : State) (h : k ≠ oBootFault) :
    getO (bootFault code s) k = getO s k :=
  (getO_of_vals rfl _).trans (getO_setO_other _ h _)

/-- Every port of a stopped start-up is DOWN. -/
theorem bootFault_ports (code : Nat) (s : State) : ∀ e ∈ (bootFault code s).links.ports, e.2.st = 0 ∧ e.2.width = 0 := by
  intro e he
  obtain ⟨x, -, rfl⟩ := List.mem_map.1 he
  exact ⟨rfl, rfl⟩

/-- Settles O1: each command follows the branch of its case. -/
theorem startUpBegins : Obligations.StartUpBegins := by
  refine ⟨fun s hp => ?_, fun s r n hr hon hg hn hno hc => ?_, fun s r hr hon hg hall => ?_, fun s r hr hon hg => ?_⟩
  · refine ⟨doPorstNRise s, rfl, ?_⟩
    rw [doPorstNRise, if_neg (by simp [hp])]
    refine ⟨rfl, rfl, rfl, rfl, ?_, rfl, rfl, rfl, rfl, rfl, rfl, ?_, rfl, rfl, rfl, rfl, rfl, rfl, rfl, rfl⟩
    · exact (getO_of_vals rfl _).trans (getO_setO_same _ _ _)
    · exact List.append_assoc _ _ _
  · refine congrArg Host.Outcome.next ?_
    rw [doRailPowerGood, if_neg (by simp [hr, hon, hg])]
    simp only [startRails, nextRail, hn]
    exact if_neg (by simp [hno]; exact hc)
  · refine congrArg Host.Outcome.next ?_
    have hnone : railOrder.find? (fun x => !nth false (s.boot.railGood.set r true) x) = none :=
      List.find?_eq_none.2 fun x hx => by simp [hall x hx]
    rw [doRailPowerGood, if_neg (by simp [hr, hon, hg])]
    simp only [nextRail, hnone]
  · refine ⟨bootFault 1 s, congrArg Host.Outcome.next (if_pos ⟨hr, hon, by simp [hg]⟩), getO_bootFault_same _ _, rfl, rfl,
      alertN_bootFault _ _, bootFault_ports _ _, fun k hk => getO_bootFault_other _ _ hk, rfl, rfl, rfl, rfl⟩

/-! ### The stages -/

theorem getO_with_boot (s : State) (b : BootState) (k : Nat) : getO { s with boot := b } k = getO s k := rfl

theorem getO_bootReady_stage (s : State) : getO (bootReady s) oBootStage = 12 := by
  rw [bootReady, getO_setO_other _ (by decide), stageDone, getO_setO_same]

/-- Settles O2: each stage's command runs its stage where start-up waits for it. -/
theorem startUpStagesRun : Obligations.StartUpStagesRun := by
  refine ⟨fun s failed h => ?_, fun s bad h hbad => ?_, fun s bad h hbad => ?_, fun s fs h hf => ?_, fun s fs h he hi => ?_,
    fun s bad h => ?_⟩
  · exact congrArg Host.Outcome.next (if_pos h)
  · obtain ⟨d, hd, hlt⟩ := hbad
    exact congrArg Host.Outcome.next ((if_pos h).trans (if_pos (List.any_eq_true.2 ⟨d, hd, decide_eq_true hlt⟩)))
  · have hn : ¬ bad.any (fun d => decide (d < 48)) = true := by
      simpa using hbad
    exact congrArg Host.Outcome.next ((if_pos h).trans (if_neg hn))
  · have hp : fs.any pairUnit = true := List.any_eq_true.2 (hf.elim (fun h => ⟨_, h, rfl⟩) fun h => ⟨_, h, rfl⟩)
    exact congrArg Host.Outcome.next ((if_pos h).trans (if_pos hp))
  · have hp : ¬ fs.any pairUnit = true := fun k => by
      obtain ⟨u, hu, hpu⟩ := List.any_eq_true.1 k
      cases u with
      | expediterPair => exact he hu
      | islandPair => exact hi hu
      | _ => exact absurd hpu (by simp [pairUnit])
    exact congrArg Host.Outcome.next ((if_pos h).trans (if_neg hp))
  · exact ⟨_, congrArg Host.Outcome.next (if_pos h), rfl, rfl, (getO_with_boot _ _ _).trans (getO_bootReady_stage _)⟩

/-! ### The loss of power -/

/-- Commanding a list of rails off names those that are on, in its order, and changes nothing but the rails. -/
theorem railsOff_foldl (l : List Nat) (hl : l.Nodup) (s : State) : ∃ on good,
    l.foldl (fun s r => if nth false s.boot.railOn r ∧ ¬ (fun _ => false) r = true then
      emit (.pmbus r 1 0) { s with boot := { s.boot with
        railOn := s.boot.railOn.set r false
        railGood := s.boot.railGood.set r false } }
    else s) s = { s with
      boot := { s.boot with railOn := on, railGood := good }
      out := s.out ++ (l.filter (fun r => nth false s.boot.railOn r)).map (fun r => .pmbus r 1 0) } := by
  induction l generalizing s with
  | nil => exact ⟨s.boot.railOn, s.boot.railGood, by simp⟩
  | cons r l ih =>
    obtain ⟨hr, hl⟩ := List.nodup_cons.1 hl
    rw [List.foldl_cons]
    by_cases hon : nth false s.boot.railOn r = true
    · rw [if_pos ⟨hon, by simp⟩]
      obtain ⟨on, good, h⟩ := ih hl (emit (.pmbus r 1 0) { s with boot := { s.boot with
        railOn := s.boot.railOn.set r false, railGood := s.boot.railGood.set r false } })
      have hrest : l.filter (fun x => nth false (s.boot.railOn.set r false) x) = l.filter (fun x => nth false s.boot.railOn x) :=
        List.filter_congr fun x hx => by
          have hxr : r ≠ x := fun e => hr (e ▸ hx)
          simp [nth, List.getElem?_set_ne hxr]
      refine ⟨on, good, h.trans ?_⟩
      simp only [emit, hrest, List.filter_cons_of_pos (p := fun x => nth false s.boot.railOn x) hon, List.map_cons,
        List.append_assoc, List.singleton_append]
    · rw [if_neg (by simp [hon])]
      obtain ⟨on, good, h⟩ := ih hl s
      refine ⟨on, good, h.trans ?_⟩
      rw [List.filter_cons_of_neg (by simpa using hon)]

theorem railsOff_all (s : State) : ∃ on good, railsOff (fun _ => false) s = { s with
    boot := { s.boot with railOn := on, railGood := good }
    out := s.out ++ (([4, 2, 0, 1, 3] : List Nat).filter (fun r => nth false s.boot.railOn r)).map (fun r => .pmbus r 1 0) } :=
  railsOff_foldl [4, 2, 0, 1, 3] (by decide) s

/-- What a loss of power keeps of the objects. -/
theorem getO_powerLost (s : State) (k : Nat) : getO (powerLost s) k = if heldInNv k then getO s k else objDefault k := by
  have hv : (powerLost s).dict.vals = s.dict.vals.filter (fun e => heldInNv e.1) := rfl
  simp only [getO, sget, hv]
  split
  · next h => rw [sfind_filter s.dict.vals k heldInNv h]
  · next h =>
    rw [sfind_none _ k fun e he hk => h (hk ▸ (List.mem_filter.1 he).2)]
    rfl

/-- Settles O3: with the rails commanded off, what stays is what the loss of power keeps. -/
theorem powerDownLosesVolatileState : Obligations.PowerDownLosesVolatileState := by
  intro s c hc hp
  obtain ⟨on, good, h⟩ := railsOff_all s
  have he : exec c s = .next (powerLost (railsOff (fun _ => false) s)) := by
    have hf : doPorstNFall s = powerLost (railsOff (fun _ => false) s) := if_pos hp
    rcases hc with rfl | rfl | rfl
    · exact congrArg Host.Outcome.next hf
    · exact congrArg Host.Outcome.next ((if_pos (.inl rfl)).trans hf)
    · exact congrArg Host.Outcome.next ((if_pos (.inr rfl)).trans hf)
  refine ⟨_, he, rfl, by rw [h]; rfl, rfl, by rw [h]; rfl, rfl, by rw [h]; rfl, rfl, rfl, rfl, rfl, rfl, rfl, fun k hk => ?_, fun k hk => ?_, ?_⟩
  · rw [getO_powerLost, if_pos hk, h]
    rfl
  · rw [getO_powerLost, if_neg (by simp [hk])]
  · rw [h]
    exact ⟨rfl, rfl, rfl, rfl, rfl, rfl, rfl, rfl, rfl, rfl, rfl⟩

end Sys2Proof.Machine


/-! ## Resets, service, identity and spare states (R22, R470, R471, R501, R502, R532 to R540) -/

namespace Sys2Proof.Machine

open Sys2Proof

/-- A part that asks for nothing but the tick keeps it through a chip reset. -/
theorem chipReset_kept (s : State) : Kept true s (chipReset s) := kept_chipReset s (Kept.refl true s)

/-- Settles O4: a reset that its object's checks let through acts, or is refused where the part is busy. -/
theorem resetWritesReset : Obligations.ResetWritesReset := by
  have hrun {s : State} {a : Access} (hg : gate s a oChipReset [1] = 0) :
      doChipReset a 1 s = if resetAllowed s then (abOk, chipReset s) else (abState, s) := by
    have hg' : gate s a oChipReset (natLe 1 1) = 0 := hg
    simp only [doChipReset, hg']
    rfl
  refine ⟨fun s a hg h => ?_, fun s a hg hf ht hw => ?_, fun s => ?_, fun s a mask hg hs => ?_, fun s a u p hg h => ?_,
    fun s a u p hg h => ?_, fun s u h => ?_, fun s u h => ?_⟩
  · exact congrArg (Host.Outcome.next ∘ answerWrite) ((hrun hg).trans (if_pos h))
  · have hn : ¬ resetAllowed s = true := by
      have hr : resetAllowed s = (s.kv.ctxs.isEmpty && s.sched.reqs.isEmpty) := by
        unfold resetAllowed
        split
        · next h => exact absurd h hf
        · next h => exact absurd h ht
        · rfl
      rw [hr]
      rcases hw with h | h <;> simp [h]
    exact congrArg (Host.Outcome.next ∘ answerWrite) ((hrun hg).trans (if_neg hn))
  · obtain ⟨-, -, -, hown, htick⟩ := chipReset_kept s
    obtain ⟨hno, hstart, hlen, hphase, hporst, -⟩ := htick rfl
    exact ⟨hown, hno, hstart, hlen, hphase, hporst⟩
  · refine congrArg (Host.Outcome.next ∘ answerWrite) ?_
    simp only [doPortReset, hg, hs, Bool.false_eq_true, false_and, if_false]
  · refine congrArg (Host.Outcome.next ∘ answerWrite) ?_
    simp only [doEngineReset, hg, h, Bool.false_eq_true, if_false]
  · refine congrArg (Host.Outcome.next ∘ answerWrite) ?_
    simp only [doEngineReset, hg, h, if_true]
  · simp only [resetEngine, h, if_true]
  · simp only [resetEngine, not_lt.2 h, if_false, if_true]

/-! ### Writes that come into force at once -/

/-- An answer changes the dictionary alone. -/
theorem answerWrite_eq (r : Nat × State) : answerWrite r = { r.2 with dict := (answerWrite r).dict } := by
  unfold answerWrite answer
  dsimp only
  split <;> rfl

theorem getO_answerWrite (r : Nat × State) {k : Nat} (hw : k ≠ oDictWriteCount) (ha : k ≠ oDictAbortCount) :
    getO (answerWrite r) k = getO r.2 k := by
  unfold answerWrite answer
  dsimp only
  split
  · exact (getO_of_vals rfl k).trans (getO_bump_other _ hw)
  · exact (getO_bump_other _ ha).trans ((getO_of_vals rfl k).trans (getO_bump_other _ hw))

section
variable (key : Nat) (v : Bytes) (s : State)

theorem nvStore_vals : ∃ d, nvStore key v s = bump { s with dict := d } oDictNvWriteCount ∧ d.vals = s.dict.vals := by
  unfold nvStore
  dsimp only
  split <;> exact ⟨_, rfl, rfl⟩

theorem getO_nvStore_count : getO (nvStore key v s) oDictNvWriteCount = (getO s oDictNvWriteCount + 1) % 2 ^ 64 := by
  obtain ⟨d, h, hd⟩ := nvStore_vals key v s
  rw [h, getO_bump_same, getO_of_vals (s := s) hd]

theorem getO_nvStore_other {k : Nat} (hk : k ≠ oDictNvWriteCount) : getO (nvStore key v s) k = getO s k := by
  obtain ⟨d, h, hd⟩ := nvStore_vals key v s
  rw [h, getO_bump_other _ hk, getO_of_vals (s := s) hd]

/-- A write to NV changes the dictionary alone. -/
theorem nvStore_eq : nvStore key v s = { s with dict := (nvStore key v s).dict } := by
  unfold nvStore
  dsimp only
  split <;> rfl

end

/-- A number that persists comes into force, and into NV. -/
theorem applyNow_number {key : Nat} {d : ObjDesc} (hd : objRow (key / 256) (key % 256) = some d) (hn : isNum d.typ = true)
    (hp : d.persistent = true) (v : Bytes) (s : State) : applyNow key v s = nvStore key v (setO s key (leNat v)) := by
  simp only [applyNow, putValue, isPersistent, hd, hn, hp, if_true]

theorem exists_row {key : Nat} (h : (objRow (key / 256) (key % 256)).any (fun d => isNum d.typ && d.persistent) = true) :
    ∃ d, objRow (key / 256) (key % 256) = some d ∧ isNum d.typ = true ∧ d.persistent = true := by
  cases ho : objRow (key / 256) (key % 256) with
  | none => simp [ho] at h
  | some d => exact ⟨d, rfl, by simpa [ho] using h⟩

theorem chipId_row : (objRow (oChipId / 256) (oChipId % 256)).any (fun d => isNum d.typ && d.persistent) = true := by
  decide

theorem surrendered_row : (objRow (oSurrendered / 256) (oSurrendered % 256)).any (fun d => isNum d.typ && d.persistent) = true := by
  decide

/-- CHIP_ID_WRITE puts the identity and a cleared Surrendered in force and into NV. -/
theorem chipIdWrite_eq {a : Access} {v : Nat} {s : State} (hg : gate s a oChipId (natLe 2 v) = 0) :
    doChipIdWrite a v s = (abOk, nvStore oSurrendered [0] (setO
      (nvStore oChipId (natLe 2 v) (setO s oChipId (leNat (natLe 2 v)))) oSurrendered (leNat [0]))) := by
  obtain ⟨d, hd, hn, hp⟩ := exists_row chipId_row
  obtain ⟨e, he, hm, hq⟩ := exists_row surrendered_row
  simp only [doChipIdWrite, hg, applyNow_number hd hn hp, applyNow_number he hm hq]

theorem two_counts_ne (n : Nat) : ((n + 1) % 2 ^ 64 + 1) % 2 ^ 64 ≠ n := by omega

/-- Settles O5: what SERVE_ENABLE and CHIP_ID_WRITE answer and put in force. -/
theorem serviceAndIdentityWrites : Obligations.ServiceAndIdentityWrites := by
  refine ⟨fun s a hg h => ?_, fun s a v hg h hr => ?_, fun s a v hg hf => ?_, fun s a v hg hv hf => ?_⟩
  · have hg' : gate s a oServeEnable (natLe 1 1) = 0 := hg
    refine congrArg (Host.Outcome.next ∘ answerWrite) ?_
    simp only [doServeEnable, hg', h, and_self, if_true]
  · refine congrArg (Host.Outcome.next ∘ answerWrite) ?_
    have hn : ¬ (v = 1 ∧ (getO s oBootStage ≠ 12 ∨ getO s oChipId = 0xFFFF)) := by
      rintro ⟨rfl, hb⟩
      rcases h with h | ⟨h1, h2⟩
      · exact absurd h (by decide)
      · exact hb.elim (fun k => k h1) h2
    simp only [doServeEnable, hg, hn, if_false, makePending, hr, if_true]
  · refine congrArg (Host.Outcome.next ∘ answerWrite) ?_
    rw [chipIdWrite_eq hg]
    refine if_pos ⟨hf, rfl, ?_⟩
    rw [getO_nvStore_count, getO_setO_other _ (by decide), getO_nvStore_count, getO_setO_other _ (by decide)]
    exact two_counts_ne _
  · have hl : leNat (natLe 2 v) = v := (leNat_natLe 2 v).trans (Nat.mod_eq_of_lt hv)
    refine ⟨_, rfl, ?_⟩
    rw [show nvAnswer a s (doChipIdWrite a v s) = doChipIdWrite a v s from if_neg (by simp [hf]), chipIdWrite_eq hg, hl]
    refine ⟨?_, ?_, rfl, ?_⟩
    · rw [getO_answerWrite _ (by decide) (by decide), getO_nvStore_other _ _ _ (by decide), getO_setO_other _ (by decide),
        getO_nvStore_other _ _ _ (by decide), getO_setO_same]
    · rw [getO_answerWrite _ (by decide) (by decide), getO_nvStore_other _ _ _ (by decide), getO_setO_same]
      rfl
    · rw [answerWrite_eq, nvStore_eq, nvStore_eq oChipId]
      exact ⟨rfl, rfl, rfl, rfl, rfl⟩

end Sys2Proof.Machine


/-! ## What a fold over the state leaves -/

namespace Sys2Proof.Machine

open Sys2Proof

/-- What each step of a fold leaves, the fold leaves: `put s t` is `s` with the components of `t` that a step may change. -/
theorem foldl_eq_put {α : Type} (put : State → State → State) (hs : ∀ s, put s s = s)
    (hp : ∀ s t u, put (put s t) u = put s u) {f : State → α → State} (hf : ∀ s x, f s x = put s (f s x))
    (l : List α) (s : State) : l.foldl f s = put s (l.foldl f s) := by
  induction l generalizing s with
  | nil => exact (hs s).symm
  | cons x l ih =>
    calc l.foldl f (f s x) = put (f s x) (l.foldl f (f s x)) := ih _
      _ = put (put s (f s x)) (l.foldl f (f s x)) := congrArg (put · _) (hf s x)
      _ = put s (l.foldl f (f s x)) := hp _ _ _

end Sys2Proof.Machine


/-! ## Chip states: spares, IDLE and waking (R467, R470, R471, R538 to R540) -/

namespace Sys2Proof.Machine

open Sys2Proof

theorem listenOnly_eq (s : State) : listenOnly s = { s with links := (listenOnly s).links } :=
  foldl_eq_put (fun s t => { s with links := t.links }) (fun _ => rfl) (fun _ _ _ => rfl) (fun _ _ => rfl) _ s

/-- Commanding rails off changes the rails alone. -/
theorem railsOff_eq (keep : Nat → Bool) (s : State) :
    railsOff keep s = { s with boot := (railsOff keep s).boot, out := (railsOff keep s).out } :=
  foldl_eq_put (fun s t => { s with boot := t.boot, out := t.out }) (fun _ => rfl) (fun _ _ _ => rfl)
    (fun t r => by split <;> rfl) _ s

theorem putValue_eq (key : Nat) (v : Bytes) (s : State) : putValue key v s = { s with dict := (putValue key v s).dict } := by
  unfold putValue
  split
  · split <;> rfl
  · rfl

theorem putValues_eq (l : List (Nat × Bytes)) (s : State) :
    l.foldl (fun s e => putValue e.1 e.2 s) s = { s with dict := (l.foldl (fun s e => putValue e.1 e.2 s) s).dict } :=
  foldl_eq_put (fun s t => { s with dict := t.dict }) (fun _ => rfl) (fun _ _ _ => rfl) (fun _ _ => putValue_eq _ _ _) l s

theorem powerPatrol_eq (s : State) : powerPatrol s = { s with power := (powerPatrol s).power } := by
  unfold powerPatrol
  split <;> rfl

/-- The dictionary's numbers of a part in COLD_SPARE: those that its NV region holds. -/
def putNv (s : State) : State := match nvNow s with
  | some c => c.vals.foldl (fun (s : State) (e : Nat × Bytes) => putValue e.1 e.2 s) s
  | none => s

theorem putNv_eq (s : State) : putNv s = { s with dict := (putNv s).dict } := by
  unfold putNv
  split
  · exact putValues_eq _ _
  · rfl

/-- The main domains lost, with every rail off but VSTACK under a patrol. -/
def coldRails (s : State) : State :=
  railsOff (fun r => r == 2 && (patrolNext (patrolRuns s) s.ingot.patrolAt).isSome) (domainsOff (mainLost s))

/-- What a part that enters COLD_SPARE keeps. -/
def coldBase (s : State) : State := setO (putNv (coldRails s)) oChipId (getO s oChipId)

/-- What a part in COLD_SPARE holds. -/
theorem enterCold_state (s : State) : (enterCold s).boot.chip = .coldSpare ∧ (enterCold s).boot.spareWanted = none ∧
    (enterCold s).dram.mem = [] ∧ (enterCold s).kv = {} ∧ (enterCold s).sched = {} := by
  have h : enterCold s = powerPatrol (listenOnly { coldBase s with
      boot := { (coldBase s).boot with chip := .coldSpare, spareWanted := none } }) := by
    unfold enterCold coldBase coldRails putNv
    generalize railsOff _ (domainsOff (mainLost s)) = u
    rfl
  have hb : ∃ b d o, coldBase s = { domainsOff (mainLost s) with boot := b, dict := d, out := o } := by
    rw [coldBase, putNv_eq, coldRails, railsOff_eq]
    exact ⟨_, _, _, rfl⟩
  obtain ⟨b, d, o, hb⟩ := hb
  rw [h, powerPatrol_eq, listenOnly_eq]
  dsimp only
  rw [hb]
  exact ⟨rfl, rfl, rfl, rfl, rfl⟩

/-- Settles O6: each command of the spare states and of IDLE follows the branch of its case. -/
theorem spareStatesAndIdle : Obligations.SpareStatesAndIdle := by
  refine ⟨fun s a v hg hv hc hr hq => ?_, fun s a hg hs => ?_, fun s hw hm => ?_, fun s hw hm => ?_, fun s hc hf hi => ?_,
    fun s failed hc he => ?_, fun s failed hc he hn => ?_⟩
  · refine congrArg (Host.Outcome.next ∘ answerWrite) ?_
    rcases hv with rfl | rfl <;> simp [doChipStateRequest, hg, hc, hr, hq]
  · have hg' : gate s a oChipStateRequest (natLe 1 0) = 0 := hg
    refine congrArg (Host.Outcome.next ∘ answerWrite) ?_
    simp only [doChipStateRequest, hg', hs, if_true]
  · refine ⟨enterWarm s, congrArg Host.Outcome.next (by simp [doSpareReached, hw, hm]), ?_⟩
    rw [enterWarm, listenOnly_eq]
    exact ⟨rfl, rfl, rfl, rfl, rfl, rfl, rfl, rfl⟩
  · exact ⟨enterCold s, congrArg Host.Outcome.next (by simp [doSpareReached, hw, hm]), enterCold_state s⟩
  · exact congrArg Host.Outcome.next (if_pos ⟨hc, by simp [hf], hi⟩)
  · refine congrArg Host.Outcome.next ?_
    simp only [doWakeReady, hc, he]
  · refine congrArg Host.Outcome.next ?_
    simp only [doWakeReady, hc, he, hn, if_false]

end Sys2Proof.Machine


/-! ## Fail-silence, recasts and hand-over (R159, R223, R411, R416 to R426, R469, R532) -/

namespace Sys2Proof.Machine

open Sys2Proof

/-! ### Fail-silence -/

/-- A port that carries anything is told to idle; nothing else changes. -/
theorem idlePorts_foldl (l : List Nat) (s : State) :
    l.foldl (fun s p => if (portGet s p).st = 0 then s else emit (.idle p) s) s =
      { s with out := s.out ++ (l.filter (fun p => (portGet s p).st != 0)).map (fun p => .idle p) } := by
  induction l generalizing s with
  | nil => simp
  | cons p l ih =>
    rw [List.foldl_cons]
    by_cases hp : (portGet s p).st = 0
    · rw [if_pos hp, ih, List.filter_cons_of_neg (by simp [hp])]
    · rw [if_neg hp, ih, List.filter_cons_of_pos (by simp [hp])]
      simp only [emit, List.map_cons, List.append_assoc, List.singleton_append]
      rfl

theorem idlePorts_eq (s : State) : idlePorts s =
    { s with out := s.out ++ ((List.range 16).filter (fun p => (portGet s p).st != 0)).map (fun p => .idle p) } :=
  idlePorts_foldl _ s

/-- What fail-silence leaves: the commit set is given up, the ports idle, the state reads FAILED or stays TRIPPED. -/
def silenced (s : State) : State :=
  { s with
    faults := { s.faults with silent := true, failed := true }
    sched := { s.sched with commitSet := [], held := [] }
    boot := { s.boot with chip := if s.boot.chip = .tripped then .tripped else .failed }
    out := s.out ++ ((List.range 16).filter (fun p => (portGet s p).st != 0)).map (fun p => .idle p) }

/-- Fail-silence counts, and sets Surrendered in force and in NV. -/
theorem goSilent_eq {s : State} (h : s.faults.failed = false) : goSilent s =
    nvStore oSurrendered [0x01] (setO (bump (silenced s) oChipFaultCount) oSurrendered (leNat [0x01])) := by
  obtain ⟨d, hd, hn, hp⟩ := exists_row surrendered_row
  rw [goSilent, if_neg (by simp [h]), idlePorts_eq]
  exact applyNow_number hd hn hp [0x01] _

/-- Settles O8: each check raises its fault, and a raised SILENT fault silences. -/
theorem silentFaultsSilence : Obligations.SilentFaultsSilence := by
  refine ⟨fun s t h => congrArg Host.Outcome.next (if_pos h), fun s t h => congrArg Host.Outcome.next (if_pos h),
    fun s t h => congrArg Host.Outcome.next (if_pos h), fun s i t r hr hl => congrArg Host.Outcome.next ?_, fun s hs hf => ?_⟩
  · simp only [doReplayExhausted, hr, hl, if_true]
  · refine ⟨goSilent s, congrArg Host.Outcome.next (if_pos hs), ?_⟩
    have ho (k : Nat) (hn : k ≠ oDictNvWriteCount) : getO (goSilent s) k =
        getO (setO (bump (silenced s) oChipFaultCount) oSurrendered (leNat [0x01])) k := by
      rw [goSilent_eq hf, getO_nvStore_other _ _ _ hn]
    have hg : ∃ d, goSilent s = { silenced s with dict := d } := ⟨_, by rw [goSilent_eq hf, nvStore_eq]; rfl⟩
    obtain ⟨d, hg⟩ := hg
    refine ⟨by rw [hg]; rfl, by rw [hg]; rfl, by rw [hg]; rfl, by rw [hg]; rfl, by rw [hg]; rfl, ?_, ?_, by rw [hg]; rfl,
      by rw [hg]; rfl, by rw [hg]; rfl, by rw [hg]; rfl, by rw [hg]; rfl, by rw [hg]; rfl⟩
    · rw [ho _ (by decide), getO_setO_same]
      rfl
    · rw [ho _ (by decide), getO_setO_other _ (by decide), getO_bump_same]
      rfl

/-! ### Recasts -/

theorem dropBanks_tiles (g : Nat) (s : State) : (dropBanks g s).engine.tiles = s.engine.tiles ∧
    (dropBanks g s).engine.latches = s.engine.latches := by
  unfold dropBanks
  split <;> exact ⟨rfl, rfl⟩

/-- A Griddle that leaves service keeps nothing that runs. -/
theorem abandon_clears (g p : Nat) (s : State) :
    sfind (abandon g p s).engine.stores p = none ∧ sfind (abandon g p s).engine.whisks p = none ∧
    sfind (abandon g p s).engine.tiles g = none ∧ sfind (abandon g p s).engine.latches g = none ∧
    p ∈ (abandon g p s).faults.retired := by
  unfold abandon
  dsimp only
  obtain ⟨ht, hl⟩ := dropBanks_tiles g (latchDel g (tileDel g ((runsOn s g).foldl (fun s i => replayRequest i s) s)))
  refine ⟨sfind_sdel_same _ _, sfind_sdel_same _ _, ?_, ?_, List.mem_append_right _ (List.mem_singleton_self p)⟩
  · rw [ht]
    exact sfind_sdel_same _ _
  · rw [hl]
    exact sfind_sdel_same _ _

/-- Settles O9: a unit at its limit, a swap, a Sieve's recast and a slice of self-test follow the branch of their case. -/
theorem unitsAreRecast : Obligations.UnitsAreRecast := by
  refine ⟨fun s g t p hu hg => congrArg Host.Outcome.next ?_, fun s n t hu => congrArg Host.Outcome.next (if_neg (not_lt.2 hu)),
    fun s g c t hg hp => congrArg Host.Outcome.next (if_pos ⟨hg, hp⟩), fun s g c p q hp hq => ?_, fun s g c p hp hq => ?_,
    fun s g p => abandon_clears g p s, fun s n c t hp => congrArg Host.Outcome.next (if_pos hp),
    fun s n c hdue hs hn hl => ?_, fun s t h => congrArg Host.Outcome.next (if_neg (not_not.2 h)),
    fun s u t h => congrArg Host.Outcome.next (if_neg (not_not.2 h))⟩
  · have hl : logicalOf (atT t s) p = some g := hg
    simp only [doUnitFaultLimit, hl]
    exact if_neg (not_lt.2 hu)
  · simp only [swapGriddle, hp, hq]
  · simp only [swapGriddle, hp, hq]
  · have hd : ¬ s.faults.sieveDue.any (fun x => x.1 == n) = true := by simpa using fun x y z hx => hdue _ hx rfl
    rw [recastSieve, if_neg hd, if_neg (by simpa using hn), if_pos (by simpa using hs), if_neg (not_le.2 hl)]

/-! ### Hand-over, and limits that end -/

/-- Settles O10: a hand-over is asked for once, fixes its last tick, and ends in fail-silence. -/
theorem handOverRuns : Obligations.HandOverRuns := by
  refine ⟨fun s a hg => congrArg (Host.Outcome.next ∘ answerWrite) ?_, fun s a hg => congrArg (Host.Outcome.next ∘ answerWrite) ?_,
    fun s c t hp hh ha hb => congrArg Host.Outcome.next ?_, fun s c t hp hh ha hb => congrArg Host.Outcome.next ?_,
    fun s h hh hl hw hx => congrArg Host.Outcome.next ?_⟩
  · have hg' : gate s a oHandOver (natLe 1 1) = 0 := hg
    simp only [doHandOverWrite, hg', if_true]
  · have hg' : gate s a oHandOver (natLe 1 0) = 0 := hg
    simp [doHandOverWrite, hg']
  · rw [doHandOver, if_neg (by simp [hp, hh, ha])]
    exact if_pos hb
  · rw [doHandOver, if_neg (by simp [hp, hh, ha])]
    exact if_neg hb
  · simp only [doHandoverLast, hh]
    exact if_pos ⟨hl, by simpa using fun x y hm => hw _ hm, by simpa using fun x y hm => hx _ hm⟩

/-- Settles O11: each takes effect once its time has passed. -/
theorem expiredLimitsLift : Obligations.ExpiredLimitsLift := by
  refine ⟨fun s id c hc hw hl hr => congrArg Host.Outcome.next ?_,
    fun s ref ho hl => congrArg Host.Outcome.next (if_pos ⟨ho, hl⟩),
    fun s k hk hc => ⟨congrArg Host.Outcome.next (if_pos ⟨hk, hc⟩), ?_⟩⟩
  · simp only [doSpecResume, hc, hw, hl, ne_eq, hr, not_false_eq_true, and_self, if_true]
    simp only [setWidth, hc, hw]
    exact if_neg (Ne.symm hr)
  · rw [raiseFault_faults]
    have hcls : faultClass 0x0135 .stack = 2 := rfl
    cases hp : s.faults.planned <;> simp [hcls]

end Sys2Proof.Machine


/-! ## Time sources (R22 to R33, R557) -/

namespace Sys2Proof.Machine

open Sys2Proof

theorem addEntry_eq (e : Bytes) (s : State) : addEntry e s = { s with record := (addEntry e s).record } := by
  unfold addEntry
  split <;> rfl

/-! ### State and source -/

/-- A change of state and source writes its entry, counts, and changes nothing else. -/
theorem setSource_eq (st act : Nat) (s : State) : ∃ r d c f,
    setSource st act s = { s with record := r, dict := d, time := { s.time with changes := c, freq := f } } := by
  rw [setSource]
  split
  · exact ⟨_, _, _, _, rfl⟩
  · rw [addEntry_eq]
    exact ⟨_, _, _, _, rfl⟩

section
variable (st act : Nat) (s : State)

theorem getO_setSource_state : getO (setSource st act s) oTickSourceState = st := by
  rw [setSource]
  split
  · next h => exact h.1
  · rw [getO_setO_other _ (by decide), getO_setO_same]

theorem getO_setSource_active : getO (setSource st act s) oTickSourceActive = act := by
  rw [setSource]
  split
  · next h => exact h.2
  · rw [getO_setO_same]

theorem getO_setSource_other {k : Nat} (h1 : k ≠ oTickSourceState) (h2 : k ≠ oTickSourceActive) :
    getO (setSource st act s) k = getO s k := by
  rw [setSource]
  split
  · rfl
  · rw [getO_setO_other _ h2, getO_setO_other _ h1, addEntry_eq]
    rfl

theorem track_setSource (src : Nat) : track (setSource st act s) src = track s src := by
  obtain ⟨_, _, _, _, h⟩ := setSource_eq st act s
  rw [h]
  rfl

end

section
variable (src : Nat) (k : SourceTrack) (s : State)

/-- A tracking record changed leaves all else of the state, and of the time. -/
theorem setTrack_eq : setTrack src k s = { s with time := { s.time with
    ptp := (setTrack src k s).time.ptp, sync := (setTrack src k s).time.sync } } := by
  unfold setTrack
  split <;> rfl

theorem getO_setTrack (key : Nat) : getO (setTrack src k s) key = getO s key := by
  rw [setTrack_eq]
  rfl

theorem track_setTrack_same : track (setTrack src k s) src = k := by
  unfold track setTrack
  split <;> rfl

theorem track_setTrack_other {o : Nat} (h : (src = 1) ≠ (o = 1)) : track (setTrack src k s) o = track s o := by
  unfold track setTrack
  by_cases h1 : src = 1 <;> by_cases h2 : o = 1 <;> simp_all

theorem sourceStopped_setTrack_other {o : Nat} (h : (src = 1) ≠ (o = 1)) :
    sourceStopped (setTrack src k s) o = sourceStopped s o := by
  unfold sourceStopped setTrack
  by_cases h1 : src = 1 <;> by_cases h2 : o = 1 <;> simp_all

theorem sourceLocked_setTrack_other {o : Nat} (h : (src = 1) ≠ (o = 1)) :
    sourceLocked (setTrack src k s) o = sourceLocked s o := by
  rw [sourceLocked, track_setTrack_other _ _ _ h, sourceStopped_setTrack_other _ _ _ h, sourceLocked]

theorem delivers_setTrack_other {o : Nat} (h : (src = 1) ≠ (o = 1)) : delivers (setTrack src k s) o = delivers s o := by
  rw [delivers, track_setTrack_other _ _ _ h, sourceStopped_setTrack_other _ _ _ h, delivers]

theorem holdoverLeft_setTrack : holdoverLeft (setTrack src k s) = holdoverLeft s := by
  rw [setTrack_eq]
  rfl

end

/-! ### Measurements -/

/-- ACQUIRING changes the state and the source alone. -/
theorem acquire_eq (src : Nat) (s : State) : ∃ r d c f,
    acquire src s = { s with record := r, dict := d, time := { s.time with changes := c, freq := f } } := by
  rw [acquire]
  split
  · exact ⟨_, _, _, _, rfl⟩
  · split
    · exact ⟨_, _, _, _, rfl⟩
    · exact setSource_eq _ _ _

theorem getO_acquire {k : Nat} (src : Nat) (s : State) (h1 : k ≠ oTickSourceState) (h2 : k ≠ oTickSourceActive) :
    getO (acquire src s) k = getO s k := by
  rw [acquire]
  split
  · rfl
  · split
    · rfl
    · exact getO_setSource_other _ _ _ h1 h2

/-- The error becomes TickPhaseErrorNs, and the rate of a PTP source is drawn. -/
def noteError (src : Nat) (err : Int) (s : State) : State :=
  let s := setO s oTickPhaseErrorNs (ofSigned 32 err)
  if src = 1 then { (draw s).2 with time := { (draw s).2.time with freq := (draw s).1 } } else s

theorem noteError_eq (src : Nat) (err : Int) (s : State) : ∃ r f, noteError src err s =
    { s with dict := (setO s oTickPhaseErrorNs (ofSigned 32 err)).dict, draws := r, time := { s.time with freq := f } } := by
  unfold noteError
  dsimp only
  split <;> exact ⟨_, _, rfl⟩

/-- A correction changes the servo, and raises TICK_SLIP where the error is beyond half a period. -/
theorem correct_eq (src : Nat) (err : Int) (s : State) : ∃ d r fl f sl st b,
    correct src err s = { s with
      dict := d, draws := r, faults := fl, time := { s.time with freq := f, slewLeft := sl, stepDue := st, slipBar := b } } ∧
    getO (correct src err s) oTickPhaseErrorNs = ofSigned 32 err ∧
    getO (correct src err s) oTickSourceActive = getO s oTickSourceActive := by
  obtain ⟨r, f, hn⟩ := noteError_eq src err s
  have hc : correct src err s =
      let near := err.natAbs ≤ getO s oTickLockThresholdNs
      let u := noteError src err s
      let g := gridNow u
      if u.time.firstAdmit then
        if 2 * err.natAbs * max g.d 1 > g.i * max g.d 1 + g.n then
          bump { raiseFault 0x0134 .none 0 none 0 u with
            time := { (raiseFault 0x0134 .none 0 none 0 u).time with slipBar := true } } oTickSlipCount
        else { u with time := { u.time with slewLeft := if near then 0 else err } }
      else { u with time := { u.time with stepDue := if near then none else some err } } := rfl
  have he (u : State) (h : u.dict.vals = (setO s oTickPhaseErrorNs (ofSigned 32 err)).dict.vals) :
      getO u oTickPhaseErrorNs = ofSigned 32 err ∧ getO u oTickSourceActive = getO s oTickSourceActive :=
    ⟨(getO_of_vals h _).trans (getO_setO_same _ _ _), (getO_of_vals h _).trans (getO_setO_other _ (by decide) _)⟩
  rw [hc]
  dsimp only
  rw [hn]
  split
  · split
    · rw [raiseFault_faults]
      exact ⟨_, _, _, _, _, _, _, rfl, (getO_bump_other _ (by decide)).trans (he _ rfl).1,
        (getO_bump_other _ (by decide)).trans (he _ rfl).2⟩
    · exact ⟨_, _, _, _, _, _, _, rfl, he _ rfl⟩
  · exact ⟨_, _, _, _, _, _, _, rfl, he _ rfl⟩

/-- A measured source's tracking record. -/
def measuredTrack (src : Nat) (err : Int) (s : State) : SourceTrack :=
  { track s src with
    good := if err.natAbs ≤ getO s oTickLockThresholdNs then (track s src).good + 1 else 0
    lastNs := s.time.now
    missed := 0
    seen := true }

theorem measure_eq (src : Nat) (err : Int) (s : State) : Machine.measure src err s =
    let u := acquire src (setTrack src (measuredTrack src err s) s)
    if getO u oTickSourceActive = src then correct src err u else u := rfl

/-- What a measurement leaves as it was, and what it does to its source's record and to the servo. -/
theorem measure_state (src : Nat) (e : Int) (s : State) : let t := Machine.measure src e s
    track t src = measuredTrack src e s ∧
    (getO t oTickSourceActive = src → getO t oTickPhaseErrorNs = ofSigned 32 e) ∧
    (getO t oTickSourceActive ≠ src → t.time.slewLeft = s.time.slewLeft ∧ t.time.stepDue = s.time.stepDue ∧
      getO t oTickPhaseErrorNs = getO s oTickPhaseErrorNs) ∧
    t.time.tickNo = s.time.tickNo ∧ t.time.tickStart = s.time.tickStart ∧
    t.time.tickLen = s.time.tickLen ∧ t.sched = s.sched ∧ t.dram = s.dram := by
  dsimp only
  have hk := track_setTrack_same src (measuredTrack src e s) s
  have hp : getO (acquire src (setTrack src (measuredTrack src e s) s)) oTickPhaseErrorNs = getO s oTickPhaseErrorNs := by
    rw [getO_acquire _ _ (by decide) (by decide), getO_setTrack]
  obtain ⟨r, d, c, f, ha⟩ := acquire_eq src (setTrack src (measuredTrack src e s) s)
  rw [measure_eq]
  dsimp only
  split
  · next hs =>
    obtain ⟨d', r', fl, f', sl, st, b, hc, he, hact⟩ :=
      correct_eq src e (acquire src (setTrack src (measuredTrack src e s) s))
    refine ⟨?_, fun _ => he, fun hn => absurd (hact.trans hs) hn, ?_⟩
    · rw [hc, ha]
      exact hk
    · rw [hc, ha, setTrack_eq]
      exact ⟨rfl, rfl, rfl, rfl, rfl⟩
  · next hs =>
    refine ⟨by rw [ha]; exact hk, fun h => absurd h hs, fun _ => ⟨?_, ?_, hp⟩, ?_⟩
    · rw [ha, setTrack_eq]
    · rw [ha, setTrack_eq]
    · rw [ha, setTrack_eq]
      exact ⟨rfl, rfl, rfl, rfl, rfl⟩

/-- Settles O13: an edge, a missed boundary, a Sync and a delay follow the branch of their case. -/
theorem tickSourcesAreMeasured : Obligations.TickSourcesAreMeasured := by
  refine ⟨fun s pin t hp hf he hw => congrArg Host.Outcome.next ?_, fun s pin t hp hf he hw => congrArg Host.Outcome.next ?_,
    fun s hp => congrArg Host.Outcome.next ?_, fun s port master off p t hp he => congrArg Host.Outcome.next (if_pos ⟨hp, he⟩),
    fun s port master off p t hp he => congrArg Host.Outcome.next (if_pos ⟨hp, he⟩),
    fun s port master off p t rx hp he hr => congrArg Host.Outcome.next ?_, fun s port master off p rx => ?_,
    fun s src e hs => ?_, fun s port m hp => congrArg Host.Outcome.next (if_pos hp),
    fun s port m hp => congrArg Host.Outcome.next (if_pos hp)⟩
  · exact (if_pos ⟨hp, hf, he⟩).trans (if_pos hw)
  · exact (if_pos ⟨hp, hf, he⟩).trans (if_neg (not_le.2 hw))
  · obtain ⟨p, hp, hf⟩ := hp
    have ha : (List.range 4).any (fun p => syncFunction s p == 1) = true :=
      List.any_eq_true.2 ⟨p, List.mem_range.2 hp, by simpa using hf⟩
    exact if_pos ha
  · have hr' : (ptpPort (atT t s) port).waits = some rx := hr
    have hc : port < 2 ∧ sourceEnabled (atT t s) 1 = true := ⟨hp, he⟩
    simp only [doPtpSync, hc, and_self, if_true, hr']
  · rw [ptpMeasure]
    dsimp only
    generalize hu : ptpMod port (fun _ => { master := master, lastNs := s.time.now, heard := true, waits := none }) s = u
    have hd : s.time.peerDelay = u.time.peerDelay := by rw [← hu]; rfl
    rw [hd]
    by_cases h : bestPort u = port
    · subst h
      exact (if_pos rfl).trans (if_pos rfl).symm
    · exact (if_neg h).trans (if_neg h).symm
  · obtain ⟨hk, h1, h2, h3⟩ := measure_state src e s
    dsimp only
    rw [hk]
    exact ⟨rfl, rfl, rfl, rfl, h1, h2, h3⟩

/-! ### LOCKED, HOLDOVER and FREE -/

/-- A source's lock: its record is locked, holdover ends, and the first lock to PTP places device time. -/
theorem doSourceLocked_eq {src t : Nat} {s : State} (hs : src = 1 ∨ src = 2) (hg : 16 ≤ (track s src).good)
    (hl : (track s src).locked = false) : ∃ u, (∀ k, getO u k = getO s k) ∧ track u src = { track s src with locked := true } ∧
      u.time.holdoverFrom = none ∧ u.time.tickNo = s.time.tickNo ∧ u.sched = s.sched ∧
      doSourceLocked src t s = if getO s oTickSourceState = 2 then
        if preferred src (getO s oTickSourceActive) then { u with time := { u.time with switchDue := some src } } else u
        else setSource 2 src u := by
  have hk : track (atT t s) src = track s src := rfl
  have hrun : doSourceLocked src t s =
      let v := { setTrack src { track s src with locked := true } (atT t s) with
        time := { (setTrack src { track s src with locked := true } (atT t s)).time with holdoverFrom := none } }
      let u := if src = 1 ∧ ¬ v.time.ptpPlaced then
        { v with time := { v.time with ptpPlaced := true, ptpStepDue := !v.time.firstAdmit } } else v
      if getO u oTickSourceState = 2 then
        if preferred src (getO u oTickSourceActive) then { u with time := { u.time with switchDue := some src } } else u
        else setSource 2 src u := if_pos ⟨hs, hg, by rw [hk, hl]; decide⟩
  have hv : track (setTrack src { track s src with locked := true } (atT t s)) src = { track s src with locked := true } :=
    track_setTrack_same _ _ _
  have hn : (setTrack src { track s src with locked := true } (atT t s)).time.tickNo = s.time.tickNo ∧
      (setTrack src { track s src with locked := true } (atT t s)).sched = s.sched := by
    rw [setTrack_eq]
    exact ⟨rfl, rfl⟩
  have ho (k : Nat) : getO (setTrack src { track s src with locked := true } (atT t s)) k = getO s k := getO_setTrack _ _ _ _
  rw [hrun]
  generalize setTrack src { track s src with locked := true } (atT t s) = v at hv hn ho ⊢
  obtain ⟨hn, hsched⟩ := hn
  dsimp only
  split
  · exact ⟨{ v with time := { v.time with holdoverFrom := none, ptpPlaced := true, ptpStepDue := !v.time.firstAdmit } },
      ho, hv, rfl, hn, hsched, by rw [← ho oTickSourceState, ← ho oTickSourceActive]; rfl⟩
  · exact ⟨{ v with time := { v.time with holdoverFrom := none } }, ho, hv, rfl, hn, hsched,
      by rw [← ho oTickSourceState, ← ho oTickSourceActive]; rfl⟩

/-- A lost source's record is cleared, and the lower source, the other one, HOLDOVER or FREE follows. -/
theorem doSourceLoss_eq {t : Nat} {s : State} (hst : getO s oTickSourceState = 1 ∨ getO s oTickSourceState = 2)
    (hl : sourceLost (atT t s) = true) :
    let act := getO s oTickSourceActive
    let u := setTrack act { track s act with locked := false, good := 0, seen := false } (atT t s)
    doSourceLoss t s = if getO s oTickSourceState = 2 then
        if act = 1 ∧ sourceLocked u 2 then setSource 2 2 u
        else setSource 3 0 { u with time := { u.time with holdoverFrom := some u.time.now } }
      else if delivers u (3 - act) then setSource 1 (3 - act) u
      else setSource (if holdoverLeft u then 3 else 0) 0 u := if_pos ⟨hst, hl⟩

/-- Settles O14: each event of a source moves its state as R31 says. -/
theorem tickSourceStates : Obligations.TickSourceStates := by
  refine ⟨fun s src t hs hg hl hst => ?_, fun s t hst hact hg hl => ?_, fun s t hst hlost hact hlk hm => ?_,
    fun s t hst hlost h => ?_, fun s t hst hlost => ?_, fun s t h hst hh hle => ?_⟩
  · obtain ⟨u, ho, hk, hh, hn, hsch, he⟩ := doSourceLocked_eq (t := t) hs hg hl
    refine ⟨_, congrArg Host.Outcome.next (he.trans (if_neg hst)), getO_setSource_state _ _ _, getO_setSource_active _ _ _,
      by rw [track_setSource, hk], ?_⟩
    obtain ⟨r, d, c, f, hset⟩ := setSource_eq 2 src u
    rw [hset]
    exact ⟨hh, hn, hsch⟩
  · obtain ⟨u, ho, hk, hh, hn, hsch, he⟩ := doSourceLocked_eq (src := 1) (t := t) (.inl rfl) hg hl
    have hp : preferred 1 (getO s oTickSourceActive) = true := by rw [hact]; rfl
    refine ⟨_, congrArg Host.Outcome.next ((he.trans (if_pos hst)).trans (if_pos hp)), rfl, ?_, (ho _).trans hact⟩
    exact congrArg SourceTrack.locked hk
  · have hl : sourceLocked (setTrack 1 { track s 1 with locked := false, good := 0, seen := false } (atT t s)) 2 = true := by
      rw [sourceLocked_setTrack_other _ _ _ (by decide)]
      show (s.time.sync.locked && !decide (3 ≤ s.time.sync.missed)) = true
      simpa [hlk] using hm
    have he := doSourceLoss_eq (.inr hst) hlost
    rw [hact] at he
    refine ⟨_, congrArg Host.Outcome.next ((he.trans (if_pos hst)).trans (if_pos ⟨rfl, hl⟩)), getO_setSource_state _ _ _, getO_setSource_active _ _ _, ?_⟩
    obtain ⟨r, d, c, f, hset⟩ :=
      setSource_eq 2 2 (setTrack 1 { track s 1 with locked := false, good := 0, seen := false } (atT t s))
    rw [hset]
    rfl
  · have hn : ¬ (getO s oTickSourceActive = 1 ∧ sourceLocked (setTrack (getO s oTickSourceActive)
        { track s (getO s oTickSourceActive) with locked := false, good := 0, seen := false } (atT t s)) 2 = true) := by
      rintro ⟨h1, h2⟩
      rw [h1, sourceLocked_setTrack_other _ _ _ (by decide)] at h2
      have h2 : (s.time.sync.locked && !decide (3 ≤ s.time.sync.missed)) = true := h2
      simp only [Bool.and_eq_true, Bool.not_eq_true', decide_eq_false_iff_not] at h2
      rcases h with h | h | h
      · omega
      · simp [h] at h2
      · exact h2.2 h
    have he := (doSourceLoss_eq (.inr hst) hlost).trans (if_pos hst)
    refine ⟨_, congrArg Host.Outcome.next (he.trans (if_neg hn)), getO_setSource_state _ _ _, getO_setSource_active _ _ _, ?_⟩
    rw [setTrack_eq]
    obtain ⟨r, d, c, f, hset⟩ := setSource_eq 3 0 _
    rw [hset]
    rfl
  · have hact : getO s oTickSourceActive = 1 ∨ getO s oTickSourceActive = 2 := by
      have hb : ((getO s oTickSourceActive == 1 || getO s oTickSourceActive == 2) &&
        sourceStopped (atT t s) (getO s oTickSourceActive)) = true := hlost
      simp only [Bool.and_eq_true, Bool.or_eq_true, beq_iff_eq] at hb
      exact hb.1
    have ho : (getO s oTickSourceActive = 1) ≠ (3 - getO s oTickSourceActive = 1) := by
      rcases hact with h | h <;> rw [h] <;> decide
    have he := (doSourceLoss_eq (.inl hst) hlost).trans (if_neg (by rw [hst]; decide))
    dsimp only at he
    rw [delivers_setTrack_other _ _ _ ho, holdoverLeft_setTrack] at he
    refine ⟨_, congrArg Host.Outcome.next he, fun hd => ?_, fun hd => ?_⟩
    · rw [if_pos hd]
      exact ⟨getO_setSource_state _ _ _, getO_setSource_active _ _ _⟩
    · rw [if_neg (by simp [hd])]
      exact ⟨getO_setSource_state _ _ _, getO_setSource_active _ _ _⟩
  · have he : doHoldoverExpired t s =
        setSource 0 0 { atT t s with time := { (atT t s).time with holdoverFrom := none } } := by
      have hh' : (atT t s).time.holdoverFrom = some h := hh
      simp only [doHoldoverExpired, hh']
      exact if_pos ⟨hst, hle⟩
    refine ⟨_, congrArg Host.Outcome.next he, getO_setSource_state _ _ _, getO_setSource_active _ _ _, ?_⟩
    obtain ⟨r, d, c, f, hset⟩ := setSource_eq 0 0 { atT t s with time := { (atT t s).time with holdoverFrom := none } }
    rw [hset]

end Sys2Proof.Machine


/-! ## The marks of a tick (R34, R36, R44, R50) -/

namespace Sys2Proof.Machine

open Sys2Proof

theorem sealRecord_sealed (s : State) : (sealRecord s).record.sealedNow = true := by
  rw [sealRecord]
  split
  · next h => exact h
  · split <;> rfl

/-- The part at the late mark, before the queues are walked. -/
def lateState (s : State) : State :=
  { atT (lateMark s) s with time := { (atT (lateMark s) s).time with phase := .late } }

/-- The late mark's walk leaves the tick in progress. -/
theorem lateWalks_kept (l : List Nat) (s : State) : Kept true s (l.foldl (fun s g => lateWalk g s) s) :=
  Kept.fold (fun _ _ h => kept_lateWalk _ _ h) (Kept.refl true s)

/-- What the check mark fixes, before the record is sealed: the tokens' checks, the commit set and its entries, the carries. -/
theorem checkMark_kept (f : State) :
    let u := if alive f then f.sched.reqs.foldl (fun s e => checkTokens e.1 e.2 s) f else f
    let set := if alive u then formSet u else []
    let v := lastFlag (carryAll (commitEntries set { u with sched := { u.sched with commitSet := set } }))
    Kept true f (sendMirror (sealRecord v)) := by
  intro u set v
  have hu : Kept true f u := Kept.ite (Kept.fold (fun _ _ h => kept_checkTokens _ _ _ h) (Kept.refl true f)) (Kept.refl true f)
  clear_value u
  exact kept_sendMirror _ (kept_sealRecord _ (kept_lastFlag _ (kept_carryAll _ (kept_commitEntries _ _ (Kept.mk' hu)))))

/-- Settles O16: each mark acts in the phase before it, and moves the phase on. -/
theorem marksCloseTheirWindows : Obligations.MarksCloseTheirWindows := by
  refine ⟨fun s hp hn => ?_, fun s hp => ?_, fun s hp hc => ?_, fun s hp hc => congrArg Host.Outcome.next ?_⟩
  · have he : doAdmitMark s = { admitTick (atT (getO s oTickAdmitNs) s) with
        time := { (admitTick (atT (getO s oTickAdmitNs) s)).time with phase := .planned } } := if_neg (by simp [hp, hn])
    refine ⟨_, congrArg Host.Outcome.next he, rfl, ?_⟩
    intro u hu
    have ha : admitTick (atT (getO s oTickAdmitNs) s) = u := if_pos (by simpa using hu)
    rw [ha]
  · have he : doLateMark s = if ¬ alive (lateState s) then lateState s
        else (List.range 64).foldl (fun s g => lateWalk g s) (lateState s) := if_neg (not_not.2 hp)
    refine ⟨_, congrArg Host.Outcome.next he, ?_⟩
    have ha : alive (lateState s) = alive s := rfl
    rw [ha]
    split
    · exact ⟨rfl, rfl, fun _ => ⟨rfl, rfl⟩⟩
    · next hl =>
      have hk := (lateWalks_kept (List.range 64) (lateState s)).tick rfl
      exact ⟨hk.phase, hk.tickNo, fun h => absurd h (by simpa using hl)⟩
  · intro a f u set v
    have he : doCheckMark s = sendMirror (sealRecord v) := (if_neg (not_not.2 hp)).trans (if_neg hc)
    have hf : Kept true { a with time := { a.time with phase := .sealed } } f := kept_flagDistress _ (Kept.refl _ _)
    have hk : SameTick { a with time := { a.time with phase := .sealed } } (sendMirror (sealRecord v)) :=
      (hf.trans (checkMark_kept f)).tick rfl
    clear_value v
    exact ⟨sealRecord_sealed _, congrArg Host.Outcome.next he, hk.phase, hk.tickNo⟩
  · exact (if_neg (not_not.2 hp)).trans (if_pos hc)

end Sys2Proof.Machine


/-! ## Rings, budgets and the mirror's answers (R50, R345, R350, R358, R371, R428 to R430) -/

namespace Sys2Proof.Machine

open Sys2Proof

theorem sfind_smapAll {α : Type} (m : SMap α) (f : Nat → α → α) (j : Nat) :
    sfind (smapAll m f) j = (sfind m j).map (f j) := by
  induction m with
  | nil => rfl
  | cons e m ih =>
    by_cases h : e.1 = j
    · subst h
      simp [smapAll, sfind]
    · simpa [smapAll, sfind, h] using ih

@[simp] theorem ringGet_ringMod_same (t r : Nat) (f : Ring → Ring) (s : State) :
    ringGet (ringMod t r f s) t r = f (ringGet s t r) := sget_sset_same _ _ _ _

theorem ringGet_ringMod_other {t r t' r' : Nat} (h : ringKey t' r' ≠ ringKey t r) (f : Ring → Ring) (s : State) :
    ringGet (ringMod t r f s) t' r' = ringGet s t' r' := sget_sset_other _ _ _ h _

/-- A fault against a ring leaves its index. -/
theorem ringFault_consumer (t r : Nat) (s : State) : (ringGet (ringFault t r s) t r).consumer = (ringGet s t r).consumer := by
  have h := congrArg Ring.consumer (ringGet_ringMod_same t r
    (fun x => { x with faults := (x.faults.filter (fun y => s.time.tickNo < y + 1024)) ++ [s.time.tickNo] }) s)
  exact h

theorem takeRefused_consumer (t r ix : Nat) (d : Bytes) (e : Nat) (s : State) :
    (ringGet (takeRefused t r ix d e s) t r).consumer = ((ringGet s t r).consumer + 1) % 2 ^ 32 := by
  rw [takeRefused]
  dsimp only
  rw [ringGet_ringMod_same]
  split
  · exact congrArg (fun n => (n + 1) % 2 ^ 32) (ringFault_consumer t r _)
  · rfl

/-- The head of a ring is taken in the admission window. -/
theorem doTake_eq {kind t r ix : Nat} {d : Bytes} {s : State} (hp : s.time.phase = .window) (ha : admitAllowed s = true)
    (ht : t < 1024) (hr : r < 4) (hk : dKind d = kind) (hh : ringHas (readRings s) t r = true)
    (hc : (ringGet (readRings s) t r).consumer = ix) (hb : (ringGet (readRings s) t r).blocked = false)
    (hn : tokenBarred (readRings s) t = false) :
    doTake kind t r ix d s = publishConsumer t r (takeHead none t r ix d (readRings s)).2.2 :=
  (if_neg (by simp [hp, ha, ht, hr, hk])).trans (if_neg (by simp [hh, hc, hb, hn]))

theorem takeHead_refuse {t r ix e : Nat} {d : Bytes} {s : State} (hc : cplRoom s t = true) (hj : judge s t r ix d = .refuse e) :
    (takeHead none t r ix d s).2.2 = takeRefused t r ix d e s := by
  rw [takeHead, if_neg (by simp [hc]), hj]

theorem takeHead_pass {t r ix pages scratch : Nat} {q : Request} {busy : Bool} {d : Bytes} {s : State}
    (hc : cplRoom s t = true) (hj : judge s t r ix d = .pass q pages scratch busy) :
    let p := planOf s q s.sched.load
    noWait s q pages scratch busy (startSteps s q p).length p = true →
    (if isOversize s q then clustersIdle s p
      else planFits s s.sched.load s.sched.staged s.sched.sieveLoad p (planChain s q p)) = true →
    (takeHead none t r ix d s).2.2 = takeAdmitted q pages scratch p (planChain s q p) (isOversize s q) s := by
  intro p hw hf
  rw [takeHead, if_neg (by simp [hc]), hj]
  dsimp only
  rw [if_neg Bool.false_ne_true, if_pos ⟨hw, hf⟩]

/-- The commands that take an entry of each kind. -/
theorem exec_take {k t r ix : Nat} {d : Bytes} {c : Instr} (s : State)
    (h : (k, c) ∈ [(0, Instr.run t r ix d), (1, .contextCreate t r ix d), (2, .contextDelete t r ix d),
      (3, .compact t r ix d), (4, .freeze t r ix d)]) : exec c s = .next (doTake k t r ix d s) := by
  simp only [List.mem_cons, Prod.mk.injEq, List.not_mem_nil, or_false] at h
  rcases h with ⟨rfl, rfl⟩ | ⟨rfl, rfl⟩ | ⟨rfl, rfl⟩ | ⟨rfl, rfl⟩ | ⟨rfl, rfl⟩ <;> rfl

/-- A balance at the start of a budget window: what was overdrawn is kept. -/
def refilled (s : State) (n : Nat) (t : TenantSt) : TenantSt :=
  { t with tokens := match t.tokens with
      | some b => if b < 0 then some (b + getO s (tkey oTenantTokenBudget n)) else none
      | none => none }

theorem tokensLeft_refill (s : State) (n : Nat) : tokensLeft { s with sched := { s.sched with
      windowStart := windowOf s
      windowTicks := getO s oBudgetWindowTicks
      tenants := s.sched.tenants.map (fun e => (e.1, { e.2 with tokens := match e.2.tokens with
        | some b => if b < 0 then some (b + getO s (tkey oTenantTokenBudget e.1)) else none
        | none => none })) } } n = (getO s (tkey oTenantTokenBudget n) : Int) +
      (if (tenantGet s n).tokens.getD 0 < 0 then (tenantGet s n).tokens.getD 0 else 0) := by
  have hg : sget {} (smapAll s.sched.tenants (refilled s)) n = refilled s n (tenantGet s n) := by
    rw [sget, sfind_smapAll, tenantGet, sget]
    cases sfind s.sched.tenants n <;> rfl
  have hv : (refilled s n (tenantGet s n)).tokens.getD (getO s (tkey oTenantTokenBudget n)) =
      (getO s (tkey oTenantTokenBudget n) : Int) +
        (if (tenantGet s n).tokens.getD 0 < 0 then (tenantGet s n).tokens.getD 0 else 0) := by
    unfold refilled
    cases (tenantGet s n).tokens with
    | none => simp
    | some b => by_cases hb : b < 0 <;> simp [hb, add_comm]
  rw [← hv, ← hg]
  rfl

/-- Settles O18: the head of a ring goes as its check or its plan says, and the budget window refills balances. -/
theorem ringEntriesAreTaken : Obligations.RingEntriesAreTaken := by
  refine ⟨fun s k c t r ix d e h hp ha ht hr hk => ?_, fun s k c t r ix d q pages scratch busy h hp ha ht hr hk => ?_,
    fun s t r ix d e => takeRefused_consumer t r ix d e s, fun s t r ht hr hl hs => ?_, fun s h => ?_⟩
  · intro u hh hc hb hn hroom hj
    rw [exec_take s h, doTake_eq hp ha ht hr hk hh hc hb hn, takeHead_refuse hroom hj]
  · intro u hh hc hb hn hroom hj p hw hf
    rw [exec_take s h, doTake_eq hp ha ht hr hk hh hc hb hn, takeHead_pass hroom hj hw hf]
  · refine ⟨suspendRing t r 3 s, congrArg Host.Outcome.next (if_pos ⟨ht, hr, hl, by simp [hs]⟩), ?_, ?_, ?_, rfl, rfl, ?_⟩
    · exact congrArg Ring.suspended (ringGet_ringMod_same t r _ s)
    · exact congrArg Ring.cause (ringGet_ringMod_same t r _ s)
    · exact getO_bump_same _ _
    · intro t' r' hne ht' hr'
      refine ringGet_ringMod_other (fun hkey => hne ?_) _ s
      simp only [ringKey] at hkey
      rw [Prod.mk.injEq]
      omega
  · have hn : ¬ (windowOf s = s.sched.windowStart ∧ getO s oBudgetWindowTicks = s.sched.windowTicks) := by
      rintro ⟨h1, h2⟩
      exact h.elim (fun k => k h1) fun k => k h2
    refine ⟨_, congrArg Host.Outcome.next (if_neg hn), rfl, fun n => ?_, rfl, rfl, rfl⟩
    exact tokensLeft_refill s n

/-- Settles O19: an acknowledgement, a lost buddy and its snapshot release what is held, in order. -/
theorem mirrorReleasesHeldSets : Obligations.MirrorReleasesHeldSets := by
  refine ⟨fun s n hw => ?_, fun s h h2 rest hh hs => ?_, fun s c hs hc hb => congrArg Host.Outcome.next (if_neg ?_)⟩
  · obtain ⟨w, hm, hn⟩ := hw
    have he : doMirrorAck n s = mirrorAcked n s := if_pos (List.any_eq_true.2 ⟨w, hm, by simpa using hn⟩)
    refine ⟨fun hs => congrArg Host.Outcome.next (he.trans (if_neg ?_)), fun hs => congrArg Host.Outcome.next (he.trans (if_pos ?_))⟩
    · simp [hs]
    · simpa [Option.isSome_iff_ne_none] using hs
  · refine congrArg Host.Outcome.next ?_
    simp only [doBuddyLost, hh, hs]
    rfl
  · rintro (h | h | h)
    · rw [Option.isNone_iff_eq_none.1 h] at hs
      exact absurd hs (by decide)
    · exact hc h
    · exact h hb

end Sys2Proof.Machine


/-! ## Units issue, drain, pause, resume and fault (R38, R97, R111, R124, R193, R341, R376 to R379, R384, R414) -/

namespace Sys2Proof.Machine

open Sys2Proof

/-- A Griddle whose tile does not wait for its drain issues. -/
theorem doUnitIssue_eq {g : Nat} {s : State} (ha : alive s = true) (hg : g < 64) (hp : (physGriddle s g).isSome = true)
    (ht : ∀ t, tileGet s g = some t → t.waitsDrain = false) : doUnitIssue g s = doUnitIssue.go g s := by
  rw [doUnitIssue, if_neg (by simp [ha, hg, Option.isSome_iff_ne_none.1 hp])]
  cases h : tileGet s g with
  | none => rfl
  | some t => exact if_neg (by simp [ht t h])

theorem startUnit_eq (i : Nat) (r : Request) (u : UnitSt) (s : State) : startUnit i r u s = match headerFault s r u with
    | none => nextPass i u.step u.unit (loadTables u.griddle i r u (dispatch i r u s))
    | some f => useFault f u.griddle i u.step s := by
  unfold startUnit
  cases headerFault s r u <;> rfl

/-- Settles O20: each command follows the branch of its case. -/
theorem unitsIssueDrainAndPause : Obligations.UnitsIssueDrainAndPause := by
  refine ⟨fun s g i r u ha hg hp ht hu => ⟨fun hr hq hpr => congrArg Host.Outcome.next ?_, fun hr hq => congrArg Host.Outcome.next ?_⟩,
    fun s g t r u n ht hw hl ha hr hc hu => congrArg (Host.Outcome.next ∘ loadWhisk g) ?_, fun s g t r u => ?_,
    fun s g t r u hl ha ho => congrArg Host.Outcome.next ?_, fun s i k r hr hc hk hkind hcomp hfin hdeps hin hsel ha hwait hres => ?_,
    fun s g n i r u hr ha hc => congrArg Host.Outcome.next ?_,
    fun s g n i r u ha hr ht hp hq hph => congrArg Host.Outcome.next ?_,
    fun s g n i r u j q v hr ha hc hl hq => congrArg Host.Outcome.next ?_, fun s ev r hr ha href hfin hlo hcode => ?_⟩
  · rw [doUnitIssue_eq ha hg hp ht]
    simp only [doUnitIssue.go, hr, nextPass, hq, hu, hpr, if_true]
  · rw [doUnitIssue_eq ha hg hp ht]
    simp only [doUnitIssue.go, hr, hq]
    exact startUnit_eq i r u s
  · have hr' : reqGet (atT n s) t.request = some r := hr
    simp only [doPassDrain, ht, hw, hl, ha, hr', hc, hu]
    rfl
  · intro d h
    exact if_pos h
  · simp only [doFinalDrain, hl, ha, ho, not_true_eq_false, if_false]
    split <;> simp only [*]
  · intro rc d t o toks ht ho hs
    refine congrArg Host.Outcome.next ?_
    have hn : ¬ (isCompact r ∨ r.steps.length ≤ k ∨ (stepOf (reqRecipe s r) k).kind ≠ 3 ∨ (stepGet r k).complete ∨ r.finished ∨
        ¬ depsDone r (stepOf (reqRecipe s r) k) ∨ ¬ alive s ∨ ¬ inputsDone r (reqRecipe s r) k (stepOf (reqRecipe s r) k) ∨
        ¬ selectAllowed s r ∨ ¬ r.waitSector.isEmpty ∨ (tenantGet s r.tenant).resetting) := by
      simp [hc, hk, hkind, hcomp, hfin, hdeps, ha, hin, hsel, hwait, hres]
    simp only [doTokenSelect, hr]
    rw [if_neg hn]
    simp only [show tensorAt (reqRecipe s r) (stepOf (reqRecipe s r) k).row = some t from ht,
      show tensorAt (reqRecipe s r) (stepOf (reqRecipe s r) k).out = some o from ho,
      show selectRows s r (reqRecipe s r) (stepOf (reqRecipe s r) k) t = .ok toks from hs]
    rfl
  · simp only [doPause, hr]
    exact if_neg (by simp [ha, hc])
  · simp only [doResume, hq]
    rw [if_neg (by simp [ha, hr, ht, Option.isSome_iff_ne_none.1 hp])]
    exact if_pos ⟨trivial, trivial, trivial, hph⟩
  · simp only [doLiveReadyYield, hr, hq]
    exact if_neg (by simp [ha, hc, hl])
  · intro ingot v u
    refine congrArg Host.Outcome.next ?_
    have hn : ¬ (0x0110 < ev.code ∧ ev.code ≠ 0x0111 ∧ ev.code ≠ 0x0112 ∨ ev.code < 0x0101 ∨ ¬ alive s ∨
        (0x010C < ev.code ∧ ev.code < 0x0110) ∨ r.refused ∨ (r.finished ∧ r.status ≠ 0)) := by
      simp only [ha, href, not_true_eq_false, Bool.false_eq_true, false_or]
      rintro (h | h | h | ⟨h1, h2⟩)
      · omega
      · omega
      · omega
      · exact h2 (hfin h1)
    simp only [doStepFault, hr]
    exact if_neg hn

end Sys2Proof.Machine


/-! ## Match tables, gates, make-up blocks and Sieves (R80, R143 to R145, R153, R156, R288 to R290) -/

namespace Sys2Proof.Machine

open Sys2Proof

/-! ### Gates -/

theorem gateCount_counts (ref p a m w : Nat) (s : State) : let t := gateCount ref p a m w s
    getO t oGatePredictedBlockCount = (getO s oGatePredictedBlockCount + p) % 2 ^ 64 ∧
    getO t oGateActiveBlockCount = (getO s oGateActiveBlockCount + a) % 2 ^ 64 ∧
    getO t oGateWastedBlockCount = (getO s oGateWastedBlockCount + w) % 2 ^ 64 ∧
    getO t oGateMakeUpBlockCount = (getO s oGateMakeUpBlockCount + m) % 2 ^ 64 := by
  intro t
  have ht (k : Nat) : getO t k = getO (addO (addO (addO (addO s oGatePredictedBlockCount p) oGateActiveBlockCount a)
    oGateWastedBlockCount w) oGateMakeUpBlockCount m) k := rfl
  refine ⟨?_, ?_, ?_, ?_⟩
  · rw [ht, getO_addO_other _ (by decide), getO_addO_other _ (by decide), getO_addO_other _ (by decide), getO_addO_same]
  · rw [ht, getO_addO_other _ (by decide), getO_addO_other _ (by decide), getO_addO_same, getO_addO_other _ (by decide)]
  · rw [ht, getO_addO_other _ (by decide), getO_addO_same, getO_addO_other _ (by decide), getO_addO_other _ (by decide)]
  · rw [ht, getO_addO_same, getO_addO_other _ (by decide), getO_addO_other _ (by decide), getO_addO_other _ (by decide)]

theorem gateCount_gate (ref p a m w : Nat) (s : State) : sget {} (gateCount ref p a m w s).sched.gates ref =
    { sget ({} : GateSt) s.sched.gates ref with
      makeUp := (sget ({} : GateSt) s.sched.gates ref).makeUp + m
      active := (sget ({} : GateSt) s.sched.gates ref).active + a } := sget_sset_same _ _ _ _

/-! ### Sieves -/

@[simp] theorem sieveGet_sieveMod_same (n : Nat) (f : SieveSt → SieveSt) (s : State) :
    sieveGet (sieveMod n f s) n = f (sieveGet s n) := sget_sset_same _ _ _ _

theorem sieveGet_sieveMod_other {n m : Nat} (h : m ≠ n) (f : SieveSt → SieveSt) (s : State) :
    sieveGet (sieveMod n f s) m = sieveGet s m := sget_sset_other _ _ _ h _

/-- A decoded record joins its Sieve's queue, which merges its oldest at 512. -/
def decodeInto (rec' : Nat × Nat × Nat × List (Nat × Bool)) (x : SieveSt) : SieveSt :=
  let x := if 512 ≤ x.queue.length then mergeOldest x else x
  { x with
    queue := x.queue ++ [rec']
    bankA := bankRef rec'.1 rec'.2.1 true x.bankA
    bankB := bankRef rec'.1 rec'.2.1 true x.bankB }

theorem mergeOldest_queue (x : SieveSt) : (mergeOldest x).queue = x.queue.tail := by
  unfold mergeOldest
  split
  · next h => rw [h]; rfl
  · next h => rw [h]; rfl

theorem decodeInto_queue (q : Nat × Nat × Nat × List (Nat × Bool)) (x : SieveSt) :
    (decodeInto q x).queue.getLast? = some q ∧ (x.queue.length ≤ 512 → (decodeInto q x).queue.length ≤ 512) := by
  unfold decodeInto
  dsimp only
  refine ⟨List.getLast?_concat, fun h => ?_⟩
  rw [List.length_append, List.length_singleton]
  split
  · rw [mergeOldest_queue, List.length_tail]
    omega
  · omega

/-- Whether no block uses a bank. -/
def bankFree (b : Option SieveBank) : Bool := match b with
  | none => true
  | some k => k.refs == 0

theorem bankFree_iff {b : Option SieveBank} : bankFree b = true ↔ ∀ k, b = some k → k.refs = 0 := by
  cases b with
  | none => simp [bankFree]
  | some k => simp [bankFree]

/-- A table goes into the first bank that no block uses, or its Sieve waits. -/
theorem doSieveTable_eq {n v j at_ : Nat} {s : State} {seg : Bytes} (hs : sfind (varGet s v).segments j = some seg)
    (hn : n < 36) (hok : segTableOk seg = true) : doSieveTable n v j at_ s =
      if bankFree (sieveGet s n).bankA then
        sieveMod n (fun k => { k with bankA := some ⟨v, j, byteAt seg 4, headerLens seg, 0⟩, waitSince := none })
          (tableWait n (atT at_ s))
      else if bankFree (sieveGet s n).bankB then
        sieveMod n (fun k => { k with bankB := some ⟨v, j, byteAt seg 4, headerLens seg, 0⟩, waitSince := none })
          (tableWait n (atT at_ s))
      else tableWaits n (tableWait n (atT at_ s)) := by
  simp only [doSieveTable, hs]
  exact (if_neg (not_le.2 hn)).trans (if_neg (by simp [hok]))

/-- A decoded record is counted, with its changes or as raw. -/
def countRecord (r : DbHeader × Bytes) (s : State) : State :=
  if r.1.mode = 2 then bump (bump s oSieveRecordCount) oSieveRawBypassCount
  else addO (bump s oSieveRecordCount) oSieveChangeCount r.1.changeCount

theorem countRecord_eq (r : DbHeader × Bytes) (s : State) :
    sieveGet (countRecord r s) = sieveGet s ∧ (countRecord r s).sched = s.sched ∧
      (countRecord r s).time = s.time ∧ (countRecord r s).dram = s.dram ∧
      getO (countRecord r s) oSieveRecordCount = (getO s oSieveRecordCount + 1) % 2 ^ 64 := by
  unfold countRecord
  split
  · refine ⟨rfl, rfl, rfl, rfl, ?_⟩
    rw [getO_bump_other _ (by decide), getO_bump_same]
  · refine ⟨rfl, rfl, rfl, rfl, ?_⟩
    rw [getO_addO_other _ (by decide), getO_bump_same]

/-- A record that its Sieve can decode, with its table in a bank where it needs one, is counted and queued. -/
theorem doSieveDecode_eq {n v b at_ : Nat} {s : State} {seg : Bytes} {p : Option Nat} {r : DbHeader × Bytes} {c : Nat} {new : List Int}
    (hrec : recordOf (varGet s v) b = .ok (some (seg, p, r)))
    (hc : castByRoot s (mRoot (varGet s v).manifest) = some c) (hn : n < 36)
    (hbank : r.1.mode = 1 → bankIs v (b / 8192) (byteAt seg 4) (sieveGet s n).bankA = true ∨
      bankIs v (b / 8192) (byteAt seg 4) (sieveGet s n).bankB = true)
    (hmerge : mergeRecord (headerLens seg) (byteAt seg 4) p r (baseTrits s c b) = .ok new) :
    doSieveDecode n v b at_ s =
      sieveMod n (decodeInto (v, b / 8192, b, dirsOf (baseTrits s c b) new)) (countRecord r s) := by
  have hw : ¬(r.1.mode = 1 ∧ ¬bankIs v (b / 8192) (byteAt seg 4) (sieveGet s n).bankA = true ∧
      ¬bankIs v (b / 8192) (byteAt seg 4) (sieveGet s n).bankB = true) := fun h =>
    (hbank h.1).elim h.2.1 h.2.2
  simp only [doSieveDecode, hrec, hc]
  rw [if_neg (not_le.2 hn), if_neg hw]
  simp only [hmerge]
  rfl

/-! ### Match tables -/

/-- The segment that the build takes has neither overflowed nor a bank. -/
theorem unbuilt_head {s : State} {g i k : Nat} {d : StepD} {u : UnitSt} {l : List SegPrice} {seg : Nat × Nat}
    {rest : List (Nat × Nat × Nat)} (h : unbuilt s g i d u l = (k, seg) :: rest) :
    s.engine.overflow.contains (segKey i u k) = false ∧
      (sget [] s.engine.banks g).find? (fun b => b.key == segKey i u k) = none := by
  have hm : (k, seg) ∈ unbuilt s g i d u l := h ▸ List.mem_cons_self
  obtain ⟨x, hx, he⟩ := List.mem_map.1 hm
  obtain ⟨rfl, -⟩ := Prod.mk.inj he
  have hp := (List.mem_filter.1 hx).2
  simp only [Bool.and_eq_true, Bool.not_eq_true'] at hp
  refine ⟨hp.1.2, List.find?_eq_none.2 fun b hb hk => ?_⟩
  exact Bool.noConfusion (hp.2.symm.trans (List.any_eq_true.2 ⟨b, hb, hk⟩))

/-- Settles O22: each command follows the branch of its case. -/
theorem sparseAndGatedWork : Obligations.SparseAndGatedWork := by
  refine ⟨fun v g at_ i r u l k seg rest e => ?_, fun s i k u r h hr hh ha => ?_, fun s ref p a m w => ?_,
    fun s i k u b r act un hr ha hu hb hp hm hf => ?_, fun s n v j seg at_ hs hn hok => ?_,
    fun s n v b seg p r c new at_ hrec hc hn hbank hmerge => ?_⟩
  · intro s hr hc hl hu he mine
    refine congrArg Host.Outcome.next ?_
    obtain ⟨ho, hf⟩ := unbuilt_head hu
    simp only [doMatchBuild, show runningOn (atT at_ v) g = some (i, r, u) from hr, hc, Bool.false_eq_true, if_false]
    simp only [show tileChoices (atT at_ v) r (reqRecipe (atT at_ v) r) (stepOf (reqRecipe (atT at_ v) r) u.step) u u.tile = .ok l
      from hl, show unbuilt (atT at_ v) g i (stepOf (reqRecipe (atT at_ v) r) u.step) u l = (k, seg) :: rest from hu,
      show passEnv (atT at_ v) r (reqRecipe (atT at_ v) r) (stepOf (reqRecipe (atT at_ v) r) u.step) u = .ok e from he,
      matchLanes, show (atT at_ v).engine.overflow.contains (segKey i u k) = false from ho,
      show (sget [] (atT at_ v).engine.banks g).find? (fun b => b.key == segKey i u k) = none from hf]
    generalize segmentTables _ _ _ _ _ _ _ _ = y
    rcases y with f | _ | t <;> rfl
  · intro st before new missed wasted
    refine congrArg Host.Outcome.next ?_
    simp only [doGateKnown, hr, hh]
    exact if_neg (by simp [ha])
  · obtain ⟨h1, h2, h3, h4⟩ := gateCount_counts ref p a m w s
    exact ⟨h1, h2, h3, h4, congrArg GateSt.makeUp (gateCount_gate ref p a m w s), congrArg GateSt.active (gateCount_gate ref p a m w s)⟩
  · intro rc d
    dsimp only [rc, d]
    refine congrArg Host.Outcome.next ?_
    simp only [doMakeUp, hr, ha, hu]
    refine (if_neg (by simp [hb, hp, hm, hf])).trans ?_
    cases makeUpTile s i r (reqRecipe s r) (stepOf (reqRecipe s r) k) un b with
    | error e => rfl
    | ok t => rfl
  · intro bank
    have ht := doSieveTable_eq (at_ := at_) hs hn hok
    refine ⟨doSieveTable n v j at_ s, rfl, fun m hm => ?_, fun hA => ?_, fun k hk hrefs => ⟨fun hB => ?_, fun q hq hqr => ?_⟩⟩
    · rw [ht]
      split
      · exact sieveGet_sieveMod_other hm _ _
      · split
        · exact sieveGet_sieveMod_other hm _ _
        · exact sieveGet_sieveMod_other hm _ _
    · rw [ht, if_pos (bankFree_iff.2 hA)]
      exact sieveGet_sieveMod_same _ _ _
    · rw [ht, if_neg fun h => hrefs (bankFree_iff.1 h k hk), if_pos (bankFree_iff.2 hB)]
      exact sieveGet_sieveMod_same _ _ _
    · rw [ht, if_neg fun h => hrefs (bankFree_iff.1 h k hk), if_neg fun h => hqr (bankFree_iff.1 h q hq)]
      exact sieveGet_sieveMod_same _ _ _
  · have ht := doSieveDecode_eq (at_ := at_) hrec hc hn hbank hmerge
    obtain ⟨hlast, hlen⟩ := decodeInto_queue (v, b / 8192, b, dirsOf (baseTrits s c b) new) (sieveGet s n)
    obtain ⟨hsv, hsc, hti, hdr, hct⟩ := countRecord_eq r s
    have hq : sieveGet (doSieveDecode n v b at_ s) n =
        decodeInto (v, b / 8192, b, dirsOf (baseTrits s c b) new) (sieveGet s n) := by
      rw [ht, sieveGet_sieveMod_same, hsv]
    refine ⟨doSieveDecode n v b at_ s, rfl, hq ▸ hlast, hq ▸ hlen, ?_, fun m hm => ?_, ?_, ?_, ?_⟩
    · rw [ht]
      exact hct
    · rw [ht, sieveGet_sieveMod_other hm, hsv]
    · rw [ht]
      exact hsc
    · rw [ht]
      exact hti
    · rw [ht]
      exact hdr

end Sys2Proof.Machine


/-! ## A step, and the part at reset (R44, R49, R413, R496) -/

namespace Sys2Proof.Machine

open Sys2Proof

theorem step_cons {s : State} {c : Instr} {rest : List Instr} (h : s.pending = c :: rest) :
    step s = exec c { s with pending := rest } := by
  unfold step
  rw [h]

theorem step_nil {s : State} (h : s.pending = []) : step s = .next s := by
  unfold step
  rw [h]

/-- Settles O49: the queue decides what a step runs. -/
theorem stepRunsFrontCommand : Obligations.StepRunsFrontCommand :=
  ⟨fun _ _ _ h => step_cons h, fun _ h => step_nil h⟩

/-- Settles O55: the reset state is the state of the defaults but for the images delivered. -/
theorem resetStateHolds : Obligations.ResetStateHolds :=
  ⟨rfl, ⟨List.Pairwise.nil, fun e he => absurd he List.not_mem_nil⟩, ⟨by decide, by decide, by decide, by decide⟩,
    rfl, rfl, rfl, fun _ => rfl, rfl, fun _ => rfl⟩

end Sys2Proof.Machine


/-! ## Hoppers and Tile Stores (R226, R233 to R244) -/

namespace Sys2Proof.Machine

open Sys2Proof

/-! ### Stores and their bursts -/

@[simp] theorem storeGet_storeMod_same (p : Nat) (f : TileStore → TileStore) (s : State) :
    storeGet (storeMod p f s) p = f (storeGet s p) := sget_sset_same _ _ _ _

theorem storeGet_storeMod_other {p q : Nat} (h : q ≠ p) (f : TileStore → TileStore) (s : State) :
    storeGet (storeMod p f s) q = storeGet s q := sget_sset_other _ _ _ h _

theorem storeGet_of_engine {s t : State} (h : t.engine = s.engine) : storeGet t = storeGet s := by
  unfold storeGet
  rw [h]

@[simp] theorem burstGet_burstPut_same (b : Nat) (d : Bytes) (t : TileStore) : burstGet (burstPut b d t) b = d :=
  sget_sset_same _ _ _ _

theorem burstGet_burstPut_other {b c : Nat} (h : c ≠ b) (d : Bytes) (t : TileStore) :
    burstGet (burstPut b d t) c = burstGet t c := sget_sset_other _ _ _ h _

/-- A burst just written carries the check bits of its data and no poison. -/
theorem burstSound_burstPut (b : Nat) (d : Bytes) (t : TileStore) : burstSound (burstPut b d t) b = true := by
  simp only [burstSound, burstGet_burstPut_same, Bool.and_eq_true, Bool.not_eq_true', beq_iff_eq]
  exact ⟨by simp [burstPut], sget_sput_same _ _ _ _⟩

theorem nth_modify {α : Type} (d : α) {l : List α} {n : Nat} (h : n < l.length) (f : α → α) :
    nth d (l.modify n f) n = f (nth d l n) := by
  simp [nth, List.getD_eq_getElem?_getD, List.getElem?_eq_getElem h]

/-! ### Steps that leave their Hoppers -/

/-- The Hoppers of a step are given back where the step has left its Griddle. -/
def unbindLeft (g p : Nat) (s : State) (x : Nat × Nat) : State :=
  if stepLeft s g x.1 x.2 then unbindStep p x.1 x.2 s else s

/-- Every bound Hopper of a store stands in another state's store too. -/
def BoundFrom (p : Nat) (s t : State) : Prop :=
  ∀ h ∈ (storeGet t p).hoppers, h.bound = true → h ∈ (storeGet s p).hoppers

theorem unbindStep_boundFrom (p i k : Nat) (s : State) : BoundFrom p s (unbindStep p i k s) := by
  unfold unbindStep
  split
  · intro h hh hb
    rw [storeGet_storeMod_same] at hh
    obtain ⟨x, hx, hxh⟩ := List.mem_map.1 hh
    split at hxh
    · rw [← hxh] at hb
      exact absurd hb (by decide)
    · exact hxh ▸ hx
  · exact fun h hh _ => hh

theorem unbindStep_none {p i k : Nat} {s : State} {h : Hopper} (hh : h ∈ (storeGet (unbindStep p i k s) p).hoppers)
    (hb : h.bound = true) (hi : h.request = i) : h.step ≠ k := by
  intro hk
  unfold unbindStep at hh
  split at hh
  · rw [storeGet_storeMod_same] at hh
    obtain ⟨x, -, hxh⟩ := List.mem_map.1 hh
    split at hxh
    · rw [← hxh] at hb
      exact absurd hb (by decide)
    · next hx => exact hx (by rw [hxh]; simp [hb, hi, hk])
  · next hn => exact hn (List.any_eq_true.2 ⟨h, hh, by simp [hb, hi, hk]⟩)

theorem unbindStep_reqs (p i k : Nat) (s : State) : (unbindStep p i k s).sched = s.sched := by
  unfold unbindStep
  split <;> rfl

theorem unbindStep_others {p i k q : Nat} (h : q ≠ p) (s : State) : storeGet (unbindStep p i k s) q = storeGet s q := by
  unfold unbindStep
  split
  · exact storeGet_storeMod_other h _ _
  · rfl

theorem stepLeft_of_sched {s t : State} (h : t.sched = s.sched) : stepLeft t = stepLeft s := by
  unfold stepLeft reqGet
  rw [h]

theorem unbindLeft_sched (g p : Nat) (s : State) (x : Nat × Nat) : (unbindLeft g p s x).sched = s.sched := by
  unfold unbindLeft
  split
  · exact unbindStep_reqs _ _ _ _
  · rfl

theorem unbindLeft_boundFrom (g p : Nat) (s : State) (x : Nat × Nat) : BoundFrom p s (unbindLeft g p s x) := by
  unfold unbindLeft
  split
  · exact unbindStep_boundFrom _ _ _ _
  · exact fun h hh _ => hh

theorem unbindLeft_others {p q : Nat} (h : q ≠ p) (g : Nat) (s : State) (x : Nat × Nat) :
    storeGet (unbindLeft g p s x) q = storeGet s q := by
  unfold unbindLeft
  split
  · exact unbindStep_others h _
  · rfl

theorem foldl_unbindLeft_others {p q : Nat} (h : q ≠ p) (g : Nat) (l : List (Nat × Nat)) (s : State) :
    storeGet (l.foldl (unbindLeft g p) s) q = storeGet s q := by
  induction l generalizing s with
  | nil => rfl
  | cons x l ih => exact (ih _).trans (unbindLeft_others h g s x)

theorem foldl_unbindLeft_boundFrom (g p : Nat) (l : List (Nat × Nat)) (s : State) :
    BoundFrom p s (l.foldl (unbindLeft g p) s) := by
  induction l generalizing s with
  | nil => exact fun h hh _ => hh
  | cons x l ih => exact fun h hh hb => unbindLeft_boundFrom g p s x h (ih _ h hh hb) hb

/-- After the walk no Hopper is bound to a step of the list that has left. -/
theorem foldl_unbindLeft_none {g p : Nat} {l : List (Nat × Nat)} {s : State} {x : Nat × Nat} (hx : x ∈ l)
    (hl : stepLeft s g x.1 x.2 = true) {h : Hopper} (hh : h ∈ (storeGet (l.foldl (unbindLeft g p) s) p).hoppers)
    (hb : h.bound = true) (hi : h.request = x.1) : h.step ≠ x.2 := by
  induction l generalizing s with
  | nil => exact absurd hx List.not_mem_nil
  | cons y l ih =>
    rcases List.mem_cons.1 hx with rfl | hx
    · have hf := foldl_unbindLeft_boundFrom g p l _ h hh hb
      rw [unbindLeft, if_pos hl] at hf
      exact unbindStep_none hf hb hi
    · exact ih hx ((congrFun (congrFun (congrFun (stepLeft_of_sched (unbindLeft_sched g p s y)) g) x.1) x.2).trans hl) hh

theorem doHopperUnbind_eq {s : State} {g p : Nat} (hp : physGriddle s g = some p) : doHopperUnbind g s =
    ((((storeGet s p).hoppers.filter (·.bound)).map (fun h => (h.request, h.step))).eraseDups).foldl (unbindLeft g p) s := by
  simp only [doHopperUnbind, hp]
  rfl

/-! ### Reads, writes and the scrubber -/

/-- A write with room puts its burst at Head, and moves Head on. -/
theorem doHopperWrite_room {s : State} {g n p at_ : Nat} {d : Bytes} (hp : physGriddle s g = some p) (hd : d.length = 64)
    (hb : (nth {} (storeGet s p).hoppers n).bound = true)
    (hr : hopperFill (nth {} (storeGet s p).hoppers n) < hopperBursts (nth {} (storeGet s p).hoppers n)) :
    doHopperWrite g n d at_ s =
      let h := nth {} (storeGet s p).hoppers n
      let u := addO (atT at_ s) oHopperFullStallCycles (stallCycles (atT at_ s) h.fullSince)
      storeMod p (fun t => hopperMod n headOn (burstPut (hopperBurst h h.head)
        (((boundPlan u h).bind (fun pl => gathered u h pl h.made)).getD d) t)) (modelEnergy (modelUnit 4 p) 3 1 u) := by
  simp only [doHopperWrite, hp]
  exact (if_neg (by simp [hb, hd])).trans (if_neg (not_le.2 hr))

theorem reportError_none {s : State} {p b : Nat}
    (h : ∀ e ∈ (storeGet s p).errors, e.1 = b → within s e.2 1000000000 = false) : reportError p b s = s := by
  refine if_neg fun hx => ?_
  obtain ⟨e, he, hw⟩ := List.any_eq_true.1 hx
  simp only [Bool.and_eq_true, beq_iff_eq] at hw
  exact Bool.noConfusion ((h e he hw.1).symm.trans hw.2)

/-- Settles O23: each command follows the branch of its case. -/
theorem hoppersCarryBursts : Obligations.HoppersCarryBursts := by
  refine ⟨fun s g n d p at_ hp hd hb hn => ?_, fun s g n f at_ p pl hp => ?_, fun s g p hp ha => ?_,
    fun s g p i k hp hl => ?_, fun s p f n hp hr => ?_, fun s p b => ⟨reportError_none, fun g he hg => ?_⟩⟩
  · intro h u
    refine ⟨fun hr => ?_, fun hr => ?_⟩
    · intro d'
      have he : storeGet (modelEnergy (modelUnit 4 p) 3 1 u) = storeGet s := storeGet_of_engine (modelEnergy_engine _ _ _ _)
      refine ⟨storeMod p (fun t => hopperMod n headOn (burstPut (hopperBurst h h.head) d' t)) (modelEnergy (modelUnit 4 p) 3 1 u),
        congrArg Host.Outcome.next (doHopperWrite_room hp hd hb hr), ?_, ?_, ?_, fun b hbb => ?_, fun q hq => ?_,
        modelEnergy_dict _ _ _ _, modelEnergy_dram _ _ _ _, modelEnergy_sched _ _ _ _⟩
      · rw [storeGet_storeMod_same]
        exact burstGet_burstPut_same _ _ _
      · rw [storeGet_storeMod_same]
        exact burstSound_burstPut _ _ _
      · rw [storeGet_storeMod_same, he]
        exact nth_modify _ hn _
      · rw [storeGet_storeMod_same, he]
        exact burstGet_burstPut_other hbb _ _
      · rw [storeGet_storeMod_other hq, he]
    · refine congrArg Host.Outcome.next ?_
      simp only [doHopperWrite, hp]
      exact (if_neg (by simp [hb, hd])).trans (if_pos hr)
  · intro h hb hpl x b u v
    have hb' : (nth {} (storeGet s p).hoppers n).bound = true := hb
    have hpl' : boundPlan s (nth {} (storeGet s p).hoppers n) = some pl := hpl
    have hv : burstSound (storeGet v p) b = burstSound (storeGet s p) b := by
      have he : storeGet v p = hopperMod n (fun h => { h with emptySince := none }) (storeGet s p) := by
        rw [storeGet_of_engine (modelEnergy_engine _ _ _ _), storeGet_storeMod_same]
        rfl
      rw [he]
      rfl
    refine ⟨fun hf => ?_, fun hf hs hbv => ?_, fun hf hbad => ?_⟩
    · refine congrArg Host.Outcome.next ?_
      simp only [doHopperRead, hp]
      rw [hb', hpl']
      exact if_pos hf
    · refine congrArg Host.Outcome.next ?_
      simp only [doHopperRead, hp]
      rw [hb', hpl']
      refine (if_neg (not_lt.2 hf)).trans ((if_neg ?_).trans (if_pos hbv))
      rintro (h1 | h1)
      · exact Finding.noConfusion h1
      · exact h1 (hv.trans hs)
    · refine congrArg Host.Outcome.next ?_
      simp only [doHopperRead, hp]
      rw [hb', hpl']
      refine (if_neg (not_lt.2 hf)).trans (if_pos (hbad.imp_right fun h1 h2 => ?_))
      exact Bool.noConfusion (h1.symm.trans (hv.symm.trans h2))
  · refine congrArg Host.Outcome.next ?_
    simp only [doHopperBind, hp]
    exact if_neg (by simp [ha])
  · refine ⟨doHopperUnbind g s, rfl, fun h hh hb hi hk => ?_, fun q hq => ?_⟩
    · rw [doHopperUnbind_eq hp] at hh
      have hm : (i, k) ∈ (((storeGet s p).hoppers.filter (·.bound)).map (fun h => (h.request, h.step))).eraseDups :=
        List.mem_eraseDups.2 (List.mem_map.2 ⟨h, List.mem_filter.2
          ⟨foldl_unbindLeft_boundFrom g p _ s h hh hb, hb⟩, Prod.ext hi hk⟩)
      exact foldl_unbindLeft_none hm hl hh hb hi hk
    · rw [doHopperUnbind_eq hp]
      exact foldl_unbindLeft_others hq g _ s
  · intro b u
    have he : ¬(68 ≤ p ∨ ¬s.boot.porstN = true) := by simp [hr, hp]
    have hu : burstSound (storeGet u p) b = burstSound (storeGet s p) b := by
      have hg : storeGet (if b + 1 = 32768 then bump (atT n s) oTileScrubSweepCount else atT n s) = storeGet s :=
        storeGet_of_engine (by split <;> rfl)
      rw [storeGet_storeMod_same, hg]
      rfl
    refine ⟨fun hf hs => ?_, fun k hf hs => ?_, fun hbad => ?_⟩
    · refine congrArg Host.Outcome.next ((if_neg he).trans ?_)
      subst hf
      refine if_neg ?_
      rintro (h1 | h1)
      · exact Finding.noConfusion h1
      · exact h1 (hu.trans hs)
    · refine congrArg Host.Outcome.next ((if_neg he).trans ?_)
      subst hf
      refine if_neg ?_
      rintro (h1 | h1)
      · exact Finding.noConfusion h1
      · exact h1 (hu.trans hs)
    · refine congrArg Host.Outcome.next ((if_neg he).trans (if_pos (hbad.imp_right fun h1 h2 => ?_)))
      exact Bool.noConfusion (h1.symm.trans (hu.symm.trans h2))
  · obtain ⟨e, hm, heb, hw⟩ := he
    refine (if_pos (List.any_eq_true.2 ⟨e, hm, by simp [heb, hw]⟩)).trans ?_
    simp only [hg]

end Sys2Proof.Machine


/-! ## Ingot reads, patrol and repair (R250, R251, R261, R270 to R274) -/

namespace Sys2Proof.Machine

open Sys2Proof

@[simp] theorem castGet_castMod_same (c : Nat) (f : CastSlot → CastSlot) (s : State) :
    castGet (castMod c f s) c = f (castGet s c) := sget_sset_same _ _ _ _

theorem castGet_castMod_other {c d : Nat} (h : d ≠ c) (f : CastSlot → CastSlot) (s : State) :
    castGet (castMod c f s) d = castGet s d := sget_sset_other _ _ _ h _

/-- A damaged sector stands in its slot's table, and its cast is READY no more. -/
theorem damage_eq {s : State} {l c rel : Nat} (h : castOfSector s l = some (c, rel)) : damage l s =
    castMod c (fun k => if k.damaged.any (fun d => d.1 == l) then k
      else { k with damaged := k.damaged ++ [(l, s.time.tickNo)], state := if k.state = 4 then 5 else k.state }) s := by
  simp only [damage, h]

theorem damage_new {s : State} {l c rel : Nat} (h : castOfSector s l = some (c, rel))
    (hn : ∀ x ∈ (castGet s c).damaged, x.1 ≠ l) : castGet (damage l s) c =
      { castGet s c with
        damaged := (castGet s c).damaged ++ [(l, s.time.tickNo)]
        state := if (castGet s c).state = 4 then 5 else (castGet s c).state } := by
  rw [damage_eq h, castGet_castMod_same]
  refine if_neg fun hx => ?_
  obtain ⟨x, hx, he⟩ := List.any_eq_true.1 hx
  exact hn x hx (beq_iff_eq.1 he)

theorem damage_sched (l : Nat) (s : State) : (damage l s).sched = s.sched := by
  unfold damage
  cases castOfSector s l <;> rfl

theorem noteIngot_sched (code ibn : Nat) (s : State) : (noteIngot code ibn s).sched = s.sched := by
  unfold noteIngot
  rw [damage_sched]
  split <;> rfl

theorem ingotFault_some {s : State} {ibn i k c : Nat} {r : Request} (h : reqGet s i = some r) :
    ingotFault c ibn (some (i, k)) s =
      waitFor (ibn / 1024) i (stepFaultReplay c .nvDie (dieOf (ibn / 1024)) i k ibn (noteIngot c ibn s)) := by
  have hg : reqGet (noteIngot c ibn s) i = some r := by
    unfold reqGet at h ⊢
    rw [noteIngot_sched, h]
  exact if_neg (by simp [hg])

/-! ### What a read finds -/

/-- A refresh queued changes no content and no check code. -/
theorem blockCrcOk_of_queue {s t : State} {q : List Nat} (h : t.ingot = { s.ingot with refreshQ := q }) (ibn : Nat) :
    blockCrcOk t ibn = blockCrcOk s ibn := by
  have he : blockCrcOk t ibn = blockCrcOk { s with ingot := t.ingot } ibn := rfl
  rw [he, h]
  rfl

theorem queueRefresh_ingot (l : Nat) (s : State) : ∃ q, (queueRefresh l s).ingot = { s.ingot with refreshQ := q } := by
  unfold queueRefresh
  split
  · exact ⟨s.ingot.refreshQ, rfl⟩
  · exact ⟨s.ingot.refreshQ ++ [l], rfl⟩

theorem corrected_ingot (l b : Nat) (s : State) : ∃ q, (corrected l b s).ingot = { s.ingot with refreshQ := q } := by
  unfold corrected
  split
  · exact ⟨s.ingot.refreshQ, rfl⟩
  · dsimp only
    split
    · obtain ⟨q, hq⟩ := queueRefresh_ingot l (bump s oIngotCorrectedBlockCount)
      exact ⟨q, hq⟩
    · exact ⟨s.ingot.refreshQ, rfl⟩

/-- What a block that ECC has given back tells: its CRC first, then its trits. -/
def checkedBlock (ibn : Nat) (s : State) : Option Nat × State :=
  if ¬ blockCrcOk s ibn then (some 0x010A, s) else if badTrits s ibn then (some 0x0101, s) else (none, s)

theorem ingotFind_corrected {b : Nat} (h : b ≤ 8) (ibn : Nat) (s : State) :
    ingotFind ibn (.corrected b) s = checkedBlock ibn (corrected (ibn / 1024) b s) := by
  simp only [ingotFind, withinCode, if_pos h]
  rfl

theorem ingotFind_retried {b : Nat} (h : b ≤ 8) (ibn : Nat) (s : State) : ingotFind ibn (.retried b) s =
    checkedBlock ibn (queueRefresh (ibn / 1024) (corrected (ibn / 1024) b (bump s oIngotReadRetryCount))) := by
  simp only [ingotFind, withinCode, if_pos h]
  rfl

theorem withinCode_beyond {b : Nat} (h : 8 < b) {f : IngotFinding} (hf : f = .corrected b ∨ f = .retried b) :
    withinCode f = .uncorrectable := by
  rcases hf with rfl | rfl
  · exact if_neg (not_le.2 h)
  · exact if_neg (not_le.2 h)

theorem doIngotRead_eq {s : State} {ibn : Nat} (h : ibn / 1024 < ingotSectors) (f : IngotFinding) (rd : Option (Nat × Nat)) (t : Nat) :
    doIngotRead ibn f rd t s = match ingotFind ibn f (modelEnergy (modelUnit 7 (dieOf (ibn / 1024))) 6 1 (atT t s)) with
      | (some code, v) => ingotFault code ibn rd v
      | (none, v) => v := by
  refine (if_neg (not_le.2 h)).trans ?_
  rcases ingotFind ibn f (modelEnergy (modelUnit 7 (dieOf (ibn / 1024))) 6 1 (atT t s)) with ⟨_ | c, v⟩ <;> rfl

/-- The fault, or none, of a block whose bytes ECC has given back. -/
theorem doIngotRead_checked {s v : State} {ibn : Nat} (h : ibn / 1024 < ingotSectors) {f : IngotFinding}
    {rd : Option (Nat × Nat)} {t : Nat} {q : List Nat}
    (hf : ingotFind ibn f (modelEnergy (modelUnit 7 (dieOf (ibn / 1024))) 6 1 (atT t s)) = checkedBlock ibn v)
    (hv : v.ingot = { s.ingot with refreshQ := q }) : doIngotRead ibn f rd t s =
      if blockCrcOk s ibn = false then ingotFault 0x010A ibn rd v
      else if badTrits v ibn = true then ingotFault 0x0101 ibn rd v else v := by
  rw [doIngotRead_eq h, hf, checkedBlock, blockCrcOk_of_queue hv]
  cases blockCrcOk s ibn with
  | false => rfl
  | true => cases badTrits v ibn <;> rfl

/-! ### The patrol -/

/-- The state after the patrol's sector: the sweep of its cast ends with the cast's last sector. -/
def sweptCast (pos l : Nat) (w : State) : State := match castOfSector w l with
  | some (c, _) => if (patrolNext [((castGet w c).first, castSpan (castGet w c))] pos).isNone then sweepEnd c w else w
  | none => w

theorem sweptCast_none {pos l : Nat} {w : State} (h : castOfSector w l = none) : sweptCast pos l w = w := by
  simp only [sweptCast, h]

theorem sweptCast_some {pos l : Nat} {w : State} {x : Nat × Nat} (h : castOfSector w l = some x) : sweptCast pos l w =
    if (patrolNext [((castGet w x.1).first, castSpan (castGet w x.1))] pos).isNone then sweepEnd x.1 w else w := by
  simp only [sweptCast, h]

/-- The patrol's place after a sector, or its start again with the sweep counted. -/
def patrolMoved (pos : Nat) (v : State) : State :=
  powerPatrol (if (patrolNext (patrolRuns v) pos).isSome then { v with ingot := { v.ingot with patrolAt := pos } }
    else bump { v with ingot := { v.ingot with patrolAt := 0 } } oPatrolSweepCount)

theorem doPatrol_eq {s : State} {l : Nat} (f : List (Nat × IngotFinding)) (t : Nat) (hp : patrols s = true)
    (hn : patrolNext (patrolRuns s) s.ingot.patrolAt = some l) : doPatrol f t s =
      patrolMoved (l % 48 / 4 * ingotSectors + l + 1)
        (sweptCast (l % 48 / 4 * ingotSectors + l + 1) l (patrolSector l f (atT t s))) := by
  rw [doPatrol, if_neg (not_not.2 hp)]
  split
  · next h => exact absurd (hn.symm.trans h) (by simp)
  · next k h =>
    obtain rfl := Option.some.inj (hn.symm.trans h)
    generalize patrolSector l f (atT t s) = w
    generalize l % 48 / 4 * ingotSectors + l + 1 = pos
    dsimp only
    cases hc : castOfSector w l with
    | none => exact congrArg (patrolMoved pos) (sweptCast_none hc).symm
    | some x => exact congrArg (patrolMoved pos) (sweptCast_some hc).symm

/-- Settles O24: each command follows the branch of its case. -/
theorem ingotSectorsAreReadAndRepaired : Obligations.IngotSectorsAreReadAndRepaired := by
  refine ⟨fun s ibn rd t f hs => ?_, fun s l c rel h hn => ⟨?_, ?_, fun d hd => ?_, ?_⟩, fun s ibn i k c r h => ingotFault_some h,
    fun s f t l hp hn => ?_, fun s l n c rel p u hq hc hok hw => ?_, fun s l d n c rel p u hc hsp hd hr hl hok hw => ?_,
    fun s l t c rel n hc hm hn => ?_⟩
  · intro l w crc
    have hw : w.ingot = s.ingot := modelEnergy_ingot _ _ _ _
    refine ⟨fun b hf hb => ?_, fun b hf hb => ?_, fun hf => ?_, fun hf => ?_⟩
    · subst hf
      obtain ⟨q, hq⟩ := corrected_ingot l b w
      exact congrArg Host.Outcome.next (doIngotRead_checked hs (ingotFind_corrected hb _ _) (hq.trans (by rw [hw])))
    · subst hf
      obtain ⟨q, hq⟩ := corrected_ingot l b (bump w oIngotReadRetryCount)
      obtain ⟨q', hq'⟩ := queueRefresh_ingot l (corrected l b (bump w oIngotReadRetryCount))
      refine congrArg Host.Outcome.next (doIngotRead_checked (q := q') hs (ingotFind_retried hb _ _) ?_)
      rw [hq', hq, show (bump w oIngotReadRetryCount).ingot = s.ingot from hw]
    · have hu : withinCode f = .uncorrectable := by
        rcases hf with rfl | ⟨b, hb, hf⟩
        · rfl
        · exact withinCode_beyond hb hf
      refine congrArg Host.Outcome.next ((doIngotRead_eq hs f rd t).trans ?_)
      simp only [ingotFind, hu]
      rfl
    · subst hf
      exact congrArg Host.Outcome.next (doIngotRead_eq hs _ rd t)
  · rw [damage_new h hn]
  · rw [damage_new h hn]
  · rw [damage_eq h]
    exact castGet_castMod_other hd _ _
  · rw [damage_eq h]
    rfl
  · intro pos w v
    have hv : v = sweptCast pos l w := by
      clear_value pos w
      dsimp only [v]
      cases hc : castOfSector w l with
      | none => exact (sweptCast_none hc).symm
      | some x => exact (sweptCast_some hc).symm
    have hd : doPatrol f t s = patrolMoved pos v := (doPatrol_eq f t hp hn).trans (congrArg (patrolMoved pos) hv.symm)
    clear_value v
    refine congrArg Host.Outcome.next (hd.trans ?_)
    rfl
  · refine congrArg Host.Outcome.next ?_
    simp only [doRefresh, hc, hw]
    exact (if_neg (by simpa using hq)).trans (if_neg (by simp [hok]))
  · obtain ⟨x, hx, hxl⟩ := hd
    refine congrArg Host.Outcome.next ?_
    simp only [doRepairData, hc, hw]
    refine if_neg ?_
    have hda : (castGet s c).damaged.any (fun x => x.1 == l) = true := List.any_eq_true.2 ⟨x, hx, by simp [hxl]⟩
    have hre : s.ingot.remapDue.any (fun x => x.sector == l && x.repair) = false := by
      rw [List.any_eq_false]
      intro y hy hyr
      simp only [Bool.and_eq_true, beq_iff_eq] at hyr
      exact Bool.noConfusion ((hr y hy hyr.1).symm.trans hyr.2)
    simp [hsp, hda, hre, hl, hok]
  · refine congrArg Host.Outcome.next ?_
    simp only [doIngotLost, hc]
    exact if_pos (List.any_eq_true.2 ⟨(l, n), hm, by simp [hn]⟩)

end Sys2Proof.Machine


/-! ## DRAM errors and map-out (R309 to R319, R325) -/

namespace Sys2Proof.Machine

open Sys2Proof

/-! ### Errors -/

/-- A read of a live, unmarked burst that the Pantry does not hold draws its energy, and does what ECC finds. -/
theorem doDramRead_eq {s : State} {a : Nat} (hl : liveRange s a 1 = true) (hp : pantryHolds s (a / 64) = false)
    (hm : sfind s.dram.marks (a / 64) = none) (f : Finding) (rd : Option (Nat × Nat)) (t : Nat) : doDramRead a f rd t s =
      let w := modelEnergy (modelUnit 6 (channelOf s a)) 5 1 (atT t s)
      match f with
      | .clean => w
      | .corrected _ => bump w oDramEccCorrectedCount
      | .uncorrectable => uncorrectable (a / 64) rd w := by
  have hl' : liveRange (atT t s) a 1 = true := hl
  have hp' : pantryHolds (atT t s) (a / 64) = false := hp
  have hs : shas s.dram.marks (a / 64) = false := by simp [shas, hm]
  refine (if_neg (by simp [hl', hp', hs])).trans ?_
  cases f <;> rfl

/-- The scrubber's read of a live, unmarked burst. -/
theorem doDramScrub_eq {s : State} {a : Nat} (hl : liveRange s a 1 = true) (hm : sfind s.dram.marks (a / 64) = none)
    (f : Finding) (t : Nat) : doDramScrub a f t s =
      let w := modelEnergy (modelUnit 6 (channelOf s a)) 5 1 (atT t s)
      match f with
      | .clean => w
      | .corrected _ => bump w oDramEccCorrectedCount
      | .uncorrectable => markLost (a / 64) (bump (chanMod (channelOf w a) (fun k => { k with ues := noteTime w k.ues }) w)
          oDramEccUncorrectableCount) := by
  have hl' : liveRange (atT t s) a 1 = true := hl
  have hs : shas s.dram.marks (a / 64) = false := by simp [shas, hm]
  refine (if_neg (by simp [hl', hs])).trans ?_
  cases f <;> rfl

/-- An uncorrectable burst that nothing reads for a step is marked LOST. -/
theorem uncorrectable_unmarked {s : State} {b : Nat} (h : sfind s.dram.marks b = none) : uncorrectable b none s =
    markLost b (bump (chanMod (channelOf s (64 * b)) (fun k => { k with ues := noteTime s k.ues }) s)
      oDramEccUncorrectableCount) := by
  have hs : shas s.dram.marks b = false := by simp [shas, h]
  exact if_neg (Bool.eq_false_iff.1 hs)

theorem markLost_marks (b : Nat) (s : State) : (markLost b s).dram.marks = sput s.dram.marks b .lost := rfl

theorem getO_markLost (b k : Nat) (s : State) :
    getO (markLost b s) k = if k = oDramLostLineCount then (getO s k + 1) % 2 ^ 64 else getO s k := by
  split
  · next h =>
    subst h
    exact getO_bump_same _ _
  · next h => exact getO_bump_other _ h

theorem doParityRetry_eq {c n : Nat} (hc : c < 384) (hn : 0 < n) (rd : Option (Nat × Option (Nat × Nat))) (t : Nat) (s : State) :
    doParityRetry c n rd t s =
      let u := addO (chanMod c (fun k => { k with retries := noteTime (atT t s) k.retries }) (atT t s)) oDramParityRetryCount (min n 4)
      if n ≤ 4 then u
      else match rd with
        | some (a, reader) =>
          if liveRange (flagChannel c ((draw u).1 % 65536) (draw u).2) a 1 ∧
              channelOf (flagChannel c ((draw u).1 % 65536) (draw u).2) a = c then
            uncorrectable (a / 64) reader (flagChannel c ((draw u).1 % 65536) (draw u).2)
          else flagChannel c ((draw u).1 % 65536) (draw u).2
        | none => flagChannel c ((draw u).1 % 65536) (draw u).2 := by
  refine (if_neg (by omega)).trans ?_
  cases rd <;> rfl

/-! ### Map-out and lost lines -/

theorem doSliceMove_eq {s : State} {c : Nat} {g : Migration} (hm : s.dram.migration = some g) (hg : g.channel = c)
    (ah : Option Nat) (l : List Nat) : doSliceMove c ah l s = match (pairing s c)[nextSlice g (pairing s c) ah]? with
      | none => mapOutDone c s
      | some p =>
        if (pairing s c).length ≤ (switched g (nextSlice g (pairing s c) ah)).moved then
          mapOutDone c (l.foldl (fun s l => moveLine p.1 l s) s)
        else { l.foldl (fun s l => moveLine p.1 l s) s with dram := { (l.foldl (fun s l => moveLine p.1 l s) s).dram with
          migration := some (switched g (nextSlice g (pairing s c) ah)) } } := by
  simp only [doSliceMove, hm]
  refine (if_neg (not_not.2 hg)).trans ?_
  cases (pairing s c)[nextSlice g (pairing s c) ah]? <;> rfl

theorem switched_next {g : Migration} (h : g.ahead = []) : switched g g.moved = { g with moved := g.moved + 1 } := by
  have ht : switched g g.moved = skipAhead g.ahead.length { g with moved := g.moved + 1 } := by
    rw [switched, if_pos rfl]
  rw [ht, h]
  rfl

/-- What restores a LOST line, by the kind of its frame (R319). -/
theorem doLostRestore_eq {s : State} {a : Nat} (h : sfind s.dram.marks (2 * (a / 128)) = some .lost) : doLostRestore a s =
    match frameKind s (frameOf a) with
    | 0 => restoreLine (a / 128) .zero s
    | 1 => s
    | 2 => failWaiting (a / 128) s
    | 3 => if getO s oBuddyChipId != 0xFFFF then restoreLine (a / 128) .source s else failWaiting (a / 128) s
    | 4 => if getO s oBuddyChipId != 0xFFFF then restoreLine (a / 128) .source s else failWaiting (a / 128) s
    | 5 =>
      if getO s oBuddyChipId != 0xFFFF then restoreLine (a / 128) .source s
      else { s with record := { s.record with
        ring := s.record.ring.filter (fun r => r.1 % 64 != (a - regionBase s 5) / 524288) } }
    | 6 => match variantAt s a with
      | some v => restoreLine (a / 128) .source (varMod v (fun k => { k with rebuilding := true }) s)
      | none => restoreLine (a / 128) .source s
    | 8 => restoreLine (a / 128) .source (loseSave ((a - regionBase s 8) / 245760) s)
    | 9 => restoreLine (a / 128) .source (loseHistory s a)
    | 10 => restoreLine (a / 128) .source (endCast 6 s)
    | 7 => restoreLine (a / 128) .source s
    | _ => restoreLine (a / 128) .free s :=
  if_neg (not_not.2 (.inl (by simp [h])))

theorem restoreBurst_zero {s : State} {b : Nat} (h : sfind s.dram.marks b = some .lost) : restoreBurst b .zero s =
    clearLost b { s with dram := { s.dram with mem := memPut s.dram.mem (64 * b) (zeros 64) } } := if_pos h

/-- Settles O27: each command follows the branch of its case. -/
theorem dramErrorsAreHandled : Obligations.DramErrorsAreHandled := by
  refine ⟨fun s a n rd t hl hp hm => ⟨?_, ?_, ?_⟩, fun s b hm => ?_, fun s a t hl hm => ?_, fun s c n rd t hc hn hn4 => ?_,
    fun s c t hc => ?_, fun s c t hu => ?_, fun s c t hu hr => ?_, fun s a c hg hc => ?_, fun s c k hc hst hf => ?_,
    fun s c hf hm hl hr => ?_, fun s c hf hm hr => ?_, fun s c ah l g p hm hg => ?_, fun g p h => ⟨rfl, switched_next h⟩,
    fun s c ah l g hm hg hp => ?_, fun s a h => ⟨fun hk => ?_, fun hk => ?_, fun hk hb => ?_, fun hk => ?_⟩, fun s b h => ?_,
    fun s a i k hm hp hi => ?_⟩
  · exact congrArg Host.Outcome.next (doDramRead_eq hl hp hm _ rd t)
  · exact congrArg Host.Outcome.next (doDramRead_eq hl hp hm _ rd t)
  · exact congrArg Host.Outcome.next (doDramScrub_eq hl hm _ t)
  · intro t
    have ht : t = _ := uncorrectable_unmarked hm
    rw [ht, markLost_marks]
    refine ⟨sfind_sput_same _ _ _, fun c hc => sfind_sput_other _ hc _, rfl, ?_, ?_⟩
    · rw [getO_markLost, if_neg (by decide), getO_bump_same]
      rfl
    · rw [getO_markLost, if_pos rfl, getO_bump_other _ (by decide)]
      rfl
  · exact congrArg Host.Outcome.next (doDramScrub_eq hl hm _ t)
  · refine congrArg Host.Outcome.next ((doParityRetry_eq hc hn rd t s).trans ((if_pos hn4).trans ?_))
    rw [min_eq_left hn4]
  · exact congrArg Host.Outcome.next ((doParityRetry_eq hc (by decide) none t s).trans (if_neg (by decide)))
  · exact congrArg Host.Outcome.next (if_pos hu)
  · exact congrArg Host.Outcome.next ((if_neg (not_lt.2 hu)).trans (if_pos hr))
  · refine congrArg (Host.Outcome.next ∘ answerWrite) ?_
    simp only [doMapOutWrite, hg]
    exact if_neg (not_le.2 hc)
  · refine if_neg ?_
    rintro (h | h | h)
    · exact absurd h (not_le.2 hc)
    · exact h hst
    · obtain ⟨x, hx, he⟩ := List.any_eq_true.1 h
      exact hf x hx (beq_iff_eq.1 he)
  · exact congrArg Host.Outcome.next ((if_neg (by simp [hf, hm])).trans (if_neg (by omega)))
  · exact congrArg Host.Outcome.next ((if_neg (by simp [hf, hm])).trans (if_pos hr))
  · intro i hp u
    refine congrArg Host.Outcome.next ((doSliceMove_eq hm hg ah l).trans ?_)
    rw [show (pairing s c)[nextSlice g (pairing s c) ah]? = some p from hp]
  · refine congrArg Host.Outcome.next ((doSliceMove_eq hm hg ah l).trans ?_)
    rw [hp]
    rfl
  · refine congrArg Host.Outcome.next ((doLostRestore_eq h).trans ?_)
    rw [hk]
    rfl
  · refine congrArg Host.Outcome.next ((doLostRestore_eq h).trans ?_)
    rw [hk]
    rfl
  · refine congrArg Host.Outcome.next ((doLostRestore_eq h).trans ?_)
    rcases hk with hk | hk <;>
    · rw [hk]
      exact if_pos (by simp [hb])
  · refine congrArg Host.Outcome.next ((doLostRestore_eq h).trans ?_)
    rw [hk]
    rfl
  · rw [restoreBurst_zero h]
    exact ⟨sfind_sdel_same _ _, rfl⟩
  · exact congrArg Host.Outcome.next (if_pos ⟨hm, by simp [hp], hi⟩)

end Sys2Proof.Machine


/-! ## Accesses through the Pantry, LAST and storage errors (R305, R324 to R326, R493) -/

namespace Sys2Proof.Machine

open Sys2Proof

/-- The state after a read has touched its lines, and, with LAST, dropped them. -/
def readTouches (h : Hint) (a n : Nat) (s : State) : State :=
  let t := (linesOf a n).foldl (fun s l => touchLine h false l s) s
  if h = .last then (linesOf a n).foldl (fun s l => killLine l s) t else t

theorem memRead_eq {a n : Nat} {s : State} (hr : readFault s a n = none) (h : Hint) :
    memRead h a n s = (.ok (devGet s a n), readTouches h a n s) := by
  simp only [memRead, hr]
  rfl

theorem readTouches_pantryOnly (h : Hint) (a n : Nat) (s : State) : PantryOnly s (readTouches h a n s) := by
  have ht : PantryOnly s ((linesOf a n).foldl (fun s l => touchLine h false l s) s) :=
    .foldl (fun s l => touchLine_pantryOnly h false l s) _ _
  unfold readTouches
  dsimp only
  split
  · exact ht.trans (.foldl (fun s l => killLine_pantryOnly l s) _ _)
  · exact ht

theorem linesOf_line (l : Nat) : linesOf (128 * l) 128 = [l] := by
  have h : (128 * l + 128 - 1) / 128 - 128 * l / 128 + 1 = 1 := by omega
  have hl : 128 * l / 128 = l := by omega
  rw [linesOf, if_neg (by decide), h, hl]
  simp

/-- LAST marks both bursts of its line DEAD. -/
theorem readTouches_last (l : Nat) (s : State) :
    sfind (readTouches .last (128 * l) 128 s).dram.marks (2 * l) = some .dead ∧
      sfind (readTouches .last (128 * l) 128 s).dram.marks (2 * l + 1) = some .dead := by
  rw [readTouches, linesOf_line, if_pos rfl]
  exact ⟨(sfind_sput_other _ (by omega) _).trans (sfind_sput_same _ _ _), sfind_sput_same _ _ _⟩

theorem doPantryAccess_allowed {s : State} {tag : MemTag} {a n : Nat} (h : tagAllows s tag a n = true)
    {op : MemOp} (hn : (match op with | .read n => n | .write d => d.length) = n) (hi : Hint) (rd : Option (Nat × Nat)) :
    doPantryAccess tag hi a op rd s = match op with
      | .read n => match memRead hi a n s with
        | (.ok d, s) => emit (.memData d) s
        | (.error f, s) => accessFault f rd s
      | .write d => if liveRange s a d.length then memWrite hi a d s else accessFault .notLive rd s := by
  subst hn
  cases op <;> exact if_neg (not_not.2 h)

/-- Settles O28: each access follows the branch of its case. -/
theorem pantryServesAccesses : Obligations.PantryServesAccesses := by
  refine ⟨fun s tag h a n rd ha hr => ?_, fun s tag h a d rd ha hl => ?_, fun s tag h a n i k ha hi => ?_,
    fun s tag h a d ha => ?_, fun s h a d hd _ hr => ?_, fun s a n ho => ⟨if_neg (by simp [ho]), fun d hd => ?_⟩,
    fun s a rd hr => ?_, fun s k i w n t hk hi hw => ?_, fun s k i w t l hk hi hw hl => ?_⟩
  · obtain ⟨ht, -⟩ := readTouches_pantryOnly h a n s
    refine ⟨readTouches h a n s, congrArg Host.Outcome.next ((doPantryAccess_allowed ha rfl h rd).trans ?_), ?_, ?_, ?_, ?_, ?_⟩
    · simp only [memRead_eq hr]
    all_goals rw [ht]
  · exact congrArg Host.Outcome.next ((doPantryAccess_allowed ha rfl h rd).trans (if_pos hl))
  · exact congrArg Host.Outcome.next ((if_pos (by simp [ha])).trans (if_pos hi))
  · exact congrArg Host.Outcome.next (if_pos (by simp [ha]))
  · obtain ⟨ht, -⟩ := memWrite_readable h hd hr
    have hp := devPut_eq a d s
    refine ⟨?_, ?_, ?_, ?_, ?_⟩
    · rw [ht]
    · rw [ht]
    all_goals rw [ht, hp]
  · exact if_neg (by simp [hd, ho])
  · obtain ⟨ht, -⟩ := readTouches_pantryOnly .last (128 * (a / 128)) 128 s
    obtain ⟨h0, h1⟩ := readTouches_last (a / 128) s
    refine ⟨readTouches .last (128 * (a / 128)) 128 s, congrArg Host.Outcome.next ?_, h0, h1, ?_, ?_⟩
    · simp only [doLast, memRead_eq hr]
    all_goals rw [ht]
  · exact congrArg Host.Outcome.next (if_neg (by omega))
  · refine congrArg Host.Outcome.next ((if_neg (by omega)).trans ?_)
    have hl' : lineInWay (sget {} (atT t s).dram.pantry (setKey k i)) w = some l := hl
    simp only [hl']

end Sys2Proof.Machine


/-! ## Cast and variant sessions (R256 to R269, R277 to R286, R301) -/

namespace Sys2Proof.Machine

open Sys2Proof

/-! ### Casts -/

theorem castOpenCheck_space {s : State} {m : Bytes} (h : castOpenCheck s m = 0) :
    ∃ c first, freeCastSlot s = some c ∧ findRun s (manifestSpan m) = some first := by
  unfold castOpenCheck at h
  split at h
  · exact absurd h (by decide)
  · split at h
    · exact absurd h (by decide)
    · split at h
      · exact absurd h (by decide)
      · cases hc : freeCastSlot s with
        | none => simp [hc] at h
        | some c =>
          cases hf : findRun s (manifestSpan m) with
          | none => simp [hc, hf] at h
          | some first => exact ⟨c, first, rfl, rfl⟩

/-- A session that ends with any code but CAST_OK frees its slot. -/
theorem endCast_eq {s : State} {x : CastSession} {n : Nat} (h : s.ingot.session = some x) (hn : n ≠ 1) : endCast n s =
    let t := setO { s with ingot := { s.ingot with session := none } } oCastLastResult n
    { t with ingot := { t.ingot with casts := sdel t.ingot.casts x.slot } } := by
  simp only [endCast, h]
  exact if_neg hn

theorem doStagingEntry_eq {s : State} {x : CastSession} {b : Bytes} (h : s.ingot.session = some x) (hv : x.verifying = false)
    (hh : getO s oCastStagingHead ≠ getO s oCastStagingTail) (hn : x.next < dataSectors (mBlocks (castGet s x.slot).manifest))
    (hb : stagingEntry s = some b) (ho : entryOk x b = true)
    (ht : tilesOk (castGet s x.slot).manifest x.next (sectorContent (castGet s x.slot).manifest x.next b) = true)
    {n : Nat} {u : State}
    (hw : sectorWrite ((castGet s x.slot).first + x.next) (sectorContent (castGet s x.slot).manifest x.next b) n s = (true, u)) :
    doStagingEntry n s =
      let v := castMod x.slot (fun k => { k with
        leaves := k.leaves ++ [leafOf x.next (sectorContent (castGet s x.slot).manifest x.next b)] }) u
      let v := setO (setO v oCastStagingTail ((getO v oCastStagingTail + 1) % 2 ^ 32)) oCastProgressSectors (x.next + 1)
      { v with ingot := { v.ingot with session := some { x with next := x.next + 1 } } } := by
  simp only [doStagingEntry, h, hb, hw]
  refine (if_neg (by simp [hv, hh, hn])).trans ((if_neg (not_not.2 ho)).trans ((if_neg (not_not.2 ht)).trans ?_))
  exact if_neg (by decide)

/-- Settles O25: each command follows the branch of its case. -/
theorem castSessionsRun : Obligations.CastSessionsRun := by
  refine ⟨fun s a m hg hm hs => ?_, fun s m h hz => ?_, fun s a v hg hv hs ht hh => ?_,
    fun s n x b u hs hv hh hn hb ho => ?_, fun s x hs hv hn => ?_, fun s x hs hv hr hc => ?_, fun s x hs hv => ?_,
    fun s x n hs hn => ?_, fun s a x hg hs => ?_, fun s a v k hg hk hc hz hst hr => ?_, fun s a v hg hv hn h3 h6 => ?_,
    fun s a p v hp hg hr => ?_⟩
  · intro c u v
    refine congrArg (Host.Outcome.next ∘ answerWrite) ?_
    simp only [doCastOpen, hg]
    refine (if_neg (not_not.2 hm)).trans ((if_neg (by simp [hs])).trans ?_)
    by_cases h0 : castOpenCheck s m = 0
    · obtain ⟨c', first, hc, hf⟩ := castOpenCheck_space h0
      rw [if_pos h0, h0]
      simp only [hc, hf, v, u, c, Option.getD_some]
      rfl
    · rw [if_neg h0]
      split
      · next e => exact absurd e h0
      · rfl
  · obtain ⟨c, first, hc, hf⟩ := castOpenCheck_space hz
    rcases h with h | h
    · exact absurd (h.symm.trans hc) (by simp)
    · exact absurd (h.symm.trans hf) (by simp)
  · refine congrArg (Host.Outcome.next ∘ answerWrite) ?_
    simp only [doStagingHead, hg]
    refine (if_neg (not_or.2 ⟨not_lt.2 ht, not_lt.2 hh⟩)).trans ((if_neg (by simp [Option.isSome_iff_ne_none.1 hs])).trans ?_)
    rw [Nat.mod_eq_of_lt hv]
    rfl
  · intro m c htl hw
    exact congrArg Host.Outcome.next (doStagingEntry_eq hs hv hh hn hb ho htl hw)
  · intro y w
    refine congrArg Host.Outcome.next ?_
    simp only [doCastDataComplete, hs]
    refine (if_neg (by simp [hv, hn])).trans ?_
    by_cases hw : w.1 = false
    · rw [if_pos hw]
      exact if_pos (by rw [show (writeDigest x.slot _ _).1 = false from hw]; decide)
    · rw [if_neg hw]
      refine (if_neg (not_not.2 (Bool.eq_true_of_not_eq_false hw))).trans ?_
      by_cases hm : merkleRoot (castGet s x.slot).leaves = mRoot (castGet s x.slot).manifest
      · rw [if_pos hm]
        exact if_neg (not_not.2 hm)
      · rw [if_neg hm]
        exact if_pos hm
  · refine congrArg Host.Outcome.next ?_
    simp only [doCastVerify, hs]
    exact (if_neg (not_not.2 hv)).trans ((if_neg (by simp [hr])).trans (if_neg (not_not.2 hc)))
  · refine congrArg Host.Outcome.next ?_
    simp only [doCastVerify, hs]
    exact (if_neg (not_not.2 hv)).trans (if_pos (by simp))
  · rw [endCast_eq hs hn]
    refine ⟨rfl, getO_setO_same _ _ _, ?_, fun d hd => ?_⟩
    · exact congrArg (fun o => (Option.getD o ({} : CastSlot)).state) (sfind_sdel_same s.ingot.casts x.slot)
    · exact congrArg (fun o => Option.getD o ({} : CastSlot)) (sfind_sdel_other s.ingot.casts hd)
  · refine congrArg (Host.Outcome.next ∘ answerWrite) ?_
    simp only [doCastAbort, hg, hs]
    exact if_neg (not_not.2 rfl)
  · refine congrArg (Host.Outcome.next ∘ answerWrite) ?_
    simp only [doCastAdopt, hg, hk]
    refine (if_neg (by simp [hc, hz])).trans ?_
    by_cases hec : ecdsaVerify k (v.take 64) (sub v 64 64) = true
    · rw [if_pos hec]
      exact (if_neg (not_not.2 hec)).trans ((if_neg (not_not.2 hst)).trans (if_neg (not_not.2 hr)))
    · rw [if_neg hec]
      exact if_pos hec
  · refine congrArg (Host.Outcome.next ∘ answerWrite) ?_
    simp only [doCastDelete, hg]
    exact (if_neg (not_le.2 hv)).trans ((if_neg (by rw [hn]; decide)).trans (if_neg (by omega)))
  · refine congrArg (Host.Outcome.next ∘ answerWrite) ?_
    simp only [doCastPointer, hg, hr]
    exact if_neg (not_le.2 hp)

/-! ### Variants -/

theorem varLoadCheck_slot {s : State} {a : Access} {m : Bytes} {addr : Nat} (h : varLoadCheck s a m addr = 0) :
    ∃ n, freeVarSlot s = some n := by
  unfold varLoadCheck at h
  split at h
  · exact absurd h (by decide)
  · split at h
    · exact absurd h (by decide)
    · split at h
      · exact absurd h (by decide)
      · split at h
        · exact absurd h (by decide)
        · cases hf : freeVarSlot s with
          | none => simp [hf] at h
          | some n => exact ⟨n, rfl⟩

/-- A session that ends with any code but the good one frees its slot. -/
theorem endVarSession_eq {s : State} {x : VarSession} {n : Nat} (h : s.vars.session = some x) (hn : n ≠ 1) :
    endVarSession n s = freeVar x.slot (setO { s with vars := { s.vars with session := none } } oVariantLastResult n) := by
  simp only [endVarSession, h]
  exact if_neg hn

theorem varGet_freeVar (v : Nat) (s : State) : varGet (freeVar v s) v = {} :=
  congrArg (fun o => Option.getD o ({} : VarSlot)) (sfind_sdel_same s.vars.slots v)

theorem doMouldPass_eq {s : State} {x : VarSession} {c base : Nat} (h : s.vars.session = some x) (hm : x.moulded = false)
    (h1 : (varGet s x.slot).state = 1) {m b : Bytes} (hmm : m = (varGet s x.slot).manifest)
    (hb : b = listBytes s x (8 * vmTotal m)) (hc : castByRoot s (mRoot m) = some c) (hs : sha256 b = vmSource m)
    (ho : changesOk s c (changeList b) = true)
    (hg : firstGap (varPool s) (varBytes (buildSegments s c m (changeList b)) b) 0 (varRuns s) = some base) :
    doMouldPass s =
      let u := varMod x.slot (fun k => { k with
        changes := b, base := base, bytes := varBytes (buildSegments s c m (changeList b)) b }) s
      setO { u with vars := { u.vars with session := some { x with moulded := true } } } oVariantLoadProgress (vmTotal m) := by
  subst hmm hb
  simp only [doMouldPass, h, hc, hg]
  exact (if_neg (by simp [hm, h1])).trans ((if_neg (not_not.2 hs)).trans (if_neg (not_not.2 ho)))

/-- Settles O26: each command follows the branch of its case. -/
theorem variantSessionsRun : Obligations.VariantSessionsRun := by
  refine ⟨fun s a v hg hv hs => ?_, fun s x c base hs hm h1 => ?_, fun s x c hs hm hc => ⟨?_, ?_⟩, fun s v c hr hc => ?_,
    fun s a v hg hs => ?_, fun s x n hs hn => ?_, fun s a v hg hv h0 h1 hn => ?_, fun s a p v hp hg hr => ?_⟩
  · intro e n u
    refine ⟨congrArg (Host.Outcome.next ∘ answerWrite) ?_, fun hf h0 => ?_⟩
    · simp only [doVariantLoad, hg]
      refine (if_neg (not_not.2 hv)).trans ((if_neg (by simp [hs])).trans ?_)
      by_cases h0 : e = 0
      · obtain ⟨k, hk⟩ := varLoadCheck_slot h0
        rw [if_pos h0, show varLoadCheck s a (v.take 256) (fld v 256 8) = 0 from h0]
        simp only [hk, u, n, Option.getD_some]
        rfl
      · rw [if_neg h0]
        split
        · next h => exact absurd h h0
        · rfl
    · obtain ⟨k, hk⟩ := varLoadCheck_slot h0
      exact absurd (hf.symm.trans hk) (by simp)
  · intro m b n hc hsh ho hgap
    exact congrArg Host.Outcome.next (doMouldPass_eq hs hm h1 rfl rfl hc hsh ho hgap)
  · refine congrArg Host.Outcome.next ?_
    simp only [doSecondPass, hs, hc]
    exact (if_neg (not_not.2 hm)).trans (if_neg (by decide))
  · refine congrArg Host.Outcome.next ?_
    simp only [doSecondPass, hs, hc]
    exact (if_neg (not_not.2 hm)).trans (if_pos (by decide))
  · refine congrArg Host.Outcome.next ?_
    simp only [doVariantRebuild, hc]
    exact if_neg (not_not.2 hr)
  · refine congrArg (Host.Outcome.next ∘ answerWrite) ?_
    simp only [doVariantAbort, hg]
    exact if_neg (by simp [Option.isSome_iff_ne_none.1 hs])
  · rw [endVarSession_eq hs hn]
    exact ⟨rfl, getO_setO_same _ _ _, congrArg VarSlot.state (varGet_freeVar _ _)⟩
  · refine congrArg (Host.Outcome.next ∘ answerWrite) ?_
    simp only [doVariantDelete, hg]
    exact (if_neg (not_le.2 hv)).trans ((if_neg (by simp [hn])).trans (if_neg h1))
  · refine congrArg (Host.Outcome.next ∘ answerWrite) ?_
    simp only [doVariantPointer, hg, hr]
    exact if_neg (not_le.2 hp)

end Sys2Proof.Machine


/-! ## Sensors, power and supplies (R442, R443, R447, R451 to R456, R460 to R466, R547, R549, R552) -/

namespace Sys2Proof.Machine

open Sys2Proof

/-! ### Sensors -/

/-- A sensor's filter after a sample, without a median stage. -/
def filtered (k : Sensor) (cfg : Nat) (r : Int) : Sensor :=
  let y := if k.seen then k.y + shrFloor (256 * r - k.y) (bits cfg 2 4) else 256 * r
  { win := r :: k.win.take 4, y := y, seen := true, value := shrFloor y 8, fails := 0 }

theorem filterSample_one {s : State} {n : Nat} (r : Int) (h : medianLen (sensorCfg s n) = 1) :
    let j := filtered (sget ({} : Sensor) s.pilot.sensors n) (sensorCfg s n) r
    filterSample n r s = setO { s with pilot := { s.pilot with sensors := sput s.pilot.sensors n j } }
      (oSensorValue + n) (ofSigned 16 j.value) := by
  have hm : median ((r :: (sget ({} : Sensor) s.pilot.sensors n).win.take 4).take (medianLen (sensorCfg s n))) s = (r, s) := by
    rw [h]
    simp [median, nth]
  simp only [filterSample, hm]
  rfl

theorem sensors_failedRead (n : Nat) (s : State) : sget ({} : Sensor) (failedRead n s).pilot.sensors n =
    { sget ({} : Sensor) s.pilot.sensors n with fails := (sget ({} : Sensor) s.pilot.sensors n).fails + 1 } :=
  sget_sset_same _ _ _ _

theorem doSensorSample_on {s : State} {n : Nat} (hp : s.boot.porstN = true) (h : sensorOn s n = true) (r : Option Int) (t : Nat) :
    doSensorSample n r t s = match r with
      | none => if n < 62 then atT t s else failedRead n (atT t s)
      | some r => setAlert 5 ([62, 63].any (fun i => decide (3 ≤ (sget ({} : Sensor)
          (sensorActs n (filterSample n r (atT t s))).pilot.sensors i).fails))) (sensorActs n (filterSample n r (atT t s))) := by
  refine (if_neg (by simp [hp, h])).trans ?_
  cases r <;> rfl

/-! ### The trip -/

theorem tripCount_row : (objRow (oTripCount / 256) (oTripCount % 256)).any (fun d => isNum d.typ && d.persistent) = true := by
  decide

/-- The part with its main domains in reset, before the trip counts. -/
def tripped (s : State) : State :=
  setAlert 4 true { s with
    pins := { s.pins with tripN := false }
    boot := { s.boot with chip := .tripped, running := false }
    sched := { s.sched with commitSet := [], held := [] }
    links := { s.links with ports := s.links.ports.map (fun (e : Nat × Port) => (e.1, { e.2 with st := 0, width := 0 })) } }

/-- The trip counts, and sets Surrendered, both in force and in NV. -/
theorem trip_eq (s : State) : trip s = nvStore oSurrendered [1] (setO
    (nvStore oTripCount (natLe 4 (getO s oTripCount + 1)) (setO (tripped s) oTripCount (leNat (natLe 4 (getO s oTripCount + 1)))))
    oSurrendered (leNat [1])) := by
  obtain ⟨d, hd, hn, hp⟩ := exists_row tripCount_row
  obtain ⟨e, he, hm, hq⟩ := exists_row surrendered_row
  have ht : trip s = applyNow oSurrendered [1] (applyNow oTripCount (natLe 4 (getO s oTripCount + 1)) (tripped s)) := rfl
  rw [ht, applyNow_number hd hn hp, applyNow_number he hm hq]

theorem trip_dict (s : State) : trip s = { tripped s with dict := (trip s).dict } := by
  rw [trip_eq, nvStore_eq, nvStore_eq]
  rfl

theorem getO_trip_surrendered (s : State) : getO (trip s) oSurrendered = 1 := by
  rw [trip_eq, getO_nvStore_other _ _ _ (by decide), getO_setO_same]
  rfl

/-- Settles O31: a sample follows the branch of its sensor, its outcome and its value. -/
theorem sensorsAreSampled : Obligations.SensorsAreSampled := by
  refine ⟨fun s n r t hp hn => ?_, fun s n t hp hn h => ?_, fun s n t hp hn h => ?_, fun s n r t h => ?_, fun s n r h => ?_,
    fun s n => ?_, fun s n hp hn hv => ?_⟩
  · exact congrArg Host.Outcome.next (doSensorSample_on hp hn _ t)
  · exact congrArg Host.Outcome.next ((doSensorSample_on hp hn _ t).trans (if_pos h))
  · exact congrArg Host.Outcome.next ((doSensorSample_on hp hn _ t).trans (if_neg (not_lt.2 h)))
  · exact congrArg Host.Outcome.next (if_pos (by simpa using h))
  · intro k u j
    have hu : u = _ := filterSample_one r h
    have hj : j = filtered k (sensorCfg s n) r := by
      simp only [j, hu]
      exact sget_sput_same _ _ _ _
    refine ⟨fun hs => ?_, fun hs => ?_, ?_, ?_, ?_, ?_, fun m hm => ?_, ?_, ?_⟩
    · rw [hj]
      exact if_pos hs
    · rw [hj]
      exact if_neg (by simp [hs])
    · rw [hj]
      rfl
    · rw [hj]
      rfl
    · rw [hj]
      rfl
    · rw [hj, hu]
      exact getO_setO_same _ _ _
    · rw [hu]
      exact sget_sput_other _ _ hm _
    · rw [hu]
      rfl
    · rw [hu]
      rfl
  · intro j k
    have hj : j = { k with fails := k.fails + 1 } := sensors_failedRead n s
    rw [hj]
    exact ⟨rfl, rfl, rfl⟩
  · intro t
    have ht : t = { tripped s with dict := (trip s).dict } := trip_dict s
    refine ⟨(if_neg (not_not.2 hp)).trans (if_pos ⟨hn, hv⟩), ?_, ?_, ?_, ?_, fun e he => ?_, getO_trip_surrendered s, ?_, ?_, ?_⟩
    case refine_5 =>
      rw [ht] at he
      obtain ⟨x, -, rfl⟩ := List.mem_map.1 he
      exact ⟨rfl, rfl⟩
    all_goals
      rw [ht]
      rfl

/-! ### Power and supplies -/

theorem modelEnergy_model (u c n : Nat) (s : State) : ∃ m, modelEnergy u c n s = { s with power := { s.power with model := m } } := by
  unfold modelEnergy
  split
  · exact ⟨s.power.model, rfl⟩
  · exact ⟨_, rfl⟩

/-- The static energy of a sample counts in the activity model alone. -/
theorem modelStatic_model (s : State) : ∃ m, modelStatic s = { s with power := { s.power with model := m } } := by
  unfold modelStatic
  generalize List.range 7 = l
  induction l generalizing s with
  | nil => exact ⟨s.power.model, rfl⟩
  | cons r l ih =>
    obtain ⟨m, hm⟩ := modelEnergy_model (modelUnit 11 r) (9 + r) (if nth 0 s.power.railMv r = 0 ∧ r < 5 then 0 else 10000) s
    obtain ⟨k, hk⟩ := ih { s with power := { s.power with model := m } }
    exact ⟨k, by rw [List.foldl_cons, hm, hk]⟩

/-- The last 256 of a log and a new entry. -/
def lastDroops (l : List Bytes) (e : Bytes) : List Bytes := (l ++ [e]).drop ((l ++ [e]).length - 256)

theorem lastDroops_getLast? (l : List Bytes) (e : Bytes) : (lastDroops l e).getLast? = some e := by
  have h : (l ++ [e]).length - 256 ≤ l.length := by
    rw [List.length_append, List.length_singleton]
    omega
  rw [lastDroops, List.drop_append_of_le_length h, List.getLast?_concat]

theorem lastDroops_length (l : List Bytes) (e : Bytes) : (lastDroops l e).length ≤ 256 := by
  rw [lastDroops, List.length_drop]
  omega

/-- The state with another droop log. -/
def withDroops (l : List Bytes) (s : State) : State := { s with power := { s.power with droopLog := l } }

theorem getO_withDroops (l : List Bytes) (s : State) (k : Nat) : getO (withDroops l s) k = getO s k := rfl

/-- An excursion past the threshold that is no fault stands last in the droop log. -/
def drooped (rail depth dur : Nat) (s : State) : State :=
  bump (withDroops (lastDroops s.power.droopLog
    (natLe 1 rail ++ natLe 1 depth ++ zeros 2 ++ natLe 4 dur ++ natLe 8 s.time.tickNo)) s) oDroopCount

theorem drooped_log (rail depth dur : Nat) (s : State) : (drooped rail depth dur s).power.droopLog =
    lastDroops s.power.droopLog (natLe 1 rail ++ natLe 1 depth ++ zeros 2 ++ natLe 4 dur ++ natLe 8 s.time.tickNo) := by
  rw [drooped, bump_power, withDroops]

theorem doDroop_logged {rail depth dur : Nat} {s : State} (hr : rail < 7) (hd : getO s oDroopThresholdMv < depth)
    (h : depth ≤ 50 ∨ dur < 10000) : doDroop rail depth dur s = drooped rail depth dur s := by
  have hs : isDroop s depth = true := decide_eq_true hd
  rw [doDroop, if_neg (not_le.2 hr), if_neg (by omega), if_neg (not_not.2 hs)]
  rfl

/-- Settles O32: each command follows the branch of its case. -/
theorem powerAndSupplies : Obligations.PowerAndSupplies := by
  refine ⟨fun s d => congrArg Host.Outcome.next ?_, fun s mv qa hp => ?_, modelStatic_model, fun s rail depth dur hr hd h => ?_,
    fun s rail depth dur hr hd hl hp => ?_, fun s rail depth dur hd h => ?_, fun s rail t hr hp => ?_, fun s t hp hr => ?_,
    fun s t hp hr => ?_, fun s rail w bad t hr hp => ?_⟩
  · unfold doSetPointLower
    cases zoneTemp s d with
    | none => rfl
    | some t => exact if_congr (by simp) rfl rfl
  · intro p u
    obtain ⟨m, hm⟩ := modelStatic_model { s with power := { s.power with energy := s.power.energy + p } }
    have hu : u = { s with power := { s.power with energy := s.power.energy + p, model := m } } := hm
    have hx : doPowerSample mv qa s = if u.time.phase = .sealed then { u with power := { u.power with
        lateSamples := u.power.lateSamples ++ [p] } }
      else { u with power := { u.power with
        samples := (u.power.samples ++ [p]).drop ((u.power.samples ++ [p]).length - 1000000) } } := if_neg (not_not.2 hp)
    refine ⟨fun hs => congrArg Host.Outcome.next (hx.trans ?_), fun hs hl => congrArg Host.Outcome.next (hx.trans ?_)⟩
    · rw [hu]
      exact if_pos hs
    · have hz : (s.power.samples ++ [p]).length - 1000000 = 0 := by
        rw [List.length_append, List.length_singleton]
        omega
      rw [hu]
      refine (if_neg hs).trans ?_
      dsimp only
      rw [hz]
      rfl
  · refine ⟨drooped rail depth dur s, congrArg Host.Outcome.next (doDroop_logged hr hd h), ?_, ?_, ?_, fun k hk => ?_, ?_, ?_⟩
    · rw [drooped, getO_bump_same, getO_withDroops]
    · rw [drooped_log, lastDroops_getLast?]
    · rw [drooped_log]
      exact lastDroops_length _ _
    · rw [drooped, getO_bump_other _ hk, getO_withDroops]
    · rw [drooped, bump_faults, withDroops]
    · rw [drooped, bump_time, withDroops]
  · refine congrArg Host.Outcome.next ?_
    rw [doDroop, if_neg (not_le.2 hr), if_pos ⟨hd, hl⟩, if_pos hp]
    rfl
  · refine congrArg Host.Outcome.next ?_
    unfold doDroop
    split
    · rfl
    · rw [if_neg (by omega)]
      refine if_pos ?_
      rw [isDroop, decide_eq_false (not_lt.2 hd)]
      decide
  · exact congrArg Host.Outcome.next (if_pos ⟨hr, hp⟩)
  · exact congrArg Host.Outcome.next (if_pos ⟨hp, hr⟩)
  · exact congrArg Host.Outcome.next ((if_neg (by simp [hr])).trans (if_pos hp))
  · intro u v
    refine congrArg Host.Outcome.next ((if_neg (by simp [hp, hr])).trans ?_)
    cases bad <;> rfl

end Sys2Proof.Machine


/-! ## Takeover (R406, R431 to R438, R472, R489) -/

namespace Sys2Proof.Machine

open Sys2Proof

/-! ### The buddy -/

/-- Settles O33: the start, the probe and the spares of the list. -/
theorem takeoverBegins : Obligations.TakeoverBegins := by
  refine ⟨fun s w hw he ha => congrArg Host.Outcome.next (if_neg (by simp [hw, he.symm, ha])), fun s w h => ?_,
    fun s h => if_neg (not_not.2 h), fun s h => if_pos h, fun s w i => getO_setO_same _ _ _,
    fun s t ht hw hl hp ha hm => ?_, fun s t ht hm => ?_, fun s t p hp hx hl ha => ?_, fun s n hn h1 => ?_⟩
  · refine congrArg Host.Outcome.next (if_pos ?_)
    exact h.imp_right .inl
  · refine congrArg Host.Outcome.next ?_
    simp only [doWardMiss, ht]
    exact if_neg (by simp [hw, hl, hp, ha, hm])
  · refine congrArg Host.Outcome.next ?_
    simp only [doWardMiss, ht]
    exact if_pos (.inr (.inr (.inr (.inr hm))))
  · refine congrArg Host.Outcome.next ?_
    simp only [doWardLost, hp, decide_eq_true hx]
    exact if_neg (by simp [hl, ha])
  · refine congrArg Host.Outcome.next ?_
    simp only [doSpareNoAnswer, hn]
    exact if_neg (not_not.2 h1)

/-! ### WAKE at the spare -/

/-- A WAKE that a chip can obey: its source has the right, it verifies, and no SHUTDOWN entry stands against it. -/
def wakeOk (s : State) (f : LinkFrame) : Bool := peerRight s f.srcChip 6 && wakeVerifies s f && !anyAsserted s 4

theorem wakeOk_iff {s : State} {f : LinkFrame} : wakeOk s f = true ↔
    peerRight s f.srcChip 6 = true ∧ wakeVerifies s f = true ∧ anyAsserted s 4 = false := by
  simp [wakeOk, and_assoc]

theorem wakeOk_false {s : State} {f : LinkFrame}
    (h : wakeVerifies s f = false ∨ peerRight s f.srcChip 6 = false ∨ anyAsserted s 4 = true) : wakeOk s f = false := by
  rcases h with h | h | h <;> simp [wakeOk, h]

theorem doWake_spare {s : State} (f : LinkFrame) (p : Nat) (h : s.boot.chip = .warmSpare ∨ s.boot.chip = .coldSpare) :
    doWake f p s = if !wakeOk s f || s.boot.wakeNonces.contains f.operand2 then bump s oWakeRejectCount
      else
        let u := ackWake f p (keepNonce f.operand2 s)
        setO (bump (leaveSpare .coldExit { u with boot := { u.boot with
          wakeFor := some (f.operand % 65536), spareWanted := none } }) oWakeCount) oTakeoverState 1 := by
  unfold doWake
  rcases h with h | h <;> rw [h] <;> rfl

theorem doWake_waking {s : State} (f : LinkFrame) (p : Nat) (h : s.boot.chip = .waking) : doWake f p s =
    if wakeOk s f && s.boot.wakeFor == some (f.operand % 65536) then ackWake f p s else bump s oWakeRejectCount := by
  unfold doWake
  rw [h]
  rfl

theorem doWake_other {s : State} (f : LinkFrame) (p : Nat)
    (h : s.boot.chip ≠ .warmSpare ∧ s.boot.chip ≠ .coldSpare ∧ s.boot.chip ≠ .waking) :
    doWake f p s = bump s oWakeRejectCount := by
  obtain ⟨hw, hc, hk⟩ := h
  unfold doWake
  cases hs : s.boot.chip with
  | warmSpare => exact absurd hs hw
  | coldSpare => exact absurd hs hc
  | waking => exact absurd hs hk
  | _ => rfl

theorem doWake_refused {s : State} {f : LinkFrame} (p : Nat) (h : wakeOk s f = false) : doWake f p s = bump s oWakeRejectCount := by
  by_cases hs : s.boot.chip = .warmSpare ∨ s.boot.chip = .coldSpare
  · exact (doWake_spare f p hs).trans (if_pos (by simp [h]))
  · obtain ⟨hw, hc⟩ := not_or.1 hs
    by_cases hk : s.boot.chip = .waking
    · exact (doWake_waking f p hk).trans (if_neg (by simp [h]))
    · exact doWake_other f p ⟨hw, hc, hk⟩

/-- Settles O34: what each WAKE does, by the chip's state. -/
theorem wakeIsAnswered : Obligations.WakeIsAnswered := by
  refine ⟨fun s f p hs => ?_, fun s f p hs => ?_, fun s f p h => congrArg Host.Outcome.next (doWake_refused p (wakeOk_false h)),
    fun s f p hs hn => congrArg Host.Outcome.next ((doWake_spare f p hs).trans (if_pos (by simp [hn]))), fun s f p h => ?_⟩
  · intro u v
    refine congrArg Host.Outcome.next ((doWake_spare f p hs).trans ?_)
    by_cases hc : peerRight s f.srcChip 6 = true ∧ wakeVerifies s f = true ∧ anyAsserted s 4 = false ∧ f.operand2 ∉ s.boot.wakeNonces
    · obtain ⟨hp, hv, ha, hn⟩ := hc
      refine Eq.trans ?_ (if_pos ⟨hp, hv, ha, hn⟩).symm
      exact if_neg (by simp [wakeOk_iff.2 ⟨hp, hv, ha⟩, hn])
    · refine Eq.trans ?_ (if_neg hc).symm
      refine if_pos ?_
      by_contra hx
      simp only [Bool.or_eq_true, Bool.not_eq_true', List.contains_iff_mem, not_or, Bool.not_eq_false] at hx
      obtain ⟨hp, hv, ha⟩ := wakeOk_iff.1 hx.1
      exact hc ⟨hp, hv, ha, hx.2⟩
  · refine congrArg Host.Outcome.next ((doWake_waking f p hs).trans (if_congr ?_ rfl rfl))
    rw [Bool.and_eq_true, wakeOk_iff, beq_iff_eq, and_assoc, and_assoc]
  · refine congrArg Host.Outcome.next (doWake_other f p ?_)
    rcases h with h | h | h | h <;> simp [h]

/-! ### The spare -/

/-- Settles O35: the mirror's copy, the identity and the end of the replay. -/
theorem spareTakesTheWardsPlace : Obligations.SpareTakesTheWardsPlace := by
  refine ⟨fun s w hc he hw ht hr => congrArg Host.Outcome.next (if_neg (by simp [hc, he, hw, ht, hr])), fun s h => ?_,
    fun s id hw hr ht hid => ?_, fun s h => ?_, fun s ht hb hr ha => congrArg Host.Outcome.next (if_neg ?_),
    fun s h => congrArg Host.Outcome.next (if_pos (.inl h))⟩
  · refine congrArg Host.Outcome.next (if_pos ?_)
    rcases h with h | h | h | h <;> simp [h]
  · refine congrArg Host.Outcome.next ?_
    simp only [doIdentity, hw]
    exact if_neg (by simp [hr, ht, hid])
  · refine congrArg Host.Outcome.next ?_
    unfold doIdentity
    cases hw : s.boot.wakeFor with
    | none => rfl
    | some id =>
      refine if_pos ?_
      rcases h with h | h | h
      · exact absurd (hw.symm.trans h) (by simp)
      · simp [h]
      · simp [h]
  · have hs : s.mirror.replaySet.any (fun i => shas s.sched.reqs i) = false := by
      rw [List.any_eq_false]
      intro i hi hx
      have hn : sfind s.sched.reqs i = none := hr i hi
      simp [shas, hn] at hx
    rw [hs]
    simp [ht, hb, ha]

end Sys2Proof.Machine


/-! ## Lanes, the hop and flows (R390, R391, R393, R395, R396, R436) -/

namespace Sys2Proof.Machine

open Sys2Proof

/-! ### Ports -/

@[simp] theorem portGet_portMod_same (n : Nat) (f : Port → Port) (s : State) :
    portGet (portMod n f s) n = f (portGet s n) := sget_sset_same _ _ _ _

theorem portGet_portMod_other {n m : Nat} (h : m ≠ n) (f : Port → Port) (s : State) :
    portGet (portMod n f s) m = portGet s m := sget_sset_other _ _ _ h _

/-! ### Lanes -/

theorem trained_byari (bad : List Nat) : trained 1 bad =
    (if byariWidth bad = 0 then 0 else if byariWidth bad = 4 then 2 else 3, byariWidth bad) := by
  simp only [trained]
  split
  · next h => rw [h, if_pos rfl]
  · next h => rw [h, if_neg (by decide), if_pos rfl]
  · next h0 h4 => rw [if_neg h0, if_neg h4]

theorem trained_down (bad : List Nat) : (trained 1 bad).1 = 0 ↔ byariWidth bad = 0 := by
  rw [trained_byari]
  dsimp only
  split
  · next h => exact ⟨fun _ => h, fun _ => rfl⟩
  · next h => split <;> exact ⟨fun h => absurd h (by decide), fun h' => absurd h' h⟩

/-- A lost lane is counted and recorded; links, memory and schedule stay. -/
theorem laneDrop_frame (n w l : Nat) (s : State) :
    portGet (laneDrop n w l s) = portGet s ∧ (laneDrop n w l s).dram = s.dram ∧ (laneDrop n w l s).sched = s.sched :=
  ⟨rfl, rfl, rfl⟩

/-- A lane of a Byari port in service is bad: the port retrains, or goes DOWN with no good lane left. -/
theorem badLane_eq {s : State} {n l : Nat} (h0 : (portGet s n).st ≠ 0) (h4 : (portGet s n).st ≠ 4) (hl : l < 4)
    (hb : l ∉ (portGet s n).bad) (hm : (portGet s n).mode = 1) : badLane n l s =
      let bad := (portGet s n).bad ++ [l]
      let st := if byariWidth bad = 0 then 0 else 1
      laneDrop n (byariWidth bad) l (portMod n (fun p => { p with
        bad := bad, st := st, width := if st = 0 then 0 else (portGet s n).width }) s) := by
  rw [badLane]
  dsimp only
  rw [if_neg (by simp [h0, hl, hb]), hm, if_neg h4]
  have hw : (trained 1 ((portGet s n).bad ++ [l])).2 = byariWidth ((portGet s n).bad ++ [l]) := by rw [trained_byari]
  by_cases hz : byariWidth ((portGet s n).bad ++ [l]) = 0
  · have ht := (trained_down _).2 hz
    rw [if_pos (.inr ht), ht, if_pos rfl, if_pos hz, if_pos rfl, hw]
  · have ht : (trained 1 ((portGet s n).bad ++ [l])).1 ≠ 0 := fun h => hz ((trained_down _).1 h)
    rw [if_neg (by simp [ht]), if_neg (by decide), if_pos (.inl rfl), if_neg hz, if_neg (by decide), hw]

/-- Settles O36: lanes, retraining, acknowledgement and retry. -/
theorem linkHopsRetry : Obligations.LinkHopsRetry := by
  refine ⟨fun s n l c t hn hf => ?_, fun s n l h0 h4 hl hb hm => ?_, fun s n hn hs hf hm => ?_,
    fun s n a v b hn hf => congrArg Host.Outcome.next (if_neg (by simp [hn, hf])), fun s n a v b hv => ⟨?_, ?_⟩,
    fun s n a hn hf => congrArg Host.Outcome.next (if_neg (by simp [hn, hf])),
    fun s n hn hr => congrArg Host.Outcome.next (if_neg (by simp [hn, hr])),
    fun s n hr => congrArg Host.Outcome.next (if_pos (.inr hr)), fun s n hf hc => if_neg (by simp [hf, hc]),
    fun s n hn ha hf => congrArg Host.Outcome.next (if_neg (by simp [hn, ha, hf]))⟩
  · refine congrArg Host.Outcome.next ?_
    have he (x : Bool) : (if 16 ≤ n ∨ s.faults.failed = true ∨ x = false then s else badLane n l (atT t s)) =
        if x = true then badLane n l (atT t s) else s := by
      cases x <;> simp [hn, hf]
    refine (he (laneFails s c)).trans ?_
    cases c with
    | codewords k => exact if_congr decide_eq_true_iff rfl rfl
    | _ => rfl
  · intro t bad
    have ht : t = _ := badLane_eq h0 h4 hl hb hm
    dsimp only at ht
    obtain ⟨hp, hd, hs⟩ := laneDrop_frame n (byariWidth bad) l (portMod n (fun p => { p with
        bad := bad, st := if byariWidth bad = 0 then 0 else 1
        width := if (if byariWidth bad = 0 then 0 else 1) = 0 then 0 else (portGet s n).width }) s)
    rw [ht, hp, hd, hs, portGet_portMod_same]
    exact ⟨rfl, rfl, fun m h => portGet_portMod_other h _ _, rfl, rfl, rfl⟩
  · intro w
    refine congrArg Host.Outcome.next ((if_neg (by simp [hn, hs, hf])).trans ?_)
    rw [hm, trained_byari]
  · rw [giveCredit, freeReplay, portGet_portMod_same, portGet_portMod_same]
  · rw [giveCredit, freeReplay, portGet_portMod_same, portGet_portMod_same]
    exact nth_modify 0 hv (· + b)

/-! ### Flows -/

@[simp] theorem txGet_txMod_same (k : Nat) (f : FlowTx → FlowTx) (s : State) : txGet (txMod k f s) k = f (txGet s k) :=
  sget_sset_same _ _ _ _

theorem txGet_txMod_other {k j : Nat} (h : j ≠ k) (f : FlowTx → FlowTx) (s : State) : txGet (txMod k f s) j = txGet s j :=
  sget_sset_other _ _ _ h _

@[simp] theorem rxGet_rxMod_same (k : Nat) (f : FlowRx → FlowRx) (s : State) : rxGet (rxMod k f s) k = f (rxGet s k) :=
  sget_sset_same _ _ _ _

theorem rxGet_rxMod_other {k j : Nat} (h : j ≠ k) (f : FlowRx → FlowRx) (s : State) : rxGet (rxMod k f s) j = rxGet s j :=
  sget_sset_other _ _ _ h _

@[simp] theorem txGet_rxMod (k j : Nat) (f : FlowRx → FlowRx) (s : State) : txGet (rxMod k f s) j = txGet s j := rfl

@[simp] theorem rxGet_txMod (k j : Nat) (f : FlowTx → FlowTx) (s : State) : rxGet (txMod k f s) j = rxGet s j := rfl

/-- Both directions of a flow start at 0, with nothing unacknowledged. -/
def flowReset (k : Nat) (s : State) : State := rxMod k (fun _ => {}) (txMod k (fun t => { t with next := 0, unacked := [] }) s)

theorem txGet_flowReset {k : Nat} {s : State} (h : (txGet s k).stalled = []) : txGet (flowReset k s) k = {} := by
  rw [flowReset, txGet_rxMod, txGet_txMod_same]
  simp only [h]

/-- Settles O37: acknowledgement, resend and synchronisation of flows, and what a destination accepts. -/
theorem flowsAreReliable : Obligations.FlowsAreReliable := by
  refine ⟨fun s c v q hf => congrArg Host.Outcome.next (if_neg (by simp [hf])), fun s c v q hf => ?_,
    fun s c v hf => congrArg Host.Outcome.next (if_neg (by simp [hf])), fun s c v q hf hw hs => ?_,
    fun s c v q hf => congrArg Host.Outcome.next (if_neg (by simp [hf])),
    fun s c v q hf => ⟨congrArg Host.Outcome.next (if_pos hf), congrArg Host.Outcome.next (if_pos hf),
      congrArg Host.Outcome.next (if_pos hf), congrArg Host.Outcome.next (if_pos hf)⟩,
    fun s f p => ⟨fun h => (if_pos h).trans (by rw [h]), fun hn hl => (if_neg hn).trans (if_pos hl), fun hl hn => ?_⟩⟩
  · intro k u w
    have ha : doFlowAck c v q s = w := if_neg (by simp [hf])
    refine congrArg Host.Outcome.next ((if_neg (by simp [hf])).trans ?_)
    rw [ha]
    rfl
  · have hn : ¬(s.mirror.wardLost = true ∧ c = getO s oWardChipId) := fun ⟨h1, h2⟩ => hw.elim (fun h => by simp [h] at h1) (· h2)
    have htx := txGet_flowReset hs
    refine ⟨flowReset (flowKey c v) s, congrArg Host.Outcome.next ((if_neg (by simp [hf])).trans ?_), htx,
      rxGet_rxMod_same _ _ _, fun k hk => ⟨?_, ?_⟩, rfl, rfl⟩
    · refine (congrArg (fun w => flowDrain (flowKey c v) (txGet w (flowKey c v)).stalled.length w) (if_neg hn)).trans ?_
      change flowDrain _ (txGet (flowReset (flowKey c v) s) (flowKey c v)).stalled.length (flowReset (flowKey c v) s) = _
      rw [htx]
      rfl
    · rw [flowReset, txGet_rxMod, txGet_txMod_other hk]
    · rw [flowReset, rxGet_rxMod_other hk, rxGet_txMod]
  · have hne : f.flowSeq ≠ (rxGet s (flowKey f.srcChip f.vc)).next := by
      intro h
      rw [h] at hl
      simp [seqLe] at hl
    exact (if_neg hne).trans ((if_neg (by simp [hl])).trans (if_pos hn))

end Sys2Proof.Machine


/-! ## Received frames, their effect, collectives and ingest (R328, R392 to R405, R437, R516, R532) -/

namespace Sys2Proof.Machine

open Sys2Proof

/-! ### The hop -/

theorem doFrameReceive_eq {s : State} {n : Nat} (hn : n < 16) (hm : (portGet s n).mode = 1)
    (hs : (portGet s n).st = 2 ∨ (portGet s n).st = 3 ∨ (portGet s n).st = 4) (hf : s.faults.failed = false)
    (b : Bytes) (t : Nat) : doFrameReceive n b t s = match frameDecode b with
      | some f => frameArrives f n (atT t s)
      | none => nakOnce n (linkBump 1 (atT t s)) := by
  have h2 : 2 ≤ (portGet s n).st ∧ (portGet s n).st ≤ 4 := by omega
  refine (if_neg (by simp [hn, hm, h2, hf])).trans ?_
  cases frameDecode b <;> rfl

/-- The checks that a decoded frame has passed. -/
theorem frameDecode_some {b : Bytes} {f : LinkFrame} (h : frameDecode b = some f) : b.length = 72 + 64 * fld b 2 2 ∧
    fld b 2 2 ≤ 64 ∧ f = frameFields b ∧ (crc16 (b.take 62)).toNat = fld b 62 2 ∧ b.drop (64 + 64 * fld b 2 2) = trailer f := by
  unfold frameDecode at h
  dsimp only at h
  split at h
  · next hc =>
    obtain ⟨-, h64, hl, hcrc, htr⟩ := hc
    obtain rfl := Option.some.inj h
    exact ⟨hl, h64, rfl, beq_iff_eq.1 hcrc, htr⟩
  · exact absurd h (by simp)

/-- A sequenced frame costs credit. -/
theorem hopFrame_of_sequenced {f : LinkFrame} (h : opSequenced f.opcode = true) : hopFrame f = false := by
  have h16 : 16 ≤ f.opcode := of_decide_eq_true h
  exact decide_eq_false (by omega)

/-- Settles O38: what a port does with the bytes of a frame. -/
theorem framesAreReceived : Obligations.FramesAreReceived := by
  refine ⟨fun s n b t f hn hm hs hf hd => ?_, fun s n b t hn hm hs hf hd => ?_, fun s n b t h => ?_, fun s n h => if_pos h,
    fun f n s hq => ?_, fun f n s hv hc hs hd => ?_, fun b f h => frameDecode_some h⟩
  · refine congrArg Host.Outcome.next ((doFrameReceive_eq hn hm hs hf b t).trans ?_)
    rw [hd]
  · refine congrArg Host.Outcome.next ((doFrameReceive_eq hn hm hs hf b t).trans ?_)
    rw [hd]
  · refine congrArg Host.Outcome.next (if_pos ?_)
    rcases h with h | h | h <;> simp [h]
  · intro u
    have he : frameArrives f n s = if f.linkSeq = (portGet u n).rxSeq then
        hopAccepted f n (oweCredit n f (portMod n (fun p => { p with rxSeq := (p.rxSeq + 1) % 4096, nakSent := false }) u))
      else nakOnce n u := (if_neg (by simp [hopFrame_of_sequenced hq])).trans (if_pos hq)
    exact ⟨fun h => he.trans (if_pos h), fun h => he.trans (if_neg h)⟩
  · exact (if_neg (not_not.2 hv)).trans ((if_neg hc).trans ((if_neg (by simp [hs])).trans (if_pos hd)))

/-! ### The effect of a frame -/

theorem doGetData_eq (s : State) (f : LinkFrame) : doGetData f s =
    if bits f.operand2 63 1 = 1 ∧ shas s.ingot.asks (f.tag / 1024) = true then repairDenied f.tag s
    else if s.boot.chip = .waking ∧ getO s oTakeoverState = 2 ∧ ¬s.mirror.restored = true ∧ bits f.operand2 63 1 = 0 then
      { s with mirror := { s.mirror with copied := s.mirror.copied ++ [f.payload] } }
    else s := rfl

/-- An ATOMIC that its source may do at a place that is there. -/
theorem doAtomicFrame_eq {s u : State} {f : LinkFrame} {a o : Nat} (hc : f.operand2 % 8 ≤ 3)
    (hr : remoteAllowed s f f.address (atomicWidth (f.operand2 % 8)) = true) (ht : targetOf s f f.address = some a)
    (ho : atomicOp (f.operand2 % 8) false a f.operand 0 [] s = (some o, u)) : doAtomicFrame f s =
      if atomicReturns f then flowSend { newFrame u opAtomicResp f.srcChip with operand := o, tag := f.tag } u else u := by
  have h4 : f.operand2 % 8 ≠ 4 := by omega
  have h4' : ¬4 < f.operand2 % 8 := by omega
  simp only [doAtomicFrame, ht, if_neg h4, ho]
  exact if_neg (by simp [h4', hr])

/-- Settles O39: the effect of each frame, and what each that is denied gets. -/
theorem framesActAtTheirDestination : Obligations.FramesActAtTheirDestination := by
  refine ⟨fun s f h => ⟨fun h1 => ?_, fun h1 => ?_⟩, fun s f h => congrArg Host.Outcome.next (if_neg (by simp [h])),
    fun s f => rfl, fun s f d u ha hb => ?_, fun s f h => congrArg Host.Outcome.next (if_pos (by simp [h])),
    fun s f hc ht hr hb => ?_, fun s f hb ha => congrArg Host.Outcome.next (if_pos ⟨hb, ha⟩), fun s f hc h => ?_,
    fun s f a o u hc hr ht ho => ?_, fun s f a o u hc hr ht ho => ?_, fun s f h => ?_, fun s f => rfl,
    fun s f hp => ⟨congrArg Host.Outcome.next (if_pos hp), fun hl => ?_⟩,
    fun s f hp => ⟨congrArg Host.Outcome.next (if_neg (by simp [hp])), congrArg Host.Outcome.next (if_pos (by simp [hp])),
      congrArg Host.Outcome.next (if_pos (by simp [hp]))⟩, fun s f => rfl, fun s f hp => ?_, fun s f h => ?_, fun s f h => ?_⟩
  · exact congrArg Host.Outcome.next ((if_pos h).trans (if_pos h1))
  · exact congrArg Host.Outcome.next ((if_pos h).trans (if_neg h1))
  · refine congrArg Host.Outcome.next ?_
    simp only [doGet, hb]
    exact if_neg (by simp [ha])
  · rw [show exec (.getData f) s = .next (doGetData f s) from rfl, doGetData_eq, if_neg (by simp [hb]),
      if_pos ⟨hc, ht, by simp [hr], hb⟩]
  · rw [show exec (.getData f) s = .next (doGetData f s) from rfl, doGetData_eq, if_neg (by rcases h with h | h <;> simp [h]),
      if_neg (by simp [hc])]
  · rw [← hc] at hr ho
    refine congrArg Host.Outcome.next ((doAtomicFrame_eq (by omega) hr ht ho).trans (if_pos ?_))
    simp [atomicReturns, hc]
  · refine congrArg Host.Outcome.next ((doAtomicFrame_eq (by omega) hr ht ho).trans (if_neg ?_))
    simp only [atomicReturns, Bool.or_eq_true, beq_iff_eq]
    omega
  · refine congrArg Host.Outcome.next ((if_pos (.inl h)).trans (if_neg ?_))
    simp only [atomicReturns, Bool.or_eq_true, beq_iff_eq]
    omega
  · exact congrArg Host.Outcome.next ((if_neg (by simp [hp])).trans (if_neg (by simp [hl])))
  · have he : doDict f s = if bits f.operand 24 1 = 1 then dictWriteFrame f (neighbourAccess f s).1 (neighbourAccess f s).2
        else dictRead f (neighbourAccess f s).1 (neighbourAccess f s).2 := if_neg (by simp [hp])
    exact ⟨(neighbourAccess f s).1, (neighbourAccess f s).2, rfl, rfl, rfl,
      fun h => congrArg Host.Outcome.next (he.trans (if_pos h)), fun h => congrArg Host.Outcome.next (he.trans (if_neg h))⟩
  · refine ⟨{ s with
      links := { s.links with gets := s.links.gets.filter (fun (x : Nat × Nat) => !(x.1 == f.tag && x.2 == f.srcChip)) }
      mirror := { s.mirror with probeAt := none } }, congrArg Host.Outcome.next ?_, fun hm => ?_, rfl, rfl, rfl, rfl⟩
    · unfold doDictResp
      cases hx : s.links.gets.find? (fun (x : Nat × Nat) => x.1 == f.tag && x.2 == f.srcChip) with
      | some x => rfl
      | none => exact absurd (List.find?_eq_none.1 hx _ h) (by simp)
    · exact absurd (List.mem_filter.1 hm).2 (by simp)
  · refine congrArg Host.Outcome.next ?_
    unfold doDictResp
    cases hx : s.links.gets.find? (fun (x : Nat × Nat) => x.1 == f.tag && x.2 == f.srcChip) with
    | none => rfl
    | some x =>
      have hm := List.mem_of_find?_eq_some hx
      have hp := List.find?_some hx
      simp only [Bool.and_eq_true, beq_iff_eq] at hp
      exact absurd (show (f.tag, f.srcChip) ∈ s.links.gets by rw [← hp.1, ← hp.2]; exact hm) h

/-! ### Collectives and ingest -/

/-- A LAST without payload or signal is noted, and closes an instance that it completes. -/
theorem applyReduce_last {s : State} {f : LinkFrame} {x : CollInst} (hp : f.payload = []) (hs : f.signal = false)
    (hl : f.lastFrame = true) (hx : f.srcChip ∉ x.lasts) : applyReduce f x s =
      if instDone s { x with lasts := x.lasts ++ [f.srcChip] } then closeInst { x with lasts := x.lasts ++ [f.srcChip] } s
      else putInst { x with lasts := x.lasts ++ [f.srcChip] } s := by
  have hb : fBursts f = 0 := by simp [fBursts, hp]
  simp only [applyReduce, hb, addAbove, hs, hp, hl, hx, List.contains_iff_mem, not_false_eq_true, and_self, if_true]
  rfl

theorem doIngest_ok {s : State} {d : Datagram} (hp : ingestPort s d.port = true) (hu : d.udpPort = getO s oIngestUdpPort)
    (hf : s.faults.failed = false) (ho : ingestOk s d = true) {a : Nat} {u : State}
    (hw : u = tenantWrite .normal (fld (getS s (oIngestChannel + byteAt d.payload 0)) 0 2)
      (fld (getS s (oIngestChannel + byteAt d.payload 0)) 8 8 + 64 * fld d.payload 8 4) (d.payload.drop 32) s)
    (ha : translate u (fld (getS s (oIngestChannel + byteAt d.payload 0)) 0 2)
      (fld (getS s (oIngestChannel + byteAt d.payload 0)) 24 8) = some a) : doIngest d s =
      linkBump 9 (ingestGap (byteAt d.payload 0) (fld d.payload 4 4) (atomicOp 0 false a (byteAt d.payload 1) 0 [] u).2) := by
  subst hw
  simp only [doIngest, ha]
  exact (if_neg (by simp [hp, hu, hf])).trans (if_neg (by simp [ho]))

/-- Settles O40: contributions, deadlines and datagrams. -/
theorem collectivesAndIngest : Obligations.CollectivesAndIngest := by
  refine ⟨fun s f h => congrArg Host.Outcome.next (if_pos (by simp [h])),
    fun s f ha ho => congrArg Host.Outcome.next ((if_neg (by simp [ha])).trans (if_pos ho)), fun s f x ha ho hi => ?_,
    fun s f ha ho hi hl => ?_, fun s f x hp hs hl hx => applyReduce_last hp hs hl hx,
    fun s f => ⟨doLate f s, rfl, ?_, ?_, rfl, rfl, rfl⟩, fun s g n t x hi ht hd ha => ?_, fun s g n t x hi h => ?_,
    fun s d hp hu hf ho => congrArg Host.Outcome.next ((if_neg (by simp [hp, hu, hf])).trans (if_pos (by simp [ho]))),
    fun s d hp hu hf ho => fun a ha => congrArg Host.Outcome.next (doIngest_ok hp hu hf ho rfl ha), fun s d h => ?_⟩
  · refine congrArg Host.Outcome.next ?_
    simp only [doReduce, hi]
    exact (if_neg (by simp [ha])).trans (if_neg (by simp [ho]))
  · refine congrArg Host.Outcome.next ?_
    simp only [doReduce, hi]
    exact (if_neg (by simp [ha])).trans ((if_neg (by simp [ho])).trans (if_neg (not_le.2 hl)))
  · refine List.map_map.trans (List.map_congr_left fun x _ => ?_)
    dsimp only [Function.comp_apply]
    split <;> rfl
  · refine List.map_map.trans (List.map_congr_left fun x _ => ?_)
    dsimp only [Function.comp_apply]
    split <;> rfl
  · refine congrArg Host.Outcome.next ?_
    simp only [doCollectiveTimeout, hi]
    exact if_neg (by simp [ht, hd, ha])
  · refine congrArg Host.Outcome.next ?_
    simp only [doCollectiveTimeout, hi]
    exact if_pos (h.imp_right .inl)
  · refine congrArg Host.Outcome.next (if_pos ?_)
    rcases h with h | h <;> simp [h]

end Sys2Proof.Machine


/-! ## Sessions and their requests (R485 to R487, R493, R506, R508, R510 to R515) -/

namespace Sys2Proof.Machine

open Sys2Proof

/-! ### A free key -/

/-- A search with as many tries as there are keys from its start on ends at a key that is free. -/
theorem sfind_sfree {α : Type} (m : SMap α) (fuel n : Nat) (h : (m.filter (fun e => decide (n ≤ e.1))).length ≤ fuel) :
    sfind m (sfree m fuel n) = none := by
  induction fuel generalizing n with
  | zero =>
    refine sfind_none m n fun e he hn => ?_
    have hm : e ∈ m.filter (fun e => decide (n ≤ e.1)) := List.mem_filter.2 ⟨he, decide_eq_true hn.ge⟩
    rw [List.eq_nil_of_length_eq_zero (Nat.le_zero.1 h)] at hm
    exact List.not_mem_nil hm
  | succ fuel ih =>
    rw [sfree]
    split
    · next hs =>
      refine ih (n + 1) (Nat.le_of_lt_succ (lt_of_lt_of_le ?_ h))
      have hf : m.filter (fun e => decide (n + 1 ≤ e.1)) =
          (m.filter (fun e => decide (n ≤ e.1))).filter (fun e => decide (e.1 ≠ n)) := by
        rw [List.filter_filter]
        refine List.filter_congr fun e _ => ?_
        rw [← Bool.decide_and, decide_eq_decide]
        omega
      rw [hf, List.length_filter_lt_length_iff_exists]
      by_contra hx
      refine absurd (sfind_none m n fun e he hn => hx ⟨e, List.mem_filter.2 ⟨he, decide_eq_true hn.ge⟩, by simp [hn]⟩) ?_
      exact Option.isSome_iff_ne_none.1 hs
    · next hs => simpa [shas] using hs

/-! ### Sessions -/

theorem sessGet_of_sec {s t : State} (h : t.sec = s.sec) : sessGet t = sessGet s := by
  unfold sessGet
  rw [h]

theorem sessGet_closeSession_same (id : Nat) (s : State) : sessGet (closeSession id s) id = none := sfind_sdel_same _ _

theorem sessGet_closeSession_other {id j : Nat} (h : j ≠ id) (s : State) : sessGet (closeSession id s) j = sessGet s j :=
  sfind_sdel_other _ h

theorem closeSession_vals (id : Nat) (s : State) : (closeSession id s).dict.vals = s.dict.vals := rfl

theorem answer_sec (code : Nat) (s : State) : (answer code s).sec = s.sec := by
  unfold answer
  dsimp only
  split <;> rfl

theorem getO_answer_other {k : Nat} (h : k ≠ oDictAbortCount) (code : Nat) (s : State) : getO (answer code s) k = getO s k := by
  unfold answer
  dsimp only
  split
  · rfl
  · exact getO_bump_other _ h

theorem failSession_eq (id q p : Nat) (s : State) : ∃ e, failSession id q p s =
    emit e (answer abAuth (closeSession id (bump s oAuthFailCount))) := ⟨_, rfl⟩

/-- The session that a HELLO opens: its id is free, and nothing else but the draws and the outputs changes. -/
theorem doHello_opens {s : State} {k n e : Bytes} {q p t : Nat} (hp : s.boot.porstN = true) (hk : k.length = 65)
    (hn : n.length = 32) (he : e.length = 65) (hq : p < 2) (hs : s.sec.sessions.length < 8) : ∃ id x o d,
    sfind s.sec.sessions id = none ∧ x.clientKey = k ∧ x.nonceC = n ∧ x.clientEph = e ∧ x.accepted = false ∧
      x.challengedAt = (atT t s).time.now ∧ doHello k n e q p t s = emit o { atT t s with
        draws := d, sec := { s.sec with sessions := sput s.sec.sessions id x } } := by
  let x := drawBytes 32 (atT t s)
  let y := draw x.2
  let id := sfree s.sec.sessions 9 (1 + y.1 % (2 ^ 32 - 10))
  have hid : sfind s.sec.sessions id = none := by
    refine sfind_sfree _ _ _ ((List.length_filter_le _ _).trans ?_)
    omega
  refine ⟨id, ⟨k, n, x.1, e, y.2.draws, transcript k n e x.1 id y.2.draws, (atT t s).time.now, false, .installer, [], 0, 0, []⟩,
    .puerelm p (openMsg 0x02 id q (x.1 ++ natLe 4 id ++ ephKey y.2.draws ++
      padTo 64 (Config.deviceSignature (sha256 (transcript k n e x.1 id y.2.draws))))), y.2.draws + 1, hid, rfl, rfl, rfl, rfl, rfl, ?_⟩
  refine (if_neg (not_not.2 hp)).trans ((if_neg ?_).trans (if_neg (not_le.2 hs)))
  omega

/-- A PROOF for a session that waits for it. -/
theorem doProof_eq {s : State} {id : Nat} {x : Session} (hp : s.boot.porstN = true) (hx : sessGet s id = some x)
    (ha : x.accepted = false) (q : Nat) (g : Bytes) (p t : Nat) : doProof id q g p t s =
      if x.challengedAt + 1000000000 < (atT t s).time.now then failSession id q p (atT t s)
      else match principalOf (atT t s) x.clientKey, sessionKey x id with
        | some who, some key => if ecdsaVerify x.clientKey x.hash g = true then
            emit (.puerelm p (openMsg 0x04 id q (natLe 1 (whoCode who) ++ natLe 2 (whoTenant who))))
              (sessMod id (fun x => { x with accepted := true, who := who, key := key }) (atT t s))
            else failSession id q p (atT t s)
        | _, _ => failSession id q p (atT t s) := by
  have hx' : sessGet (atT t s) id = some x := hx
  simp only [doProof, hp, if_true, hx', ha, Bool.false_eq_true, if_false]
  refine if_congr Iff.rfl rfl ?_
  cases principalOf (atT t s) x.clientKey with
  | none => rfl
  | some who =>
    cases sessionKey x id with
    | none => rfl
    | some key => exact ite_not _ _ _

/-! ### Requests -/

/-- A message of an accepted session in order, whose HMAC holds. -/
theorem authentic_some {s : State} {n : Nat} {m : ClientMsg} {x : Session} (h : authentic s n m = some x) :
    sessGet s m.session = some x ∧ x.accepted = true ∧ x.rxSeq < m.sequence ∧
      m.mac = hmac x.key (msgHeader n m.session m.sequence m.requestId m.body.length ++ m.body) := by
  unfold authentic at h
  cases hx : sessGet s m.session with
  | none => simp [hx] at h
  | some y =>
    simp only [hx] at h
    split at h
    · next hc =>
      obtain rfl := Option.some.inj h
      simp only [Bool.and_eq_true, beq_iff_eq, decide_eq_true_eq] at hc
      obtain ⟨⟨⟨ha, -⟩, hm⟩, hq⟩ := hc
      exact ⟨rfl, ha, hq, hm⟩
    · exact absurd h (by simp)

/-- A request of an open session is dropped, answered from what is stored, or carried out. -/
theorem request_eq {s : State} (hp : s.boot.porstN = true) (n : Nat) (m : ClientMsg) (f : Access → State → Bytes × State) :
    request n m f s = match authentic (atT m.time s) n m with
      | none => bump (atT m.time s) oPuerelmDropCount
      | some x =>
        let u := sessMod m.session (fun y => { y with rxSeq := m.sequence }) (atT m.time s)
        match x.cache.find? (fun e => e.1 == m.requestId) with
        | some e => respondAgain x m e.2 u
        | none =>
          let r := f ⟨x.who, .session m.session, m.nvFails⟩ u
          respond x m r.1 r.2 := by
  refine (if_neg (not_not.2 hp)).trans ?_
  dsimp only
  cases authentic (atT m.time s) n m with
  | none => rfl
  | some x =>
    dsimp only
    cases x.cache.find? (fun e => e.1 == m.requestId) <;> rfl

/-- Settles O58: how sessions open, are proved and end, and how their requests are answered. -/
theorem sessionsAndRequests : Obligations.SessionsAndRequests := by
  refine ⟨fun s k n e q p t hp hk hn he hq hs => ?_, fun s k n e q p t hp hk hn he hq hs => ?_,
    fun s id q g p t x hp hx ha ht => ?_, fun s id q g p t x hp hx ha ht => ?_, fun s id q p => ?_,
    fun s id x hx ha => ⟨?_, ?_⟩, fun s id x hx ha => ⟨?_, ?_⟩,
    fun s id => ⟨sessGet_closeSession_same _ _, fun j hj => sessGet_closeSession_other hj s⟩, fun s m hp => ?_, fun s id h => ?_,
    fun s m c f n h hp => ?_, fun s n m x h => authentic_some h, fun s h n b w hm => ?_, fun s a i j v hi hj => ?_⟩
  · obtain ⟨id, x, o, d, hid, h1, h2, h3, h4, h5, ht⟩ := doHello_opens (q := q) (t := t) hp hk hn he hq hs
    refine ⟨_, id, x, congrArg Host.Outcome.next ht, hid, sfind_sput_same _ _ _, h1, h2, h3, h4, h5,
      fun j hj => sfind_sput_other _ hj _, ?_, rfl⟩
    exact List.length_append.trans rfl
  · refine congrArg Host.Outcome.next ((if_neg (not_not.2 hp)).trans ((if_neg ?_).trans (if_pos hs)))
    omega
  · exact congrArg Host.Outcome.next ((doProof_eq hp hx ha q g p t).trans (if_neg (not_lt.2 ht)))
  · exact congrArg Host.Outcome.next ((doProof_eq hp hx ha q g p t).trans (if_pos ht))
  · obtain ⟨e, he⟩ := failSession_eq id q p s
    rw [he]
    refine ⟨?_, ?_⟩
    · rw [sessGet_of_sec (emit_sec _ _), sessGet_of_sec (answer_sec _ _), sessGet_closeSession_same]
    · rw [getO_emit, getO_answer_other (by decide), getO_of_vals (closeSession_vals _ _), getO_bump_same]
  · refine congrArg Host.Outcome.next ?_
    simp only [doProofTimeout, hx]
    exact if_neg (by simp [ha])
  · refine congrArg Host.Outcome.next ?_
    simp only [doSessionIdle, hx]
    exact if_neg (by simp [ha])
  · refine congrArg Host.Outcome.next ?_
    simp only [doSessionIdle, hx]
    exact if_pos ha
  · refine congrArg Host.Outcome.next ?_
    simp only [doProofTimeout, hx]
    exact if_pos ha
  · refine congrArg Host.Outcome.next ((if_neg (not_not.2 hp)).trans ?_)
    dsimp only
    cases authentic (atT m.time s) 0x21 m <;> rfl
  · obtain ⟨x, hx⟩ := Option.isSome_iff_exists.1 h
    refine congrArg Host.Outcome.next ?_
    simp only [doTransferTimeout, hx]
  · simp only [List.mem_cons, List.not_mem_nil, or_false, Prod.mk.injEq] at h
    rcases h with ⟨rfl, rfl, rfl⟩ | ⟨rfl, rfl, rfl⟩ | ⟨rfl, rfl, rfl⟩ | ⟨rfl, rfl, rfl⟩
    · exact congrArg Host.Outcome.next (request_eq hp _ m _)
    · exact congrArg Host.Outcome.next (request_eq hp _ m _)
    · exact congrArg Host.Outcome.next (request_eq hp _ m _)
    · exact congrArg Host.Outcome.next (request_eq hp _ m _)
  · exact congrArg Host.Outcome.next (if_neg (not_not.2 hm))
  · exact congrArg Host.Outcome.next (if_neg (by omega))

end Sys2Proof.Machine


/-! ## Writes of the security objects (R389, R476 to R495, R502, R519, R521, R553) -/

namespace Sys2Proof.Machine

open Sys2Proof

/-! ### Writes that reach NV -/

/-- A write that counts at NV is refused where its NV write fails. -/
theorem nvAnswer_counted {a : Access} {s : State} {r : Nat × State} (h0 : r.1 = abOk)
    (hc : getO r.2 oDictNvWriteCount = (getO s oDictNvWriteCount + 1) % 2 ^ 64) :
    nvAnswer a s r = if a.nvFails = true then (abNvFault, s) else r := by
  have hne : getO r.2 oDictNvWriteCount ≠ getO s oDictNvWriteCount := by
    rw [hc]
    omega
  unfold nvAnswer
  cases a.nvFails with
  | true => exact if_pos ⟨rfl, h0, hne⟩
  | false => exact if_neg (by simp)

/-- An answer that leaves the state as it was stands. -/
theorem nvAnswer_unchanged (a : Access) (s : State) (e : Nat) : nvAnswer a s (e, s) = (e, s) :=
  if_neg fun h => h.2.2 rfl

/-! ### Sessions that end -/

/-- The sessions that end go; only their list and the access contexts change. -/
theorem foldl_closeSession (l : List (Nat × Session)) (s : State) : ∃ c, l.foldl (fun s e => closeSession e.1 s) s = { s with
    sec := { s.sec with sessions := s.sec.sessions.filter (fun e => l.all (fun x => e.1 != x.1)) }
    dict := { s.dict with ctxs := c } } := by
  induction l generalizing s with
  | nil => exact ⟨s.dict.ctxs, by simp⟩
  | cons x l ih =>
    obtain ⟨c, hc⟩ := ih (closeSession x.1 s)
    refine ⟨c, hc.trans ?_⟩
    have hf : (closeSession x.1 s).sec.sessions.filter (fun e => l.all (fun x => e.1 != x.1)) =
        s.sec.sessions.filter (fun e => (x :: l).all (fun x => e.1 != x.1)) := by
      refine (List.filter_filter).trans (List.filter_congr fun e _ => ?_)
      rw [List.all_cons, Bool.and_comm]
    rw [hf]
    rfl

theorem closeSessions_eq (p : Session → Bool) (s : State) : ∃ l c, closeSessions p s = { s with
    sec := { s.sec with sessions := l }, dict := { s.dict with ctxs := c } } ∧ ∀ e ∈ l, p e.2 = false := by
  obtain ⟨c, hc⟩ := foldl_closeSession (s.sec.sessions.filter (fun e => p e.2)) s
  refine ⟨_, c, hc, fun e he => ?_⟩
  obtain ⟨hm, ha⟩ := List.mem_filter.1 he
  by_contra hp
  exact absurd (List.all_eq_true.1 ha e (List.mem_filter.2 ⟨hm, Bool.eq_true_of_not_eq_false hp⟩)) (by simp)

theorem getO_closeSessions (p : Session → Bool) (s : State) (k : Nat) : getO (closeSessions p s) k = getO s k := by
  obtain ⟨l, c, h, -⟩ := closeSessions_eq p s
  rw [h]
  rfl

/-! ### Keys -/

/-- The owner's install leaves its key and no session. -/
theorem installOwner_owner (key : Bytes) (s : State) :
    (installOwner key s).sec.ownerKey = some key ∧ (installOwner key s).sec.sessions = [] := by
  obtain ⟨l, c, h, hl⟩ := closeSessions_eq (fun _ => true) (bump { s with sec := { s.sec with ownerKey := some key } } oDictNvWriteCount)
  unfold installOwner
  rw [h]
  exact ⟨rfl, List.eq_nil_iff_forall_not_mem.2 fun e he => Bool.noConfusion (hl e he)⟩

theorem getO_putKey_count (r : Bytes) (s : State) :
    getO (putKey r s) oDictNvWriteCount = (getO s oDictNvWriteCount + 1) % 2 ^ 64 := getO_bump_same _ _

theorem getO_dropKey_count (k : Bytes) (s : State) :
    getO (dropKey k s) oDictNvWriteCount = (getO s oDictNvWriteCount + 1) % 2 ^ 64 := by
  unfold dropKey
  rw [getO_closeSessions, getO_bump_same]
  rfl

theorem dropKey_keys (k : Bytes) (s : State) : (dropKey k s).sec.keys = s.sec.keys.filter (fun r => r.take 65 != k) := by
  unfold dropKey
  obtain ⟨l, c, h, -⟩ := closeSessions_eq (fun x => x.clientKey == k)
    (bump { s with sec := { s.sec with keys := s.sec.keys.filter (fun r => r.take 65 != k) } } oDictNvWriteCount)
  rw [h]
  rfl

theorem keyRule_refuses {s : State} {r : Bytes}
    (h : recSerial r ≤ s.sec.highSerial ∨ ownerSigned s (sub r 0 96) (sub r 96 64) = false) : keyRule s r ≠ 0 := by
  unfold keyRule
  split
  · decide
  · next hn =>
    have ho := h.resolve_left fun h => hn (.inr h)
    rw [if_pos (by simp [ho])]
    decide

theorem doKeyAuthorise_eq {a : Access} {r : Bytes} {s : State} (hg : gate s a oKeyAuthorise r = 0) :
    doKeyAuthorise a r s = if keyRule s r = 0 then (abOk, putKey r s) else (keyRule s r, s) := by
  simp only [doKeyAuthorise, hg]
  split
  · next h => rw [if_pos h]
  · next h => rw [if_neg h]

/-! ### Versions, pins -/

theorem version_row {k : Nat} (h : k < 4) : (objRow ((oSecurityVersionMin + k) / 256) ((oSecurityVersionMin + k) % 256)).any
    (fun d => isNum d.typ && d.persistent) = true := by
  interval_cases k <;> decide

theorem getO_applyNow_count {k : Nat} (h : k < 4) (v : Bytes) (s : State) :
    getO (applyNow (oSecurityVersionMin + k) v s) oDictNvWriteCount = (getO s oDictNvWriteCount + 1) % 2 ^ 64 := by
  obtain ⟨d, hd, hn, hp⟩ := exists_row (version_row h)
  rw [applyNow_number hd hn hp, getO_nvStore_count, getO_setO_other]
  interval_cases k <;> decide

/-- Settles O59: each write follows the branch of its case. -/
theorem securityWritesTakeEffect : Obligations.SecurityWritesTakeEffect := by
  refine ⟨fun s a v h => congrArg (Host.Outcome.next ∘ answerWrite) (if_pos h), fun s a v h hg => ?_, fun s key => installOwner_owner key s,
    fun s a r hg => ?_, fun s r => ⟨keyRule_refuses, List.getLast?_concat, rfl⟩, fun s a d k hg hk => ⟨?_, fun r hr => ?_⟩,
    fun s a d hg hk => ?_, fun s a v hg => ?_, fun s a k hg hk => ?_, fun s a v hg => ⟨fun hr => ?_, fun hr => ?_⟩,
    fun s a hg hr => ?_, fun s a g hg => ⟨fun h => ?_, fun h => ?_⟩, fun s a g hg => ?_, fun s a v hg => ?_,
    fun s i j e h => ⟨?_, ?_⟩, fun s p g hp h16 hm hs => ?_, fun s j h => ?_, fun s j hp hb h => ?_⟩
  · intro key
    refine congrArg (Host.Outcome.next ∘ answerWrite) ((if_neg (by simp [h])).trans ?_)
    simp only [ownerInstallCode, hg]
    by_cases hv : ecdsaVerify key (installBytes s key) (sub v 65 64) = true
    · rw [if_pos hv]
      exact (if_pos hv).symm
    · rw [if_neg hv]
      exact (if_neg hv).symm
  · refine congrArg (Host.Outcome.next ∘ answerWrite) ?_
    rw [doKeyAuthorise_eq hg]
    split
    · exact nvAnswer_counted rfl (getO_putKey_count r s)
    · exact nvAnswer_unchanged a s _
  · refine congrArg (Host.Outcome.next ∘ answerWrite) ?_
    simp only [doKeyRevoke, hg, hk]
    exact nvAnswer_counted rfl (getO_dropKey_count k s)
  · rw [dropKey_keys] at hr
    exact bne_iff_ne.1 (List.mem_filter.1 hr).2
  · refine congrArg (Host.Outcome.next ∘ answerWrite) ?_
    simp only [doKeyRevoke, hg, hk]
    exact nvAnswer_unchanged a s _
  · refine congrArg (Host.Outcome.next ∘ answerWrite) ?_
    simp only [doFirmwareStage, hg]
    by_cases hf : imForm v = true ∧ minVersion s (imKind v) ≤ imVersion v
    · obtain ⟨h1, h2⟩ := hf
      refine Eq.trans ((if_neg (by simp [h1, h2])).trans ?_) (if_pos ⟨h1, h2⟩).symm
      cases imSigned v <;> rfl
    · refine Eq.trans (if_pos ?_) (if_neg hf).symm
      rw [not_and_or, not_le] at hf
      exact hf.imp_left fun h => by simp [h]
  · refine congrArg (Host.Outcome.next ∘ answerWrite) ?_
    simp only [doRollbackCommit, hg, if_neg (not_le.2 hk)]
    exact nvAnswer_counted rfl (getO_applyNow_count hk _ s)
  · refine congrArg (Host.Outcome.next ∘ answerWrite) ?_
    simp only [doAttestNonce, hg, makePending, hr]
    rfl
  · refine congrArg (Host.Outcome.next ∘ answerWrite) ?_
    simp only [doAttestNonce, hg, makePending, hr]
    rfl
  · refine congrArg (Host.Outcome.next ∘ answerWrite) ?_
    have hg' : gate s a oStatsSnapshotRequest (natLe 1 1) = 0 := hg
    have hr' : pendingRoom (withoutOwn a oStatsSnapshotRequest s) (natLe 1 1) = true := hr
    simp only [doStatsRequest, hg', makePending, hr']
    rfl
  · refine congrArg (Host.Outcome.next ∘ answerWrite) ?_
    simp only [doShareGrant, hg, h]
  · refine congrArg (Host.Outcome.next ∘ answerWrite) ?_
    simp only [doShareGrant, hg]
  · refine congrArg (Host.Outcome.next ∘ answerWrite) ?_
    simp only [doShareRevoke, hg]
  · refine congrArg (Host.Outcome.next ∘ answerWrite) ?_
    simp only [doRestoreDefaults, hg]
    rfl
  · refine congrArg Host.Outcome.next ?_
    simp only [doNvComplete, h]
    rfl
  · refine congrArg Host.Outcome.next ?_
    simp only [doNvComplete, h]
    rfl
  · refine congrArg Host.Outcome.next ((if_pos ?_).trans rfl)
    rcases hs with hs | hs <;> simp [hp, h16, hm, hs]
  · rcases h with rfl | rfl | rfl | ⟨hp, rfl | rfl | rfl⟩
    · rfl
    · rfl
    · rfl
    all_goals
      refine congrArg Host.Outcome.next ?_
      simp [doJtag, hp]
  · refine congrArg Host.Outcome.next ?_
    rcases h with rfl | rfl | rfl <;> simp [doJtag, hp, hb]

end Sys2Proof.Machine


/-! ## Writes of the tick, the pins and the tenants (R20, R21, R27, R42, R354, R358, R359, R492, R508) -/

namespace Sys2Proof.Machine

open Sys2Proof

/-! ### Pending writes -/

/-- A write kept for the mirror changes the mirror alone. -/
theorem noteConfig_dict (k : Nat) (v : Bytes) (s : State) : (noteConfig k v s).dict = s.dict := by
  unfold noteConfig
  split <;> rfl

theorem makePending_full {a : Access} {k : Nat} {s : State} {v : Bytes} (h : pendingRoom (withoutOwn a k s) v = false) :
    makePending a k v s = (abBusy, s) := if_neg (by simp [h])

theorem makePending_room {a : Access} {k : Nat} {s : State} {v : Bytes} (h : pendingRoom (withoutOwn a k s) v = true) :
    makePending a k v s = (abOk, noteConfig k v (addPending a k v s)) := if_pos h

theorem pendingRoom_iff {s : State} {v : Bytes} : pendingRoom s v = true ↔
    (s.dict.pending.filter (fun p => p.due == dueTick s)).length < 1024 ∧
      sumN ((s.dict.pending.filter (fun p => p.due == dueTick s)).map (fun p => p.value.length)) + v.length ≤ 262144 := by
  simp [pendingRoom]

theorem dueTick_eq {s : State} (h : s.time.tickNo < 2 ^ 63) :
    dueTick s = if s.time.phase = .sealed then s.time.tickNo + 2 else s.time.tickNo + 1 := by
  unfold dueTick
  by_cases hp : s.time.phase = .sealed
  · rw [if_pos hp, if_pos (beq_iff_eq.2 hp), Nat.mod_eq_of_lt (by omega)]
  · rw [if_neg hp, if_neg (fun h => hp (beq_iff_eq.1 h)), Nat.mod_eq_of_lt (by omega)]

/-! ### The writes -/

theorem doTickPeriod_eq {a : Access} {j : Nat} {b : Bytes} {s : State} (h0 : 0 < j) (h3 : j ≤ 3)
    (hg : gate s a (oTickPeriodNs + j - 1) b = 0) : doTickPeriod a j b s =
      let p := s.time.pend.getD ((storedGrid s).i, (storedGrid s).n, (storedGrid s).d)
      let q : Nat × Nat × Nat := if j = 1 then (leNat b, p.2.1, p.2.2) else if j = 2 then (p.1, leNat b, p.2.2)
        else (p.1, p.2.1, leNat b)
      if (!periodOk q.1 q.2.1 q.2.2) = true ∨ (!periodMarksOk s q.1 q.2.1) = true then (abRange, s)
      else (abOk, { s with time := { s.time with pend := some q } }) := by
  simp only [doTickPeriod, hg]
  exact if_neg (by omega)

theorem leNat_natLe_of_lt {n v : Nat} (h : v < 256 ^ n) : leNat (natLe n v) = v := by
  rw [leNat_natLe, Nat.mod_eq_of_lt h]

theorem syncPinRule_taken {s : State} {p o : Nat} (ho : o < 4) (hn : o ≠ p) (h : nextO s (oSyncPinFunction + o) = 1) :
    syncPinRule s p 1 = abInUse := by
  refine (if_neg (by decide)).trans (if_pos ⟨rfl, List.any_eq_true.2 ⟨o, List.mem_range.2 ho, ?_⟩⟩)
  simp [hn, h]

/-- Settles O60: each write follows the branch of its case. -/
theorem tickAndTenantWrites : Obligations.TickAndTenantWrites := by
  refine ⟨fun s a j v h0 h3 => ?_, fun s a v hg hv h64 => ⟨fun hp hn => ?_, fun hn => ?_⟩, fun s a hg => ?_,
    fun s a p o hp ho hn hg hx => ?_, fun s a p v hp hg hr => ?_, fun s a k v => ⟨makePending_full, fun h => ?_⟩,
    fun s h => dueTick_eq h, fun s v => pendingRoom_iff, fun s a n v hn hg hr => ?_, fun s a n t hn hg hm => ?_,
    fun s a n v hn hg => ⟨fun hv => ?_, fun hv => ?_⟩⟩
  · intro b hg p q
    refine ⟨fun hp hm => congrArg (Host.Outcome.next ∘ answerWrite) ((doTickPeriod_eq h0 h3 hg).trans (if_neg ?_)),
      fun h => congrArg (Host.Outcome.next ∘ answerWrite) ((doTickPeriod_eq h0 h3 hg).trans (if_pos ?_))⟩
    · rintro (h | h)
      · exact absurd hp (by simpa using h)
      · exact absurd hm (by simpa using h)
    · exact h.imp (fun h => by rw [Bool.not_eq_true']; exact h) (fun h => by rw [Bool.not_eq_true']; exact h)
  · refine congrArg (Host.Outcome.next ∘ answerWrite) ?_
    simp only [doRegridNo, hg, leNat_natLe_of_lt (n := 8) h64, hp]
    exact (if_neg hv.ne').trans (if_neg (by simp [hn]))
  · refine congrArg (Host.Outcome.next ∘ answerWrite) ?_
    simp only [doRegridNo, hg, leNat_natLe_of_lt (n := 8) h64]
    exact (if_neg hv.ne').trans (if_pos (.inl hn))
  · refine congrArg (Host.Outcome.next ∘ answerWrite) ?_
    simp only [doRegridNo, hg]
    exact if_pos rfl
  · refine congrArg (Host.Outcome.next ∘ answerWrite) ?_
    have hg' : gate s a (oSyncPinFunction + p) (natLe 1 1) = 0 := hg
    have hr : syncPinRule s p (leNat (natLe 1 1)) = abInUse := syncPinRule_taken ho hn hx
    simp only [doSyncPin, hg', hr]
    exact if_neg (not_le.2 hp)
  · refine congrArg (Host.Outcome.next ∘ answerWrite) ?_
    simp only [doSyncPin, hg, hr]
    exact if_neg (not_le.2 hp)
  · refine ⟨_, makePending_room h, ?_, fun q hq => ?_, ?_⟩
    · rw [noteConfig_dict]
      exact List.getLast?_concat
    · rw [noteConfig_dict] at hq
      have hd : (addPending a k v s).dict.pending.dropLast = s.dict.pending.filter (fun q => !sameObject a k q) :=
        List.dropLast_concat
      rw [hd] at hq
      obtain ⟨hm, hx⟩ := List.mem_filter.1 hq
      exact ⟨hm, by simpa using hx⟩
    · rw [noteConfig_dict]
      rfl
  · refine congrArg (Host.Outcome.next ∘ answerWrite) ?_
    simp only [doMemPages, hg, hr]
    exact if_neg (not_le.2 hn)
  · refine congrArg (Host.Outcome.next ∘ answerWrite) ?_
    have hg' : gate s a (tkey oTenantReset n) (natLe 1 1) = 0 := hg
    have hm' : makePending a (tkey oTenantReset n) (natLe 1 1) s = (0, t) := hm
    simp only [doTenantReset, hg', hm']
    exact if_neg (not_le.2 hn)
  · refine congrArg (Host.Outcome.next ∘ answerWrite) ?_
    have hr : ringResumeRule v = 0 := if_neg (not_le.2 hv)
    simp only [doRingResume, hg, hr]
    exact if_neg (not_le.2 hn)
  · refine congrArg (Host.Outcome.next ∘ answerWrite) ?_
    have hr : ringResumeRule v = abRange := if_pos hv
    simp only [doRingResume, hg, hr]
    exact if_neg (not_le.2 hn)

end Sys2Proof.Machine
